-- ==== Sys2Proof/Word.lean ====
section
/-! DEFINITION. The byte and quadword types, little-endian byte lists, and sparse tables in canonical form. -/

namespace Sys2Proof

/-- A byte of device memory, of a message or of a register payload (R5). -/
abbrev Byte := BitVec 8

/-- A 64-bit register quadword (R374). -/
abbrev Word := BitVec 64

/-- Ceiling of `a / b`, the "ceil(a ÷ b)" of the manual. -/
def ceilDiv (a b : Nat) : Nat := (a + b - 1) / b

/-- `a` rounded up to a multiple of `b`: the roundup64, roundup32 and roundup16 of the manual. -/
def roundUp (a b : Nat) : Nat := ceilDiv a b * b

/-- "ceil(log2 n)" of the manual, 0 for `n` at most 1. -/
def ceilLog2 (n : Nat) : Nat := if n ≤ 1 then 0 else Nat.log2 (n - 1) + 1

/-- Bits `[h:l]` of a value (R5). -/
def bitsAt (x h l : Nat) : Nat := (x >>> l) % 2 ^ (h + 1 - l)

/-- The value of a little-endian byte list (R5). -/
def leNat : List Byte → Nat
  | [] => 0
  | b :: bs => b.toNat + 256 * leNat bs

/-- A value as `n` little-endian bytes, cut to its low `8n` bits (R5). -/
def toLe : Nat → Nat → List Byte
  | 0, _ => []
  | n + 1, x => BitVec.ofNat 8 x :: toLe n (x / 256)

/-- A `w`-bit field read as a two's-complement integer. -/
def signed (w x : Nat) : Int := if x < 2 ^ (w - 1) then (x : Int) else (x : Int) - (2 ^ w : Nat)

/-- An integer as a `w`-bit two's-complement field. -/
def unsigned (w : Nat) (x : Int) : Nat := (x % (2 ^ w : Nat)).toNat

/-- `x` limited to `lo`–`hi` (the clamp of R37). -/
def clampNat (lo hi x : Nat) : Nat := if x < lo then lo else if hi < x then hi else x

/-- `x` added to a count that saturates at `top`. -/
def satAdd (top x d : Nat) : Nat := min top (x + d)

/-- A sparse table: keys strictly ascending, no entry equal to the table's default. -/
abbrev Tbl (α : Type) := List (Nat × α)

/-- The entry of key `k`, `d` when it is not listed. -/
def Tbl.get {α : Type} (d : α) : Tbl α → Nat → α
  | [], _ => d
  | (k', v) :: t, k => if k = k' then v else if k < k' then d else Tbl.get d t k

/-- The table without key `k`. -/
def Tbl.erase {α : Type} : Tbl α → Nat → Tbl α
  | [], _ => []
  | (k', v) :: t, k => if k = k' then t else if k < k' then (k', v) :: t else (k', v) :: Tbl.erase t k

/-- The table with key `k` holding `v`, whatever `v` is. -/
def Tbl.put {α : Type} : Tbl α → Nat → α → Tbl α
  | [], k, v => [(k, v)]
  | (k', w) :: t, k, v =>
    if k = k' then (k, v) :: t else if k < k' then (k, v) :: (k', w) :: t else (k', w) :: Tbl.put t k v

/-- The table with key `k` holding `v`; a value equal to the default removes the entry. -/
def Tbl.set {α : Type} [DecidableEq α] (d : α) (t : Tbl α) (k : Nat) (v : α) : Tbl α :=
  if v = d then t.erase k else t.put k v

/-- The canonical form: keys strictly ascending and no default listed. -/
def Tbl.ok {α : Type} [DecidableEq α] (d : α) : Tbl α → Bool
  | [] => true
  | [(_, v)] => decide (v ≠ d)
  | (k, v) :: (k', w) :: t => decide (v ≠ d) && decide (k < k') && Tbl.ok d ((k', w) :: t)

/-- A sorted set of numbers with `k` in it. -/
def setIns : List Nat → Nat → List Nat
  | [], k => [k]
  | x :: t, k => if k = x then x :: t else if k < x then k :: x :: t else x :: setIns t k

/-- A sorted set without `k`. -/
def setDel (t : List Nat) (k : Nat) : List Nat := t.filter (· ≠ k)

/-- `x` put into a sorted list, after the entries that it does not come before. -/
def insertBy {α : Type} (before : α → α → Bool) (x : α) : List α → List α
  | [] => [x]
  | y :: t => if before x y then x :: y :: t else y :: insertBy before x t

/-- A list sorted by a strict order, entries that tie in their first order. -/
def sortBy {α : Type} (before : α → α → Bool) (l : List α) : List α := l.foldl (fun acc x => insertBy before x acc) []

end Sys2Proof
end

