-- ==== Sys2Proof/Syntax.lean ====
section
/-! DEFINITION. The commands of the block, one constructor per row of spec/opcode_table.json, and the types of their operands.
The table gives no bits and no operands: each command's operands are read from the rule its row names. -/

namespace Sys2Proof

/-- A packet of the module: its partition (R8), its ring (R24) and its free-running slot index (R25). -/
structure PacketRef where
  part : Nat
  ring : Nat
  idx : Nat
  deriving DecidableEq, Repr

/-- The stream classes of Table 2.2 (R31). -/
inductive StreamClass where
  | F | B | U | I | C | M | S
  deriving DecidableEq, Repr

/-- The paths by which a register is reached (R372): BAR0 of a function, a REG message forwarded from BAR2 of a
bridge's function, and SMBus. -/
inductive Path where
  | bar0 (fn : Nat)
  | reg (fn : Nat)
  | smbus
  deriving DecidableEq, Repr

/-- The execution resources that ring service grants (R44, Table 2.6). An array with its vector engine, a haul
engine, a dressing engine or a decode core, each by its unit number (R457). -/
inductive Resource where
  | array (n : Nat)
  | gang (n : Nat)
  | vector (n : Nat)
  | haul (n : Nat)
  | dressing (n : Nat)
  | core (n : Nat)
  deriving DecidableEq, Repr

/-- The three kinds of stored memory, in the MEM codes of Table 11.3. -/
inductive MemKind where
  | scratchpad | hbm | sump
  deriving DecidableEq, Repr

/-- A Lanug message: the header of Table 13.2 and its data bytes (R309). -/
structure Msg where
  mtype : Nat
  mflags : Nat
  dstEp : Nat
  srcEp : Nat
  epoch : Nat
  msgId : Nat
  addr : Nat
  len : Nat
  poisonMap : Nat
  data : List Byte
  deriving DecidableEq, Repr

/-- A place where a unit attaches to the mesh: a router and one of its ports (R288, R289). -/
structure Attach where
  router : Nat
  port : Nat
  deriving DecidableEq, Repr

/-- A link of the on-die fabric: the input side of a router port (R287, R288), the way out of a router to the unit attached there, or one
direction of a crossing port (R289, R301). -/
inductive FabricLink where
  | mesh (router port : Nat)
  | unit (router port : Nat)
  | crossing (port : Nat) (toWest : Bool)
  deriving DecidableEq, Repr

/-- What a message of the fabric carries (Table 12.2). -/
inductive Traffic where
  | read | write | atomic
  | readData | writeAck | atomicResult
  | linkRead | linkWrite | linkReply
  | barrier | epoch | heartbeat | errorReport | doorbell | register
  deriving DecidableEq, Repr

/-- A message of the fabric, as the message identifier in a flit's sideband tells it (R288, R292; DESIGN CHOICE, log entry 106): its number,
what it carries, between which attachments, in how many flits, the memory it is about, and the packet for which it was made. -/
structure FabricMsg where
  id : Nat
  kind : Traffic
  src : Attach
  dst : Attach
  flits : Nat
  addr : Nat
  len : Nat
  owner : Option PacketRef
  deriving DecidableEq, Repr

/-- A fabric flit as it arrives: its place in the link's order and in its message, the message, the poison mark, whether its CRC checks (R298), and 64 B
of payload (R288). -/
structure FabricFlit where
  seq : Nat
  index : Nat
  msg : FabricMsg
  poison : Bool
  crcOk : Bool
  payload : List Byte
  deriving DecidableEq, Repr

/-- What a host aperture access asks for (R321, R322). -/
inductive ApertureOp where
  | write (data : List Byte)
  | read (len : Nat)
  deriving DecidableEq, Repr

/-- The input faults of R446. -/
inductive PowerFault where
  | underVoltage | overVoltage | converter
  deriving DecidableEq, Repr

/-- What trips the module (R454): a junction at 115 °C, or overpower for 10 ms with both halves at 300 MHz. -/
inductive TripCause where
  | junction (half : Nat)
  | overpower
  deriving DecidableEq, Repr

/-- The Syten controller errors of R412. -/
inductive SytenError where
  | rom | ram | registerParity
  deriving DecidableEq, Repr

/-- What the sensors read at a throttle tick (R453, Table 16.6): W, units of 10 mA, mV, and units of 0.125 °C. -/
structure Sensors where
  powerW : Nat
  current10mA : Nat
  vinMv : Nat
  tjE : Int
  tjW : Int
  tHbm : Int
  tBoard : Int
  deriving DecidableEq, Repr

/-- What a DIMM's serial presence detect reports (R258), and how it trains (R259). -/
structure Dimm where
  manufacturer : Nat
  partNumber : List Byte
  serial : Nat
  sizeGiB : Nat
  isMrdimm : Bool
  x4 : Bool
  ratedMts : Nat
  trainsMts : Nat
  deriving DecidableEq, Repr

/-- What a COLD boot meets outside the module's own state: the DIMMs in S0–S7 (R258), the slices, arrays and stacks
that fail their test (Table 20.3), the lanes that train on each port, REFCLK present (R470), and PERST_N (R468). -/
structure BootEnv where
  dimms : List (Option Dimm)
  badArrays : List Nat
  badSlices : List Nat
  badStacks : List Nat
  portLanes : List (Nat × Nat)
  refclk : Bool
  perstLow : Bool
  romOk : Bool
  fusesOk : Bool
  deriving DecidableEq, Repr

/-- The commands: the operations and events of the module, one constructor per row of the opcode table. -/
inductive Instr where
  /-- DOORBELL_WRITE (R26): A write to a ring's doorbell sets the ring tail and completion head, or is ignored and flagged in DB_REJECT_MAP. -/
  | doorbellWrite (path : Path) (quarter : Nat) (k : Nat) (data : Word)
  /-- SLOT_FETCH (R27): The slot at the ring head is fetched when its ring wins ring service; a SEQ mismatch or a poisoned header stops the ring without executing the slot. -/
  | slotFetch (part : Nat) (ring : Nat)
  /-- PACKET_ISSUE (R34): The packet at the ring head issues once its enabled waits are met and any SERIAL condition holds. -/
  | packetIssue (part : Nat) (ring : Nat)
  /-- PACKET_COMPLETE (R40): A finished packet makes its writes visible, writes its completion record unless NO_CQ suppresses it, and applies its signal. -/
  | packetComplete (p : PacketRef)
  /-- RING_SERVICE_GRANT (R44): At a grant boundary the arbiter grants an execution resource to the highest requesting ring, or to a ring forced by its wait counter. -/
  | ringServiceGrant (part : Nat) (res : Resource) (units : Nat) (jobDone : Bool)
  /-- EMPTY_GRANT (R46): In an MCLK cycle where every requester of a free resource is masked, the QUOTA window advances by one. -/
  | emptyGrant (part : Nat) (res : Resource)
  /-- QUOTA_WINDOW_END (R46): After 256 grant steps the QUOTA window ends, and every grant count and mask clears. -/
  | quotaWindowEnd (part : Nat)
  /-- CONFIG_SET (R41): Writes COUNT consecutive setting items from a device-memory buffer into the module, with clamping. -/
  | configSet (p : PacketRef)
  /-- CONFIG_GET (R41): Copies COUNT consecutive setting items into a device-memory buffer. -/
  | configGet (p : PacketRef)
  /-- RING_BIND (R29): Binds a ring to a stream class with its base, sizes, mode and wait limit. -/
  | ringBind (p : PacketRef)
  /-- RING_UNBIND (R29): A RING_BIND with UNBIND set leaves the target ring unbound. -/
  | ringUnbind (p : PacketRef)
  /-- RING_REBIND_APPLY (R29): Once every packet issued from a rebound ring has completed, the new binding applies and unfetched slots are discarded. -/
  | ringRebindApply (p : PacketRef)
  /-- GANG_FORM (R117): Forms a gang from arrays and gangs, taking effect at its completion. -/
  | gangForm (p : PacketRef)
  /-- GANG_DISSOLVE (R118): Dissolves a formed gang at its completion and frees its members. -/
  | gangDissolve (p : PacketRef)
  /-- GANG_CHANGE_TURN (R117): A GANG_FORM or GANG_DISSOLVE held behind another gang change takes its parameter snapshot once that change completes. -/
  | gangChangeTurn (p : PacketRef)
  /-- MATMUL (R112): Computes the dense product with the exact window and a single rounding epilogue. -/
  | matmul (p : PacketRef)
  /-- SPLIT_K_COMBINE (R115): The leaf whose arrival brings the combine area's arrival count to s reads the area back and runs the epilogue. -/
  | splitKCombine (p : PacketRef) (tile : Nat)
  /-- SPMM_CSR (R166): Computes a sparse-times-dense product with a CSR weight, optionally transposed, gathered by an active list, or audited. -/
  | spmmCsr (p : PacketRef)
  /-- SPMM_NM (R167): Computes a sparse-times-dense product with an N:M weight. -/
  | spmmNm (p : PacketRef)
  /-- SPSP (R173): Computes a product of two CSR operands through riddle matching. -/
  | spsp (p : PacketRef)
  /-- SDDMM (R191): Computes weight gradients only at the positions a pattern names, summed over up to four uses. -/
  | sddmm (p : PacketRef)
  /-- GROUPED_MATMUL (R237): Runs up to 256 MATMUL groups in one packet, dealing their tiles across the engine. -/
  | groupedMatmul (p : PacketRef)
  /-- PREDICT_ACTIVE (R179): Writes an active list of neurons by threshold, top-k or observation, with its length in a shape slot. -/
  | predictActive (p : PacketRef)
  /-- COMPRESS (R163): Writes a dense tensor into CSR or N:M form, settling tile forms and capacities. -/
  | compress (p : PacketRef)
  /-- MASKEDIT (R215): Prunes and regrows CSR positions in place, rewriting the CSR, twin, master and optimiser state. -/
  | maskedit (p : PacketRef)
  /-- MASKEDIT_REFS_RELEASED (R212): A MASKEDIT waiting on a version entry proceeds once both of its reference counts reach zero. -/
  | maskeditRefsReleased (p : PacketRef)
  /-- TWIN_BUILD (R184): Builds the column-ordered twin index of a CSR tensor. -/
  | twinBuild (p : PacketRef)
  /-- ELTWISE (R125): Applies one elementwise operation to every output element. -/
  | eltwise (p : PacketRef)
  /-- REDUCE (R123): Reduces one dimension exactly by sum, sum of squares, extremum or arg-extremum. -/
  | reduceDim (p : PacketRef)
  /-- SOFTMAX_BWD (R196): Forms the softmax or log-softmax input gradient with an exact row sum. -/
  | softmaxBwd (p : PacketRef)
  /-- NORM_BWD (R197): Forms layer or RMS norm input gradients and adds parameter gradients into WIDE160 accumulators. -/
  | normBwd (p : PacketRef)
  /-- QUANTIZE (R126): Quantizes into a scaled narrow format with chosen, kept or shared scales. -/
  | quantize (p : PacketRef)
  /-- UPDATE (R208): Applies one optimiser step to a weight and writes a new version. -/
  | updateWeight (p : PacketRef)
  /-- UPDATE_OLD_VERSION_RELEASED (R206): An UPDATE waiting at its turn for the old version's references proceeds once the last one is released. -/
  | updateOldVersionReleased (p : PacketRef)
  /-- UPDATE_TURN (R206): An UPDATE or MASKEDIT queued on an entry takes its turn once every earlier one of the entry has completed. -/
  | updateTurn (p : PacketRef)
  /-- VERSION_QUEUE_RELEASE (R202): An F packet held by a full version queue takes its snapshot once a B packet of its context takes a reference off the queue. -/
  | versionQueueRelease (p : PacketRef)
  /-- DRESS (R145): Permutes the dimensions of a tensor on the dressing engines, converting its format when asked. -/
  | dress (p : PacketRef)
  /-- COPY (R146): Moves a tensor with equal extents, possibly changing format, strides or tier. -/
  | copyTensor (p : PacketRef)
  /-- WINDOW_EXPAND (R147): Expands a video tensor into one row per sliding-window position. -/
  | windowExpand (p : PacketRef)
  /-- ROUTE (R224): Turns gate logits into ranked choices assigned to replicas under per-source quotas, writing the route buffer and spoil list. -/
  | route (p : PacketRef)
  /-- DISPATCH (R232): Exchanges one wave of token rows among the routing group's members. -/
  | dispatchRows (p : PacketRef)
  /-- DISPATCH_COMPACT (R232): Once every header and announced row has arrived, each local slot is compacted and SEG and the count slots are written. -/
  | dispatchCompact (p : PacketRef)
  /-- EXCHANGE_TIMEOUT (R235): A member's header that has not arrived within the heartbeat time ends the exchange with ERR_TIMEOUT. -/
  | exchangeTimeout (p : PacketRef) (member : Nat)
  /-- COMBINE (R238): Returns one wave of expert output rows to their sources and, at the last wave, forms each token's weighted output. -/
  | combineRows (p : PacketRef)
  /-- COMBINE_BWD (R240): Sends weighted output gradients to the experts and forms the gate gradient at the last wave. -/
  | combineBwd (p : PacketRef)
  /-- PLACE_EXPERTS_SET (R218): Sets a placement object after agreeing its digest with every member of the group. -/
  | placeExpertsSet (p : PacketRef)
  /-- PLACE_EXPERTS_STEP (R243): Raises a placement object's step count and, when a revision is due, starts one. -/
  | placeExpertsStep (p : PacketRef)
  /-- PLACEMENT_REVISION (R243): Once no packet holds the object, the members sum loads, compute a new table, fill new replica slots and take the new generation. -/
  | placementRevision (p : PacketRef)
  /-- PLACE_EXPERTS_RELEASE (R220): Leaves a placement object unset once no other packet holds it. -/
  | placeExpertsRelease (p : PacketRef)
  /-- SCALE_AGREE (R342): Agrees each bucket's shared exponent by a dissemination maximum across the ranks. -/
  | scaleAgree (p : PacketRef)
  /-- RS_INT (R344): Reduce-scatters gradient buckets as exact GRI integers. -/
  | rsInt (p : PacketRef)
  /-- BUCKET_REDUCE (R344): When all S slots of a bucket have landed, the owner sums them, writes its shard, adds the totals and signals the bucket. -/
  | bucketReduce (p : PacketRef) (bucket : Nat)
  /-- ALLGATHER (R347): Gathers every rank's shard into each rank's destination. -/
  | allgather (p : PacketRef)
  /-- ALLGATHER_SLOT_FREE (R348): A third ALLGATHER of a context takes its snapshot once one of the two running ones completes. -/
  | allgatherSlotFree (p : PacketRef)
  /-- ALLTOALL (R349): Sends row j of each rank to row r of rank j. -/
  | alltoall (p : PacketRef)
  /-- PERMUTE_SHARDS (R351): Re-shards regions in place through sump staging by a move list. -/
  | permuteShards (p : PacketRef)
  /-- STAGING_SET_FREE (R351): A PERMUTE_SHARDS held while both staging sets are in use takes its snapshot once one is freed. -/
  | stagingSetFree (p : PacketRef)
  /-- BARRIER (R352): Exchanges ARRIVE messages by dissemination until every rank has taken the barrier's snapshot. -/
  | barrier (p : PacketRef)
  /-- EPOCH_SET_ADVANCE (R335): Raises the partition's epoch and sets its membership, ending remote packets that await peers. -/
  | epochSetAdvance (p : PacketRef)
  /-- EPOCH_SET_JOIN (R335): Sets any epoch and membership for a rejoining partition and clears QUARANTINED. -/
  | epochSetJoin (p : PacketRef)
  /-- HEARTBEAT_TIMER (R338): Every HB_TIME divided by four, the partition sends HEARTBEAT to the four members that follow it. -/
  | heartbeatTimer (part : Nat)
  /-- PEER_LOST (R338): A watched endpoint silent for HB_TIME is declared lost: a record is logged, LOST is sent and waiting packets end. -/
  | peerLost (part : Nat) (endpoint : Nat)
  /-- COLL_TIMEOUT (R339): An awaited READY, DONE or ARRIVE from a live rank missing for COLL_LIMIT ends the collective with ERR_TIMEOUT. -/
  | collTimeout (p : PacketRef) (rank : Nat)
  /-- TS_DEMUX (R358): Splits a transport stream into a video elementary-stream ring, PES records and raw audio. -/
  | tsDemux (p : PacketRef)
  /-- DECODE (R363): Decodes an elementary stream into pictures in display order, concealing or skipping corrupt access units. -/
  | decodeVideo (p : PacketRef)
  /-- PATCHIFY (R370): Crops, scales, converts and cuts pictures into token rows. -/
  | patchify (p : PacketRef)
  /-- SHUFFLE_PLAN (R371): Writes a slice of a Feistel-based permutation of the sample indices. -/
  | shufflePlan (p : PacketRef)
  /-- SNAP_BEGIN (R395): Opens a new numbered generation in the catalogue. -/
  | snapBegin (p : PacketRef)
  /-- SNAP_DISCARD (R395): Frees a generation and its units once no other packet uses it. -/
  | snapDiscard (p : PacketRef)
  /-- SNAP_WRITE (R397): Adds a region or schedule extent to an open generation. -/
  | snapWrite (p : PacketRef)
  /-- SNAP_PARITY (R401): Seals a generation and computes rotating XOR parity with its parity group. -/
  | snapParity (p : PacketRef)
  /-- SNAP_PARITY_HOLD_END (R401): SNAP_PARITY takes its snapshot once every already-issued SNAP_WRITE of the generation has completed. -/
  | snapParityHoldEnd (p : PacketRef)
  /-- PARITY_UNIT_XOR (R401): With every DONE for a landing buffer, the holder XORs the units and writes one parity unit. -/
  | parityUnitXor (p : PacketRef) (unit : Nat)
  /-- SNAP_COMMIT (R402): Marks a generation COMMITTED once a DONE from every rank is held. -/
  | snapCommit (p : PacketRef)
  /-- RESTORE (R404): Reads the extents of a committed generation back into memory and schedule state. -/
  | restoreGen (p : PacketRef)
  /-- REBUILD (R406): Reconstructs a lost rank's generation onto a spare from the survivors' data and parity. -/
  | rebuild (p : PacketRef)
  /-- REBUILD_STRIPE (R406): With every unit of a stripe landed, the spare XORs them into the lost unit or parity unit and stores it. -/
  | rebuildStripe (p : PacketRef) (stripe : Nat)
  /-- WATCH_READ (R90): Copies watch slots to memory and optionally clears them. -/
  | watchRead (p : PacketRef)
  /-- LAYER_SCALE_SET (R93): Writes one layer entry's exponent, mode, gradient slot and scope. -/
  | layerScaleSet (p : PacketRef)
  /-- LAYER_SCALE_UNBIND (R92): LAYER_SCALE_SET with MODE 3 returns the entry to its reset values and clears its slot's GRAD bit. -/
  | layerScaleUnbind (p : PacketRef)
  /-- EMULATE_SET (R97): Turns C3 emulation on or off for one ring. -/
  | emulateSet (p : PacketRef)
  /-- SCRUB_SET (R277): Sets the scrub period, repair mode and threshold of one memory kind. -/
  | scrubSet (p : PacketRef)
  /-- REMAP_ADD (R281): Remaps one granule to a replacement on request. -/
  | remapAdd (p : PacketRef)
  /-- RETIRE (R127): Retires an array or slice, bringing in a spare when one is in reserve. -/
  | retireUnit (p : PacketRef)
  /-- RETIRE_DRAIN_END (R127): Once packets on the leaving array complete, the retirement acts and held packets resume. -/
  | retireDrainEnd (p : PacketRef)
  /-- ARRAY_AUTO_RETIRE (R410): At an array's second residue or window-parity mismatch, the firmware retires it as RETIRE does. -/
  | arrayAutoRetire (array : Nat)
  /-- REINSTATE (R418): Self-tests an array and returns it to service or reserve, or returns a slice to the pool. -/
  | reinstate (p : PacketRef) (testPassed : Bool)
  /-- ERRLOG_READ (R286): Copies the oldest unread error-log records, optionally consuming them. -/
  | errlogRead (p : PacketRef)
  /-- ATTEST (R427): Writes a signed attestation report of the partition. -/
  | attest (p : PacketRef)
  /-- HOST_GEN (R428): Generates an ML-KEM-768 key pair in the Kwadar root and writes the encapsulation key. -/
  | hostGen (p : PacketRef)
  /-- HOST_ACCEPT (R429): Decapsulates the host ciphertext, derives the bounce keys and writes a confirmation tag. -/
  | hostAccept (p : PacketRef)
  /-- CLEAR_HOST (R429): Destroys the host keys and pending pair, and unbinds every bounce queue. -/
  | clearHost (p : PacketRef)
  /-- KEY_EXCHANGE_PORT (R430): Runs an authenticated key exchange with the far end of a port and retrains it into encrypted mode. -/
  | keyExchangePort (p : PacketRef)
  /-- CLEAR_PORT (R430): Retrains a port into clear mode. -/
  | clearPort (p : PacketRef)
  /-- BOUNCE_BIND (R435): Binds a bounce queue to host rings and to a doorbell ring. -/
  | bounceBind (p : PacketRef)
  /-- BOUNCE_UNBIND (R438): Unbinds a bounce queue and keeps its indexes and counters. -/
  | bounceUnbind (p : PacketRef)
  /-- BOUNCE_SEND (R437): Encrypts device bytes into outbound DATA records. -/
  | bounceSend (p : PacketRef)
  /-- BOUNCE_SEND_ROOM (R437): A SEND waiting for outbound ring room writes its next record once the host's consumer index advances. -/
  | bounceSendRoom (p : PacketRef)
  /-- BOUNCE_DOORBELL_WRITE (R435): A doorbell write to a bound queue sets its inbound producer and outbound consumer indexes. -/
  | bounceDoorbellWrite (path : Path) (quarter : Nat) (k : Nat) (data : Word)
  /-- BOUNCE_RECORD (R436): An inbound record fetched from the host is verified and accepted as DATA or TAIL, or refused with an ERROR record. -/
  | bounceRecord (part : Nat) (queue : Nat) (record : List Byte)
  /-- PARTITION_SET (R422): Requests a layout and confidential flags, becoming pending when it reassigns quarters. -/
  | partitionSet (p : PacketRef)
  /-- PARTITION_CHANGE (R423): Once the last concerned partition has issued PARTITION_SET, the reassigned quarters abort, reset, zero and erase, and the new partitions form. -/
  | partitionChange
  /-- PARTITION_CHANGE_COMPLETE (R424): The change's completion is written as record 0 of every new bootstrap queue, and READY sets. -/
  | partitionChangeComplete (ms : Nat)
  /-- POOL_RETRY (R255): When a reservation is released, packets waiting for pool space try again in descending ring number. -/
  | poolRetry (part : Nat)
  /-- POOL_RESIZE (R254): A pool-size CONFIG_SET applies once no packet of the partition holds a pool reservation. -/
  | poolResize (p : PacketRef)
  /-- PLACEMENT_HOLD_RELEASE (R220): Packets held behind a RELEASE or revision of a placement object take their snapshots once it ends. -/
  | placementHoldRelease (p : PacketRef)
  /-- RESTORE_ENTRY_WAIT_END (R404): A RESTORE of a versioned extent proceeds once its entry holds no references. -/
  | restoreEntryWaitEnd (p : PacketRef)
  /-- REBUILD_HOLD_END (R405): A REBUILD of a group already rebuilding takes its snapshot once that rebuild completes. -/
  | rebuildHoldEnd (p : PacketRef)
  /-- UNIT_RESET (R457): A CONFIG_SET of UNIT_RESET aborts the unit's packets and clears its state. -/
  | unitReset (p : PacketRef)
  /-- QUIESCE_REQUEST (R460): PSTATE_REQ 2 holds new issue and drains the partition towards QUIESCE. -/
  | quiesceRequest (p : PacketRef)
  /-- STANDBY_REQUEST (R460): PSTATE_REQ 3 drains the partition and then powers it down to STANDBY. -/
  | standbyRequest (p : PacketRef)
  /-- ACTIVE_REQUEST (R460): PSTATE_REQ 0 stops an entry in progress and returns the partition to ACTIVE. -/
  | activeRequest (p : PacketRef)
  /-- QUIESCE_REACHED (R460): Once issued packets have completed and the merge buffers have drained, the partition is in QUIESCE. -/
  | quiesceReached (part : Nat)
  /-- STANDBY_REACHED (R460): After the seam drains, objects are released, rings are unbound and domains are switched off, the partition is in STANDBY. -/
  | standbyReached (part : Nat)
  /-- STANDBY_WAKE_DONE (R461): After domains come up, memory is zeroed and the bootstrap ring is bound, STATUS.READY sets. -/
  | standbyWakeDone (part : Nat)
  /-- BENCH_IDLE_GATE (R448): A bench idle for BENCH_IDLE_US is switched off. -/
  | benchIdleGate (bench : Nat)
  /-- REGISTER_WRITE (R377): A write to a register without its own row sets its value, or is discarded as a bad access. -/
  | registerWrite (path : Path) (win : Nat) (offset : Nat) (size : Nat) (data : Word)
  /-- RC_REGISTER_READ (R381): A read of a clear-on-read register returns its value and clears it in one action. -/
  | rcRegisterRead (path : Path) (win : Nat) (offset : Nat)
  /-- LINK_COUNTER_READ (R387): A read of a link-event counter returns its slow copy and subtracts that value at the next handshake. -/
  | linkCounterRead (path : Path) (win : Nat) (offset : Nat)
  /-- WIDE_SEL_WRITE (R383): A write of WIDE_SEL selects a wide item and clears VALID and BAD_SEL. -/
  | wideSelWrite (path : Path) (win : Nat) (data : Word)
  /-- WIDE_CAPTURE (R383): The module snapshots the selected wide value, clearing it if asked, and sets VALID or BAD_SEL. -/
  | wideCapture (win : Nat)
  /-- STREAM_RESET (R51): RESET_REQ KIND 1 aborts the packets and discards the unfetched slots of one class's rings. -/
  | streamReset (path : Path) (quarter : Nat) (cls : StreamClass)
  /-- PARTITION_RESET (R455): RESET_REQ KIND 2 aborts and resets the partition without zeroing memory. -/
  | partitionReset (path : Path) (quarter : Nat)
  /-- MODULE_RESET (R458): RESET_REQ KIND 3 in the device window resets every domain except AON and reruns boot. -/
  | moduleReset (path : Path)
  /-- PERST_N_RISE (R468): PERST_N rising after at least 100 µs low starts a MODULE reset or releases a held boot. -/
  | perstNRise (lowUs : Nat)
  /-- VIN_PRESENT (R445): VIN above 52 V powers housekeeping, SMBus and the sensors. -/
  | vinPresent (mv : Nat)
  /-- COLD_RESET (R445): PWR_EN rising after 10 ms low powers the module up and runs boot. -/
  | coldReset (lowMs : Nat) (env : BootEnv)
  /-- BOOT_READY (R449): Boot stages 1–7 complete, bootstrap rings are bound and READY sets. -/
  | bootReady (ms : Nat)
  /-- PWR_EN_FALL (R446): PWR_EN low for 10 ms deasserts PWR_GOOD and shuts the rails down. -/
  | pwrEnFall (lowMs : Nat)
  /-- POWER_FAULT (R446): Under-voltage, over-voltage or a converter fault shuts the rails down and asserts FAULT_N. -/
  | powerFault (kind : PowerFault)
  /-- THROTTLE_TICK (R453): Every 10 µs, power, current and junction temperature are compared with their limits, and each half's ACLK steps down or up. -/
  | throttleTick (sensors : Sensors)
  /-- ACLK_STEP (R452): ACLK moves one 20 MHz step towards its set point every 2 µs. -/
  | aclkStep (half : Nat)
  /-- THERMAL_TRIP (R454): A junction at 115 °C, or sustained overpower at minimum clock, switches off every switched domain. -/
  | thermalTrip (cause : TripCause)
  /-- WATCHDOG_EXPIRY (R411): 50 ms without a restart fires the watchdog and puts the module into its fatal state. -/
  | watchdogExpiry
  /-- SYTEN_FATAL_ERROR (R412): An uncorrectable Syten ROM or RAM error, or a register parity error, puts the module into its fatal state. -/
  | sytenFatalError (cause : SytenError)
  /-- PLL_LOSS_OF_LOCK (R305): A PLL off frequency or unlocked stops its clock, and its domain is treated as powered off. -/
  | pllLossOfLock (clock : Nat)
  /-- GEO_ID_SAMPLE (R469): While PWR_EN is low, GEO_ID is sampled every 1 ms to set the SMBus address. -/
  | geoIdSample (pins : Nat)
  /-- SCRUB_READ (R275): A scrubber reads its next granule on schedule, correcting or poisoning codewords. -/
  | scrubRead (mem : MemKind) (unit : Nat)
  /-- SCRUB_PASS_END (R279): The end of a unit's scrub pass clears its corrected-error tracker. -/
  | scrubPassEnd (mem : MemKind) (unit : Nat)
  /-- MERGE_ENTRY_TIMEOUT (R271): A merge-buffer entry idle for 64 controller cycles drains, by read-modify-write if it is not fully valid. -/
  | mergeEntryTimeout (granule : Nat)
  /-- FABRIC_FLIT_RECEIVE (R298): A fabric or seam flit is CRC-checked and accepted, or discarded with a replay request. -/
  | fabricFlitReceive (link : FabricLink) (flit : FabricFlit)
  /-- MESH_LINK_FAILED (R299): Retry counts past their limit fail a mesh link, or retire a crossing port. -/
  | meshLinkFailed (link : FabricLink)
  /-- SEAM_PEER_DOWN (R303): No clock-alive toggle for 16 cycles declares the far half down, and queues and requests are discarded. -/
  | seamPeerDown (half : Nat)
  /-- SEAM_PEER_UP (R303): Toggles seen for 64 cycles bring the far half up, with empty queues and full credits. -/
  | seamPeerUp (half : Nat)
  /-- FLIT_RECEIVE (R313): A Lanug DATA or IDLE flit is decoded, checked and accepted in sequence, or discarded and a RETRY_REQ sent. -/
  | flitReceive (port : Nat) (codewordOk : Bool) (flit : List Byte)
  /-- RETRY_REQ (R313): A received RETRY_REQ makes the sender replay from the flit after its ACK. -/
  | retryReq (port : Nat) (ack : Nat) (ackValid : Bool)
  /-- LANE_FAULT (R315): A lane loses lock or exceeds its symbol-error limit and starts a retrain. -/
  | laneFault (port : Nat) (lane : Nat)
  /-- RETRAIN (R315): The port stops DATA flits and trains its unretired lanes to the widest width that passes. -/
  | retrain (port : Nat)
  /-- RETRAIN_DONE (R316): At the end of training the port runs at its new width and replays, or goes down. -/
  | retrainDone (port : Nat) (passing : List Nat)
  /-- PORT_RETRAIN_ATTEMPT (R316): A down port attempts a retrain once every second. -/
  | portRetrainAttempt (port : Nat)
  /-- WRITE (R310): A received WRITE message is epoch-checked and its bytes written at ADDR. -/
  | writeMsg (port : Nat) (m : Msg)
  /-- READ_REQ (R310): A received READ_REQ reads LEN bytes and answers with READ_RESP. -/
  | readReqMsg (port : Nat) (m : Msg)
  /-- READ_RESP (R310): A received READ_RESP delivers read data to its requester. -/
  | readRespMsg (port : Nat) (m : Msg)
  /-- ATOMIC (R263): A received ATOMIC applies its addends at the target controller and answers with the values found. -/
  | atomicMsg (port : Nat) (m : Msg)
  /-- ATOMIC_RESP (R310): A received ATOMIC_RESP returns the target values to the requester. -/
  | atomicRespMsg (port : Nat) (m : Msg)
  /-- WRITE_ACK (R310): A received WRITE_ACK acknowledges a write to its sender. -/
  | writeAckMsg (port : Nat) (m : Msg)
  /-- REG (R310): A received REG message performs a register access from a bridge. -/
  | regMsg (port : Nat) (m : Msg)
  /-- REG_RESP (R310): A received REG_RESP returns register read data to the bridge. -/
  | regRespMsg (port : Nat) (m : Msg)
  /-- READY (R331): A received READY announces a landing area and lets the sender start writing. -/
  | readyMsg (port : Nat) (m : Msg)
  /-- DONE (R331): A received DONE marks a rank's transfer as landed. -/
  | doneMsg (port : Nat) (m : Msg)
  /-- ARRIVE (R352): A received ARRIVE advances a barrier or dissemination round. -/
  | arriveMsg (port : Nat) (m : Msg)
  /-- HEARTBEAT (R338): A received HEARTBEAT restarts the loss timer of a watched endpoint. -/
  | heartbeatMsg (port : Nat) (m : Msg)
  /-- STALE (R334): A received STALE notice quarantines every matching partition and ends its remote packets with ERR_EPOCH. -/
  | staleMsg (port : Nat) (m : Msg)
  /-- LOST (R338): A received LOST notice ends the partition's packets that await the lost endpoint. -/
  | lostMsg (port : Nat) (m : Msg)
  /-- NOTIFY (R325): A NOTIFY received by the bridge from a group member raises the function's MSI-X vector. -/
  | notifyMsg (port : Nat) (m : Msg)
  /-- BAR2_ACCESS (R322): A host BAR2 access is forwarded to a group member as a REG message, or refused. -/
  | bar2Access (fn : Nat) (offset : Nat) (size : Nat) (write : Option Word)
  /-- APERTURE_ACCESS (R322): A host BAR4 access is forwarded as WRITE or READ_REQ at APERTURE_BASE plus offset, or refused. -/
  | apertureAccess (fn : Nat) (offset : Nat) (access : ApertureOp)
  /-- BRIDGE_READ_TIMEOUT (R322): A BAR2 read without REG_RESP within 1 ms completes with all bytes 0xFF and is logged. -/
  | bridgeReadTimeout (msgId : Nat)
  /-- MSIX_UNMASK (R324): Unmasking an MSI-X vector with its pending bit set sends one message. -/
  | msixUnmask (fn : Nat) (vector : Nat)
  /-- PCIE_HOT_RESET (R455): A PCIe hot reset or link-down of the module's endpoint performs a UNIT reset of that endpoint. -/
  | pcieHotReset
  /-- REG_WRITE (R471): The SMBus REG_WRITE command writes a register. -/
  | regWrite (pecOk : Bool) (payload : List Byte)
  /-- REG_ADDR (R471): The SMBus REG_ADDR command latches a register read target. -/
  | regAddr (pecOk : Bool) (payload : List Byte)
  /-- REG_READ (R471): The SMBus REG_READ command reads the latched target with a status byte. -/
  | regRead (pecOk : Bool)
  /-- CFG_OPEN (R472): The SMBus CFG_OPEN command zeroes the configuration staging area. -/
  | cfgOpen (pecOk : Bool) (payload : List Byte)
  /-- CFG_DATA (R472): The SMBus CFG_DATA command writes 32 bytes of the staged image. -/
  | cfgData (pecOk : Bool) (payload : List Byte)
  /-- CFG_CLOSE (R472): The SMBus CFG_CLOSE command starts the check and flash write of the staged image. -/
  | cfgClose (pecOk : Bool) (payload : List Byte)
  /-- CFG_WRITE_DONE (R472): The check and flash write end with STATE written, refused as invalid, or flash fault. -/
  | cfgWriteDone (flashOk : Bool)
  /-- CFG_STATUS (R472): The SMBus CFG_STATUS command returns the configuration write state and digest. -/
  | cfgStatus (pecOk : Bool)
  /-- ALERT_RESPONSE (R467): A read of the SMBus Alert Response Address by an agent is answered by the module while it asserts ALERT_N. -/
  | alertResponse
  /-- UNLOCK_REQ (R442): A UART UNLOCK_REQ frame is answered with a fresh CHALLENGE, or refused. -/
  | unlockReq (frame : List Byte)
  /-- ANSWER (R442): A UART ANSWER frame's signature is checked and the debug unlock is granted or refused. -/
  | answer (frame : List Byte)
  /-- PCIE_LINK_UP (R320): The PCIe endpoint on X0–X3 finishes training when the host allows, and LINK_STATE slot 4 takes the trained speed and width. -/
  | pcieLinkUp (speed : Nat) (width : Nat)
  /-- BAD_ACCESS_READ (R374): A host BAR0 read that is misaligned or hits an unassigned offset returns 0xFF or zero and records a bad access in BAD_ACCESS and SUMMARY. -/
  | badAccessRead (path : Path) (win : Nat) (offset : Nat) (size : Nat)
  deriving DecidableEq, Repr

end Sys2Proof
end

