-- ==== Sys2Proof/Config.lean ====
section
/-! DEFINITION. The values that the manual leaves open: constants with no body, so that no proof can rest on a value of
them. Each is named in a log entry. -/

namespace Sys2Proof

/-- The `n`-th byte drawn from a source that the manual does not fix: the random bits of the Kwadar root and of the boot
firmware. `n` is the counter `State.draws`. -/
opaque Config.freeByte : Nat → Byte

/-- The merge-buffer bank of a 64 B granule, by its unit-local byte address, where R271 gives the number of banks but no rule
says which bank a granule lies in (slices and sump channels). -/
opaque Config.mergeBank : Nat → Nat

/-- Whether a codeword whose symbols in error are beyond the code's limits is miscorrected and not reported (R268), by its
address and its symbols and patterns. -/
opaque Config.miscorrects : Nat → List (Nat × Nat) → Bool

/-- The further symbol that a miscorrection changes and the pattern by which it does (R268), by the codeword's address and its symbols and
patterns in error. -/
opaque Config.miscorrection : Nat → List (Nat × Nat) → Nat × Nat

/-- Whether a poisoned codeword with symbols in error still reads as poisoned and not as uncorrectable (R273), by its address and its symbols
and patterns. -/
opaque Config.keepsPoison : Nat → List (Nat × Nat) → Bool

/-- The bit of a group sum that a stuck fault of an array changes for the products of a group, or none where their operands do not exercise
it (R103). Free: the spec gives a fault no place (log entry 11). -/
opaque Config.faultBit : Nat → List Int → Option Nat

/-- The cycles that an array waits in a packet for panels or for a free bank (R108), by the array and the cycles it was busy before. Free: the
spec gives staging no times (log entry 12). -/
opaque Config.stallCycles : Nat → Nat → Nat

/-- The 160-bit VALUE of a sum converted at an anchor where it does not fit (R198 states no result there), by its truncated integer and
the anchor. -/
opaque Config.wideOverflow : Int → Int → Int

/-- POS of the route record of a spoiled choice, by token and rank, where R227 states none. -/
opaque Config.spoilPos : Nat → Nat → BitVec 16

/-- WAVE of the route record of a spoiled choice, by token and rank, where R227 states none. -/
opaque Config.spoilWave : Nat → Nat → BitVec 8

/-- WEIGHT of a renormed choice whose token's survivors all have probability 0, by token and rank: R225 divides by 0 there. -/
opaque Config.renormZero : Nat → Nat → BitVec 32

/-- The gate gradient, as a binary32 code, of a renormed token whose survivors all have probability 0, by token and rank: R241 divides by
0 there. -/
opaque Config.gateGradZero : Nat → Nat → BitVec 32

/-- SLOT[i] of an entry of a placement object's mirror at or beyond the entry's R, by expert and i: R219 ignores these entries and R220
does not say what the module writes there. -/
opaque Config.mirrorSpare : Nat → Nat → BitVec 16

/-- CODEC of a PES record made without AUTO, by the record's number: R358 names the codec by the PMT, which is parsed with AUTO only. -/
opaque Config.recordCodec : Nat → BitVec 2

/-! The video codecs. R360 leaves what an access unit decodes to, to the standards of Table 0.1, which are not part of the manual. -/

/-- A picture as a decode core gives it, cropped (R363): its samples by rows, two rows of chroma samples interleaved for four of luma,
how it is interlaced (R364), the colour description, and PTS and SEQ of the record that held its access unit. `field` is the parity of a
lone field, 0 top and 1 bottom; `lost` marks the place of a picture of a corrupt access unit. -/
structure Picture where
  width : Nat
  height : Nat
  bits : Nat
  luma : List Nat
  chroma : List Nat
  mono : Bool
  interlaced : Bool
  bottomFirst : Bool
  field : Option Nat
  fullRange : Bool
  matrix : Nat
  grain : Bool
  lost : Bool
  pts : Nat
  seq : Nat
  deriving DecidableEq, Repr

/-- An access unit as a decode core meets it: the record in which it lies, whether it breaks its standard or references a picture that is
not available (R365), whether it needs a feature outside Table 15.5 (R361), whether it is a random-access point, the size and bit depth of
its sequence when known, and the pictures that come next in display order once it is decoded. -/
structure CodedUnit where
  record : Nat
  broken : Bool
  unsupported : Bool
  randomAccess : Bool
  sequence : Option (Nat × Nat × Nat)
  pics : List Picture
  deriving DecidableEq, Repr

/-- The access units of a run of records, by CODEC, DMODE, the bytes of the state area that are not zero, and the records with their
payloads. -/
opaque Config.accessUnits : Nat → Nat → List (Nat × Byte) → List (List Byte × List Byte) → List CodedUnit

/-- The bytes of the state area once a number of the access units have been decoded, by the same values and that number. -/
opaque Config.decoderArea : Nat → Nat → List (Nat × Byte) → List (List Byte × List Byte) → Nat → List (Nat × Byte)

/-- The last picture written in the stream of a state area, when there is one. -/
opaque Config.lastPicture : List (Nat × Byte) → Option Picture

/-- Whether the stream of a state area is skipping to its next random-access point. -/
opaque Config.decoderSkips : List (Nat × Byte) → Bool

/-- The bytes by which the LEN of a SCHEDULE extent exceeds its contents as the model lays them out, by the length of that layout: R398 and
R399 do not give an extent's own size. -/
opaque Config.schedulePad : Nat → Nat

/-! The algorithms of FIPS 203 and FIPS 204, which the manual names and does not state, and whose outputs rest on random bits. -/

/-- ML-KEM-768 key generation: the encapsulation key and the decapsulation key, from 64 random bytes. -/
opaque Config.mlkemKeys : List Byte → List Byte × List Byte

/-- ML-KEM-768 encapsulation under a key with 32 random bytes: the ciphertext and the shared secret. -/
opaque Config.mlkemEncaps : List Byte → List Byte → List Byte × List Byte

/-- ML-KEM-768 decapsulation of a ciphertext. -/
opaque Config.mlkemDecaps : List Byte → List Byte → List Byte

/-- An ML-DSA-44 signature by a private key under a context string, of a message, with 32 random bytes. -/
opaque Config.mldsaSign : List Byte → List Byte → List Byte → List Byte → List Byte

/-- Whether an ML-DSA-44 signature verifies under a public key and a context string. -/
opaque Config.mldsaVerify : List Byte → List Byte → List Byte → List Byte → Bool

/-- Whether a signature of a message verifies under the public key with a given SHA3-256 digest, where the manual keeps only the digest. -/
opaque Config.digestVerify : List Byte → List Byte → List Byte → List Byte → Bool

/-- The fuse map as bytes (R427), whose layout the manual does not give: by the spares it names and the repairs it holds. -/
opaque Config.fuseImage : List Nat → List (Nat × Nat × Nat) → List Byte

/-- Which of the units that carry a partition's accesses carries that to the granule of an address, as a number of their list: the manual does not
say which engine of a partition carries which access (R299). -/
opaque Config.carrier : Nat → Nat

/-- The frequency in MHz of LCLK of a port, which the port's lane rate sets (Table 12.6) and the manual does not give. -/
opaque Config.lclkMhz : Nat → Nat

/-- The phase of a clock in six-thousandths of its period (R300, R304): no clock of the module is locked to another. -/
opaque Config.clockPhase : Nat → Nat

/-- Whether the bank of a granule can take a command in an MCLK cycle (R295), by the granule and the cycle: the memories' timing rules are not
part of the manual. -/
opaque Config.bankReady : Nat → Nat → Bool

/-- The quarters to a partition on another module of the group (R322): its layout, which nothing tells this module. -/
opaque Config.memberQuarters : Nat → Nat

end Sys2Proof
end

