-- ==== Sys2Proof/Machine/State.lean ====
section
/-! DEFINITION. The state of the module as plain data: every register, buffer, queue, counter, mode and pin the manual
gives CSJ40-A, and the queue of the commands that wait; and the state right after reset. -/

namespace Sys2Proof.Machine

/-- The non-finite class of a window or of a WIDE160 (R70, Table 3.7). -/
inductive NfClass where
  | none | posInf | negInf | nan
  deriving DecidableEq, Repr

/-- A WIDE160 value: the 160-bit integer VALUE, its ANCHOR and its FLAGS (R72). -/
structure W160 where
  v : Int
  anchor : Int
  cls : NfClass
  sticky : Bool
  loss : Bool
  deriving DecidableEq, Repr

/-- A spill record or combine-area record: a WIDE160 and its window-loss count (R110, R115). -/
structure Spill where
  w : W160
  losses : Nat
  deriving DecidableEq, Repr

/-- The combine area of one split output tile: its records in window order, the arrival count (R115), whether a poisoned part
has arrived (R103, R274), the positions whose operands read as bad (R274), and the bank of the leaf whose arrival is still due. -/
structure CombineArea where
  tile : Nat
  parts : Nat
  arrived : Nat
  poisoned : Bool
  badAt : List Nat
  records : List Spill
  bank : List Spill
  deriving DecidableEq, Repr

/-- What a bank of an accumulator buffer holds, or the spill records of a bank (R109, R110): the packet and its tile, and the tile's windows in
window order, each with its side registers and its loss count. -/
structure AccBank where
  part : Nat
  ring : Nat
  idx : Nat
  tile : Nat
  windows : List Spill
  deriving DecidableEq, Repr

/-- An entry of an array's riddle (R171): a column index, the mask of the rows of the tile that hold it, and their value slots. -/
structure RiddleEntry where
  col : Nat
  mask : Nat
  slots : List Nat
  deriving DecidableEq, Repr

/-- A tensor descriptor as the parameter snapshot read it (Table 6.1), with its extents resolved (R133) and, for a CSR
descriptor, the CSR header (R151). Lists indexed by dimension hold five entries. -/
structure Desc where
  base : Nat
  fmt : Nat
  kind : Nat
  rank : Nat
  scaledBit : Bool
  shape : Nat
  watch : Nat
  extRaw : List Nat
  scaleStride : Nat
  stride : List Int
  scalePtr : Nat
  idx0 : Nat
  idx1 : Nat
  indexBase : Nat
  trimLo : List Nat
  trimHi : List Nat
  ext : List Nat
  csrCapacity : Nat
  csrNnz : Nat
  csrGen : Nat
  deriving DecidableEq, Repr

/-- How a read found an item stored (R268, R274): poison already there, or a fresh uncorrectable codeword. -/
inductive BadRead where
  | poison | uncorrectable
  deriving DecidableEq, Repr

/-- What the parameter snapshot of a packet read, once (R35): the parameter block, the descriptors by parameter-block
field, further items by field, the shape slots, the leaf list of the engine, the gradient exponent of each written
field's layer (R94), the layer exponent of an UPDATE (R95), C3 mode (R97), the versions each entry is read at (R202),
the pointers that failed and the items that read as poisoned (R129, R36). -/
structure Snap where
  params : List Byte
  descs : List (Nat × Desc)
  items : List (Nat × List Byte)
  slots : List (Nat × Nat × Nat)
  leaves : List Nat
  engine : Option Nat
  gOf : List (Nat × Int)
  layerG : Int
  c3 : Bool
  versions : List (Nat × Nat)
  badPtrs : List (Nat × Nat)
  badItems : List (Nat × BadRead)
  time : Nat
  deriving DecidableEq, Repr

/-- A reference that a packet holds on a version of an entry until its completion (R202, R203); `queued` marks an F
reference, which stays in the queue of the entry and the context. -/
structure VRef where
  entry : Nat
  ver : Nat
  queued : Bool
  deriving DecidableEq, Repr

/-- The counts a packet adds to one watch slot at step 1 of R40 (R87, R88), and the gradient exponent it applied. -/
structure WatchDelta where
  slot : Nat
  elements : Nat
  zeros : Nat
  saturations : Nat
  underflows : Nat
  nonfinite : Nat
  losses : Nat
  g : Option Int
  deriving DecidableEq, Repr

/-- A write of bytes to device memory; `poison` marks data written as poisoned (R273). -/
structure Write where
  addr : Nat
  bytes : List Byte
  poison : Bool
  deriving DecidableEq, Repr

/-- The mode and scope of a layer entry (R92). -/
inductive LayerMode where
  | pinned | auto
  deriving DecidableEq, Repr

/-- The scope of a layer entry (R92). -/
inductive LayerScope where
  | localScope | reduced
  deriving DecidableEq, Repr

/-- A layer entry (R92) with its reduced totals (R346). -/
structure Layer where
  g : Int
  mode : LayerMode
  slot : Option Nat
  scope : LayerScope
  clean : Nat
  totElements : Nat
  totSaturations : Nat
  totUnderflows : Nat
  totNonfinite : Nat
  deriving DecidableEq, Repr

/-- The unbound entry to which a layer resets (R92). -/
def Layer.unbound : Layer := ⟨0, .pinned, none, .localScope, 0, 0, 0, 0, 0⟩

/-- A placement object that is set (R217, R218): its table holds, for each expert, the global slots of its replicas. -/
structure PlaceObj where
  members : List Nat
  src : Nat
  e : Nat
  slots : Nat
  pmode : Nat
  period : Nat
  mirror : Nat
  slotBase : Nat
  slotStride : Nat
  slotBytes : Nat
  table : List (List Nat)
  gen : Nat
  steps : Nat
  loads : List Nat
  deriving DecidableEq, Repr

/-- What a packet changes at step 1 of R40 beyond memory, watch slots and shape slots. -/
inductive Effect where
  | gangForm (gang : Nat) (members : List Nat)
  | gangDissolve (gang : Nat)
  | emulate (ring : Nat) (on : Bool)
  | layerSet (layer : Nat) (g : Option Int) (mode : LayerMode) (slot : Nat) (scope : LayerScope)
  | layerUnbind (layer : Nat)
  | retireArray (array : Nat)
  | retireSlice (slice : Nat)
  | reinstateArray (array : Nat)
  | reinstateSlice (slice : Nat)
  | versionUp (entry : Nat)
  | versionSet (entry ver : Nat)
  | layerPolicy (layer : Nat)
  | objSet (obj : Nat) (o : PlaceObj)
  | objUnset (obj : Nat)
  | objLoads (obj : Nat) (adds : List Nat)
  | objMirror (obj : Nat)
  | objStep (obj : Nat)
  | objRevise (obj : Nat) (table : List (List Nat))
  | unstage (opcode obj gen xtag : Nat)
  | epochSet (epoch : Nat) (members : List Nat) (join : Bool)
  | poolSize (item value : Nat)
  | pstate (value : Nat)
  | layerTotals (layer elements saturations underflows nonfinite : Nat)
  deriving DecidableEq, Repr

/-- What a packet has produced when its work ends: every status code that applies (R48), the clamps made while it ran,
DETAIL (Table 2.8a), the two counts, and all that step 1 of R40 makes visible. -/
structure Result where
  codes : List Nat
  clamps : List Nat
  opflags : Nat
  field : Nat
  count0 : Nat
  count1 : Nat
  watch : List WatchDelta
  slots : List (Nat × Nat)
  late : List Write
  clipped : Nat
  ternInvalid : Nat
  effects : List Effect
  deriving DecidableEq, Repr

/-- The result of a packet that has produced nothing yet. -/
def Result.empty : Result := ⟨[], [], 0, 0xFF, 0, 0, [], [], [], 0, 0, []⟩

/-- What stands of the result of a packet that fails once it has written: the counts of its written elements (R88). -/
def Result.kept (r : Result) : Result := { Result.empty with watch := r.watch, clipped := r.clipped, ternInvalid := r.ternInvalid }

/-- A READY a packet holds (R331): the sender's rank, the two arguments, and the two further quadwords that ALLTOALL's READY
carries (R349). -/
structure ReadyMark where
  rank : Nat
  arg0 : Nat
  arg1 : Nat
  arg2 : Nat
  arg3 : Nat
  deriving DecidableEq, Repr

/-- The progress of a remote packet (R327, R331): its group as keys (R328), its own rank, the group hash, the landing
area with the bytes that have landed, the READYs, DONEs and ARRIVEs it holds by rank and round, the transfers it holds ready for
each rank by their offset in the landing area, the ranks and rounds it has sent to, the WRITEs not yet acknowledged (rank, message,
port), the ranks it has given up, and its round or unit. -/
structure Remote where
  keys : List Nat
  rank : Nat
  ghash : Nat
  landing : Nat
  landingLen : Nat
  landed : Tbl Byte
  landPoison : List Nat
  ready : List ReadyMark
  done : List (Nat × Nat)
  arrive : List (Nat × Nat)
  staged : List (Nat × Write)
  sentTo : List (Nat × Nat)
  doneTo : List (Nat × Nat)
  unacked : List (Nat × Nat × Nat)
  round : Nat
  vec : List Int
  finishedUnits : List Nat
  received : Nat
  sent : Nat
  restarts : Nat
  deriving DecidableEq, Repr

/-- Why an issued packet holds before its parameter snapshot (the list of R34). -/
inductive Hold where
  | gangChange
  | retiring (array : Nat)
  | versionQueue (entry : Nat)
  | entryBusy (entry : Nat)
  | placement (obj : Nat)
  | allgather
  | staging
  | generation (gen : Nat)
  | rebuild
  | poolResize
  deriving DecidableEq, Repr

/-- Where an issued packet stands: held before its snapshot, waiting for pool space (R255), waiting for its turn or for
references (R206, R212, R404), ready to run, running (its work has begun and not ended), pending (R422), finished and
waiting for the actions of R40, or past step 1 of R40 with its record and signal held by a full completion queue (R28). -/
inductive Phase where
  | held (h : Hold)
  | poolWait
  | turnWait
  | refWait
  | ready
  | running
  | pending
  | finished
  | recordHeld
  deriving DecidableEq, Repr

/-- The header fields of a packet (Table 2.3) that its execution and completion use. -/
structure Header where
  opcode : Nat
  flags : Nat
  seq : Nat
  tag : Nat
  paramLen : Nat
  ctx : Nat
  wait0Ctr : Nat
  wait1Ctr : Nat
  sigCtr : Nat
  wait0Val : Nat
  wait1Val : Nat
  sigInc : Nat
  paramPtr : Nat
  deriving DecidableEq, Repr

/-- The tiers of R15 in which the firmware places a working buffer. -/
inductive Tier where
  | scratchpad | hbm | sump
  deriving DecidableEq, Repr

/-- A packet that has issued and not completed (R34). `inlineBad` holds how its inline area read, poison first (R36). -/
structure Packet where
  ring : Nat
  idx : Nat
  cls : StreamClass
  hdr : Header
  inlineArea : List Byte
  inlineBad : List BadRead
  phase : Phase
  snap : Option Snap
  clamps : List Nat
  refs : List VRef
  pool : List (Tier × Nat)
  combine : List CombineArea
  remote : Option Remote
  work : List Int
  res : Result
  aborted : Bool
  deriving DecidableEq, Repr

/-- The binding of a ring (R28, R29). -/
structure Binding where
  cls : StreamClass
  ringLog2 : Nat
  cqLog2 : Nat
  haltOnError : Bool
  quota : Bool
  waitLimit : Nat
  base : Nat
  cqBase : Nat
  quotaGrants : Nat
  deriving DecidableEq, Repr

/-- A ring slot after its fetch, waiting at the ring head (R34). -/
structure Fetched where
  bytes : List Byte
  inlineBad : List BadRead
  deriving DecidableEq, Repr

/-- A ring: its binding, its four indexes (R25), whether it has stopped fetching until the next doorbell (R27, R40),
its C3 mode (R97), the slot fetched at its head, and its arbiter input (R293). -/
structure Ring where
  binding : Option Binding
  head : Nat
  tail : Nat
  cqTail : Nat
  cqHead : Nat
  stopped : Bool
  c3 : Bool
  fetched : Option Fetched
  wait : Nat
  granted : Nat
  masked : Bool
  deriving DecidableEq, Repr

/-- An unbound ring (R30), with C3 mode off. -/
def Ring.unbound : Ring := ⟨none, 0, 0, 0, 0, false, false, none, 0, 0, false⟩

/-- A watch slot: six counters with their overflow flags (R87, R89), and STATE (Table 4.4); `gSet` tells that a g has been
recorded since the slot was last cleared (R94). -/
structure WatchSlot where
  elements : Nat
  zeros : Nat
  saturations : Nat
  underflows : Nat
  nonfinite : Nat
  losses : Nat
  overflow : List Bool
  layer : Nat
  gLast : Int
  gMixed : Bool
  grad : Bool
  gSet : Bool
  deriving DecidableEq, Repr

/-- A watch slot at reset (R89, Table 4.4). -/
def WatchSlot.zero : WatchSlot :=
  ⟨0, 0, 0, 0, 0, 0, [false, false, false, false, false, false], 0xFFFF, 0, false, false, false⟩

/-- A version entry (R199, Table 8.7) with its queues by context (R202) and the UPDATEs and MASKEDITs queued on it by
ring and slot index (R206). -/
structure VersionEntry where
  pri0 : Nat
  alt0 : Nat
  len0 : Nat
  pri1 : Nat
  alt1 : Nat
  len1 : Nat
  ver : Nat
  refCur : Nat
  refOld : Nat
  mismatch : Nat
  valid : Bool
  queues : Tbl (List Nat)
  turns : List (Nat × Nat)
  deriving DecidableEq, Repr

/-- A version entry at reset. -/
def VersionEntry.zero : VersionEntry := ⟨0, 0, 0, 0, 0, 0, 0, 0, 0, 0, false, [], []⟩

/-- A record of the error log (Table 11.5). -/
structure LogRecord where
  seq : Nat
  event : Nat
  mem : Nat
  unit : Nat
  addr : Nat
  position : Nat
  count : Nat
  status : Nat
  ring : Nat
  stamp : Nat
  deriving DecidableEq, Repr

/-- A straggler entry (Table 14.6). -/
structure Straggler where
  endpoint : Nat
  history : Nat
  reported : Bool
  bins : List Nat
  maxUs : Nat
  deriving DecidableEq, Repr

/-- An entry of the early table (R331): a control message that matched no packet, with its time of arrival. -/
structure EarlyMsg where
  kind : Nat
  srcPart : Nat
  srcEp : Nat
  round : Nat
  opcode : Nat
  ctag : Nat
  srcRank : Nat
  ghash : Nat
  arg0 : Nat
  arg1 : Nat
  arg2 : Nat
  arg3 : Nat
  time : Nat
  deriving DecidableEq, Repr

/-- Bytes that travel in an exchange, with the 64 B pieces of them that are poisoned (R273). -/
structure Payload where
  bytes : List Byte
  bad : List Nat
  deriving DecidableEq, Repr

/-- A piece of a header, row, count or other message of an exchange that arrived (R232, R226, R234, R218, R243): the exchange's
opcode, object, generation, tag and wave, the sender's source index, what the message is, the slot and position it names, and the
piece's place in the whole. -/
structure ExchangeMsg where
  opcode : Nat
  obj : Nat
  gen : Nat
  xtag : Nat
  wave : Nat
  src : Nat
  what : Nat
  slot : Nat
  pos : Nat
  off : Nat
  total : Nat
  data : Payload
  deriving DecidableEq, Repr

/-- A row of a later wave in staging (R233, R240), by its exchange and the number of its record. -/
structure StagedRow where
  opcode : Nat
  obj : Nat
  gen : Nat
  xtag : Nat
  record : Nat
  row : Payload
  deriving DecidableEq, Repr

/-- The sump pool room that an exchange's staging keeps once its wave 0 has completed (R233, R255). -/
structure StagedRoom where
  opcode : Nat
  obj : Nat
  gen : Nat
  xtag : Nat
  bytes : Nat
  deriving DecidableEq, Repr

/-- An extent of a generation (R397, R398), with its bytes where they are not zero and its poisoned units of 4 MiB. The bytes of a
SCHEDULE extent hold its schedule (R399). -/
structure Extent where
  etag : Nat
  kind : Nat
  void : Bool
  entry : Option Nat
  src : Nat
  len : Nat
  ver : Nat
  data : Tbl Byte
  poisonUnits : List Nat
  writing : Bool
  deriving DecidableEq, Repr

/-- The states of a generation (Table 17.2). -/
inductive GenState where
  | free | opened | sealed | committed | filling
  deriving DecidableEq, Repr

/-- A catalogue entry with its stored units (R394–R401): parity and rebuilt units by unit number, sparse by byte, with
whether they are poisoned. -/
structure Generation where
  state : GenState
  gen : Nat
  noParity : Bool
  poisoned : Bool
  g : Nat
  rank : Nat
  ghash : Nat
  stripes : Nat
  units : Nat
  sealedWrites : Bool
  extents : List Extent
  manifest : List Byte
  parity : List (Nat × Tbl Byte × Bool)
  rebuilt : List (Nat × Tbl Byte × Bool)
  deriving DecidableEq, Repr

/-- A FREE catalogue entry (R394). -/
def Generation.free : Generation := ⟨.free, 0, false, false, 0, 0, 0, 0, 0, false, [], [], [], []⟩

/-- An outbound bounce record that waits for room (R437, Table 19.7); `cq` names the ring whose completion head follows it. -/
structure BounceOut where
  kind : Nat
  addr : Nat
  ring : Nat
  tag : Nat
  data : List Byte
  cq : Option Nat
  deriving DecidableEq, Repr

/-- A bounce queue (R434–R438), with the rings that its TAIL records have named and the outbound records that wait for room. -/
structure BounceQueue where
  bound : Bool
  ring : Nat
  log2 : Nat
  inBus : Nat
  outBus : Nat
  inProd : Nat
  inCons : Nat
  outProd : Nat
  outCons : Nat
  inSeq : Nat
  outSeq : Nat
  stopped : Bool
  named : List Nat
  waiting : List BounceOut
  deriving DecidableEq, Repr

/-- A bounce queue that has never been bound. -/
def BounceQueue.zero : BounceQueue := ⟨false, 0, 0, 0, 0, 0, 0, 0, 0, 0, 0, false, [], []⟩

/-- The host-bus keys of a partition (R428, R429): the pending ML-KEM pair and the accepted keys. -/
structure HostKeys where
  pendingEk : Option (List Byte)
  pendingDk : Option (List Byte)
  acceptedEk : Option (List Byte)
  keyIn : List Byte
  keyOut : List Byte
  salt : Nat
  keysSet : Bool
  deriving DecidableEq, Repr

/-- No host keys. -/
def HostKeys.none : HostKeys := ⟨Option.none, Option.none, Option.none, [], [], 0, false⟩

/-- A PARTITION_SET that is pending (R422). -/
structure PendingLayout where
  ring : Nat
  idx : Nat
  tag : Nat
  layout : Nat
  conf : Nat
  ptag : Nat
  deriving DecidableEq, Repr

/-- The states of a partition's power (R459, R460): active, an entry in progress towards QUIESCE or STANDBY, reached,
and a return from STANDBY in progress (R461). BENCH-IDLE is read from the gated benches. -/
inductive PState where
  | active
  | entering (target : Nat)
  | quiesce
  | standby
  | waking
  deriving DecidableEq, Repr

/-- What a stream of TS_DEMUX keeps beside the 512 B of its context (R357, R358): the context's address, the sections in part by PID, and the bytes of
the open audio PES packet with whether it is formed from poison. -/
structure DemuxTail where
  area : Nat
  sections : List (Nat × List Byte)
  audio : List Byte × Bool
  deriving DecidableEq, Repr

/-- All that a partition holds, kept at the number of its lowest quarter (R8, R14). -/
structure Part where
  confidential : Bool
  ready : Bool
  pstate : PState
  rings : Tbl Ring
  packets : List Packet
  counters : Tbl Nat
  shapes : Tbl (Nat × Nat)
  watch : Tbl WatchSlot
  layers : Tbl Layer
  gangs : Tbl (List Nat)
  versions : Tbl VersionEntry
  objects : Tbl (Option PlaceObj)
  exchange : List ExchangeMsg
  staging : List StagedRow
  /-- the pool room of staging that outlives its packet (R233) -/
  stageRoom : List StagedRoom
  /-- the rows of exchanges dropped by Table 9.8; no command reads the count -/
  rowDrops : Nat
  /-- what streams of TS_DEMUX keep beside their contexts (R357) -/
  demuxes : List DemuxTail
  window : Nat
  progress : List (Resource × Nat × Nat)
  /-- the banks spilled at revocations, by array (R110) -/
  spilled : List (Nat × AccBank)
  ternInvalid : Nat
  clips : Nat
  sliceReserve : Nat
  hbmPool : Nat
  sumpPool : Nat
  spillHbm : Nat
  spillSump : Nat
  poolWaits : Nat
  epoch : Nat
  members : List Nat
  quarantined : Bool
  early : List EarlyMsg
  hbTime : Nat
  collLimit : Nat
  stragUs : Nat
  staleDrops : Nat
  lagDrops : Nat
  earlyDrops : Nat
  unsetDrops : Nat
  lateHist : Tbl Nat
  stragglers : List Straggler
  heartbeats : Tbl Nat
  /-- the endpoints known as lost (R338, R339) -/
  lost : List Nat
  staleSent : Tbl Nat
  routeMasks : Tbl Nat
  aperture : Option Nat
  pstateReq : Nat
  clockReq : Nat
  benchIdleUs : Nat
  log : List LogRecord
  logSeq : Nat
  logLost : Nat
  errTotals : Tbl Nat
  catalogue : List Generation
  nonce : List Byte
  reportCounter : Nat
  host : HostKeys
  bounce : Tbl BounceQueue
  pendingLayout : Option PendingLayout
  deriving DecidableEq, Repr

/-- A register window's own registers (chapter 16): quarter windows 0–3 and the device window 4. `widePending` tells that a selection awaits
its capture (R383). -/
structure Window where
  scratch : Word
  scratchS : Word
  summary : BitVec 10
  dbReject : Word
  seqStop : Word
  haltStop : Word
  badCount : Nat
  badWrite : Bool
  badPath : Nat
  badOffset : Nat
  alertEn : BitVec 10
  wideSel : Word
  wideTag : Nat
  wideLen : Nat
  wideBad : Bool
  wideValid : Bool
  widePending : Bool
  wideData : List Word
  bootRingBase : Word
  bootCqBase : Word
  bootSizes : BitVec 16
  ringDefault : Bool
  deriving DecidableEq, Repr

/-- The settings and repair state that a quarter keeps (R277, R280). -/
structure ScrubSetting where
  period : Nat
  repair : Nat
  ceThresh : Nat
  deriving DecidableEq, Repr

/-- A scrubber: passes completed since the last COLD or MODULE reset, and the granules read in the present pass
(R275, R278). -/
structure Scrubber where
  mem : MemKind
  unit : Nat
  passes : Nat
  granule : Nat
  deriving DecidableEq, Repr

/-- The corrected-error tracker of one controller (R279), oldest entry first. -/
structure Tracker where
  mem : MemKind
  unit : Nat
  entries : List (Nat × Nat)
  deriving DecidableEq, Repr

/-- A remap entry (R280, R282): the failing granule, whether it persists, for a sump entry the DIMM's serial, and what the granule's own
cells went on holding when its contents moved: their bytes by offset and their poisoned units. -/
structure Remap where
  mem : MemKind
  unit : Nat
  granule : Nat
  persist : Bool
  serial : Nat
  own : Tbl Byte
  ownPoison : List Nat
  deriving DecidableEq, Repr

/-- A symbol in error in a stored codeword (R268): the codeword's device address, the symbol, the error pattern, and
whether the fault is stuck in the cells or gone when the codeword is written. -/
structure SymFault where
  addr : Nat
  symbol : Nat
  pattern : Nat
  stuck : Bool
  deriving DecidableEq, Repr

/-- An entry of a merge buffer (R271): its granule and its byte-valid mask. The valid bytes stand in `State.mem`, which shows what a read
sees; `under` holds by offset the bytes that the granule stores beneath them. -/
structure MergeEntry where
  granule : Nat
  mask : BitVec 64
  under : Tbl Byte
  deriving DecidableEq, Repr

/-- A flit in a dual-clock queue, with the receiving edges since it was written (R302). -/
structure FabEntry where
  flit : FabricFlit
  edges : Nat
  deriving DecidableEq, Repr

/-- A fabric link (R292–R294, R298, R299, R301, R302). Its receiving end: the next flit expected, whether a replay is awaited, the retries of the
present flit, the retries of a window of 2,048 NCLK cycles with the MCLK count at which it began, and the failed mark. Its sending end: the number
of the next flit, the replay buffer, the entries used of each channel, and the credits on their way back with the sending edges since their reads.
Then the dual-clock queue, the flits in the buffer behind it, the waits of the router output's arbiter that feeds the link, those of the crossing
port's arbiter or of the memory controllers behind it, and the accesses done of each message that these serve. -/
structure FabLink where
  link : FabricLink
  expect : Nat
  awaiting : Bool
  inRow : Nat
  inWindow : Nat
  windowAt : Nat
  failed : Bool
  next : Nat
  sent : List FabricFlit
  taken : List Nat
  back : List (Nat × Nat)
  queued : List FabEntry
  held : List FabricFlit
  outWaits : Tbl Nat
  waits : Tbl Nat
  served : List (Nat × Nat)
  deriving DecidableEq, Repr

/-- The states of a Lanug port (Table 16.7). -/
inductive PortState where
  | down | training | up | retraining
  deriving DecidableEq, Repr

/-- The keys of an encrypted port (R319, R430), one per direction, and the extended sequence numbers. -/
structure PortKeys where
  keyTx : List Byte
  keyRx : List Byte
  salt : Nat
  txExt : Nat
  rxExt : Nat
  deriving DecidableEq, Repr

/-- A link-event counter: its count, the slow copy, and what a read subtracts at the next handshake (R387). -/
structure EventCount where
  count : Nat
  copy : Nat
  subtract : Nat
  deriving DecidableEq, Repr

/-- A message that waits at a port: its channel, the packet whose message it is, whether some of it has left, and its bytes that have not
(R309). -/
structure TxMsg where
  vc : Nat
  owner : Option PacketRef
  begun : Bool
  bytes : List Byte
  deriving DecidableEq, Repr

/-- A DATA flit in a replay buffer: its channel, the packets whose messages it carries, and its payload (R309, R313). -/
structure TxFlit where
  vc : Nat
  owners : List PacketRef
  payload : List Byte
  deriving DecidableEq, Repr

/-- A Lanug port L0–L15 or X0–X3 (R307–R316). `switching` holds the mode that a KEY_EXCHANGE has chosen until the port has retrained into
it (R430). -/
structure Port where
  state : PortState
  width : Nat
  retired : List Nat
  faulty : List Nat
  rxLast : Nat
  rxAny : Bool
  discarding : Bool
  txNext : Nat
  replay : List (Nat × TxFlit × List Byte)
  failSeq : Nat
  failRun : Nat
  replayTimes : List Nat
  tagFailing : Bool
  credits : List Nat
  owed : List Nat
  waits : List Nat
  /-- by channel, the payloads that have not left for the fabric -/
  rxStream : List (List (List Byte))
  /-- a flit has been accepted that no flit sent since acknowledges -/
  ackDue : Bool
  txQueue : List TxMsg
  keys : Option PortKeys
  switching : Option (Option PortKeys)
  downs : EventCount
  retrains : EventCount
  replays : EventCount
  msgDrops : EventCount
  tagFails : EventCount
  fec : Nat
  stateCopy : Word
  deriving DecidableEq, Repr

/-- A half: its ACLK and set point (R451, R452), throttle steps and reasons (R453), and the µs since its last step. -/
structure Half where
  aclk : Nat
  setPoint : Nat
  steps : Nat
  why : BitVec 3
  sinceStepUs : Nat
  deriving DecidableEq, Repr

/-- The board configuration (Table 19.9) in the form the module uses it. -/
structure BoardConfig where
  layout : Nat
  conf : Nat
  xLanug : Bool
  endpointBase : Nat
  group : List Nat
  bridgeEp : Option Nat
  qualified : Option (List (Nat × List Byte))
  measure : List Byte
  deriving DecidableEq, Repr

/-- A request of the bridge that awaits its response (R322, R323): the message, the function, the member, the port it left by, for a
read the bytes asked for, and the MCLK count at which it left. -/
structure BridgeReq where
  msgId : Nat
  fn : Nat
  member : Nat
  port : Nat
  isWrite : Bool
  aperture : Bool
  bytes : Nat
  time : Nat
  deriving DecidableEq, Repr

/-- A bridge access held until the earlier aperture writes of its function to the member are acknowledged (R323), with the MCLK count at which
it came, from which a BAR2 read's time limit runs (R322), and a number that names it. -/
structure BridgeHeld where
  id : Nat
  time : Nat
  fn : Nat
  member : Nat
  msg : Msg
  deriving DecidableEq, Repr

/-- What the module puts out: read data on a register path, host completions, MSI-X messages, host-memory writes of bounce
records, Lanug messages that leave, replies on SMBus and the UART, and replay requests of the fabric. -/
inductive Out where
  | readData (path : Path) (bytes : List Byte)
  | readPoisoned (path : Path) (bytes : List Byte) (map : Nat)
  | completerAbort (fn : Nat)
  | msix (fn vector : Nat) (addr : Word) (data : BitVec 32)
  | hostWrite (part : Nat) (bus : Nat) (bytes : List Byte)
  | hostFetch (part : Nat) (queue first last : Nat)
  | lanug (port : Nat) (vc : Nat) (m : Msg)
  | flit (port : Nat) (bytes : List Byte)
  | smbusReply (bytes : List Byte)
  | smbusNack
  | uart (frame : List Byte)
  | fabricReplay (link : FabricLink) (fromSeq : Nat)
  | requestFailed (part : Nat) (msgId : Nat) (status : Nat)
  | fabricFailed (msgId : Nat)
  | fabricMessage (dst : Attach) (msgId : Nat) (poison : Bool) (payload : List Byte)
  deriving DecidableEq, Repr

/-- The configuration-flash write of a J4 agent (R472): the staging area and STATE. -/
structure CfgWrite where
  staging : List Byte
  state : Nat
  deriving DecidableEq, Repr

/-- A layout change in progress (R423, R424): the new layout and flags, the quarters it reassigns, and for each new
partition the tag its record 0 carries. -/
structure LayoutChange where
  layout : Nat
  conf : Nat
  quarters : List Nat
  tags : List (Nat × Nat)
  deriving DecidableEq, Repr

/-- The state of the module. -/
structure State where
  /-- the commands that wait, first in, first out -/
  pending : List Instr
  /-- quarters per partition: 4, 2 or 1 (R8) -/
  quartersPer : Nat
  /-- the partitions by the number of their lowest quarter (R8) -/
  parts : List Part
  /-- the register windows, quarters 0–3 and the device window (R372) -/
  windows : List Window
  /-- the visible bytes of device memory that are not zero (R245) -/
  mem : List Host.Cell
  /-- the poisoned units: address of each poisoned codeword, or granule in the sump (R273) -/
  poison : List Nat
  faults : List SymFault
  merge : List MergeEntry
  scrubSettings : List (List ScrubSetting)
  scrubbers : List Scrubber
  trackers : List Tracker
  remaps : List Remap
  fuseScheduled : List (MemKind × Nat × Nat)
  /-- the fuse repairs made (R283): by unit in the package memories, and in the sump, where the DIMM holds them, by its serial number -/
  fuseDone : List (MemKind × Nat × Nat)
  /-- the spares that the fuse map names (R12), those in reserve now, and the retired arrays and slices (R419) -/
  spares : List Nat
  reserve : List Nat
  retired : List Nat
  retiredSlices : List Nat
  busy : Tbl Nat
  stall : Tbl Nat
  /-- the accumulator banks of each array, at most two, the one that accumulates first (R109), and the riddle of each (R171), kept
  through every reset but COLD (log entry 110) -/
  banks : Tbl (List AccBank)
  riddles : Tbl (List RiddleEntry)
  residues : Tbl Nat
  /-- arrays whose second mismatch has come and whose retirement awaits the packets on them (R410) -/
  retiring : List Nat
  /-- stuck array faults that the residue check meets (R103), by array -/
  faultyArrays : List Nat
  gatedBenches : List Nat
  stacksOff : List Nat
  dimms : List (Option Dimm)
  channels : List Nat
  chanReason : List (Nat × Nat)
  sumpRate : Nat
  sumpCapacity : Nat
  fabric : List FabLink
  crossingsRetired : List Nat
  halvesDown : List Nat
  ports : List Port
  clocksLost : List Nat
  halves : List Half
  sensors : Sensors
  slowPower : List Word
  /-- throttle ticks in a row above the power limit with both halves at 300 MHz (R454) -/
  overTicks : Nat
  mclk : Nat
  vin : Bool
  pwrEn : Bool
  pwrGood : Bool
  aonUp : Bool
  mainUp : Bool
  perstLow : Bool
  bootStage : Nat
  bootHeld : Bool
  ready : Bool
  bootMs : Nat
  boot : Option BootEnv
  /-- for a boot that a MODULE reset runs, the quarters that a change it stopped had reassigned (R456, R458) -/
  bootModule : Option (List Nat)
  configDefault : Bool
  board : BoardConfig
  flashImage : List Byte
  cfg : CfgWrite
  geoPins : Nat
  geoId : Nat
  smbusTarget : Option (Nat × Nat)
  fatal : Bool
  tripped : Bool
  converterFault : Bool
  debugUnlocked : Bool
  jtagOpen : Bool
  challenge : Option (List Byte)
  lastRefused : Option Nat
  refclk : Bool
  pcieSpeed : Nat
  pcieWidth : Nat
  msixTable : Tbl (Word × BitVec 32 × Bool)
  msixPending : List (Nat × Nat)
  bridgeReqs : List BridgeReq
  bridgeHeld : List BridgeHeld
  nextMsgId : Nat
  change : Option LayoutChange
  changeStart : Nat
  serial : Nat
  stepping : Nat
  romMeasure : List Byte
  romDigest : List Byte
  boardKeyDigest : List Byte
  /-- the Kwadar root's identity key pair and certificate (R426), and the digests that its ROM holds of Thrumua's root key and debug key -/
  identityKey : List Byte
  identityPub : List Byte
  certificate : List Byte
  rootKeyDigest : List Byte
  debugKeyDigest : List Byte
  /-- the model's own counter of free values drawn (Config.freeByte), not a register of the module -/
  draws : Nat
  out : List Out
  deriving DecidableEq, Repr

/-- Why a step can stop with a fault. The block has no such stop: an access that the manual calls outside the partition's
memory ends its packet with ERR_PARTITION. -/
inductive Fault where
  /-- raised by nobody: kept so that the type of stops is not empty (safe) -/
  | unreachable
  deriving DecidableEq, Repr

/-- Why a step can refuse a command. -/
inductive Refusal where
  /-- raised by the arm of exec of a command that has no meaning yet (safe) -/
  | notModelled (mnemonic : String)
  deriving DecidableEq, Repr

/-- A register window at reset (Tables 16.2–16.8): quarter `q`, or 4 for the device window. -/
def Window.reset (q : Nat) : Window :=
  { scratch := 0, scratchS := 0, summary := 0, dbReject := 0, seqStop := 0, haltStop := 0, badCount := 0,
    badWrite := false, badPath := 0, badOffset := 0, alertEn := 0, wideSel := 0, wideTag := 0, wideLen := 0,
    wideBad := false, wideValid := false, widePending := false, wideData := [0, 0, 0, 0],
    bootRingBase := BitVec.ofNat 64 (q * 0x1800000000), bootCqBase := BitVec.ofNat 64 (q * 0x1800000000 + 0x100000),
    bootSizes := 0x0808, ringDefault := false }

/-- A partition at reset with no ring bound (R39, R89, R253, R337, Table 20.5). -/
def Part.reset : Part :=
  { confidential := false, ready := false, pstate := .active, rings := [], packets := [], counters := [], shapes := [],
    watch := [], layers := [], gangs := [], versions := [], objects := [], exchange := [], staging := [], stageRoom := [], rowDrops := 0, demuxes := [], window := 0,
    progress := [], spilled := [], ternInvalid := 0, clips := 0, sliceReserve := 0x200000, hbmPool := 8 * 2 ^ 30,
    sumpPool := 64 * 2 ^ 30, spillHbm := 0, spillSump := 0, poolWaits := 0, epoch := 0, members := [],
    quarantined := false, early := [], hbTime := 200, collLimit := 60000, stragUs := 1000, staleDrops := 0, lagDrops := 0,
    earlyDrops := 0, unsetDrops := 0, lateHist := [], stragglers := [], heartbeats := [], lost := [], staleSent := [],
    routeMasks := [], aperture := none, pstateReq := 0, clockReq := 0x03AC03AC, benchIdleUs := 100, log := [], logSeq := 0,
    logLost := 0, errTotals := [], catalogue := List.replicate 16 .free, nonce := List.replicate 32 0,
    reportCounter := 0, host := .none, bounce := [], pendingLayout := none }

/-- The bootstrap ring of the partition whose lowest quarter is `p`, at the default registers (R30, R389). -/
def Ring.bootstrap (p : Nat) : Ring :=
  { Ring.unbound with
    binding := some { cls := .S, ringLog2 := 8, cqLog2 := 8, haltOnError := true, quota := false, waitLimit := 64,
                      base := p * 0x1800000000, cqBase := p * 0x1800000000 + 0x100000, quotaGrants := 1 } }

/-- The scrub settings of a quarter at their defaults, in the order scratchpad, HBM, sump (R277). -/
def ScrubSetting.defaults : List ScrubSetting := [⟨10, 2, 4⟩, ⟨14400, 2, 4⟩, ⟨86400, 2, 4⟩]

/-- A link-event counter at zero. -/
def EventCount.zero : EventCount := ⟨0, 0, 0⟩

/-- A Lanug port at the end of boot: up at width 4 with every lane, or down (an X port in PCIe mode). -/
def Port.reset (up : Bool) : Port :=
  { state := if up then .up else .down, width := if up then 4 else 0, retired := [], faulty := [], rxLast := 0, rxAny := false,
    discarding := false, txNext := 0, replay := [], failSeq := 0, failRun := 0, replayTimes := [],
    tagFailing := false, credits := [64, 64, 384, 8], owed := [0, 0, 0, 0], waits := [0, 0, 0, 0], rxStream := [[], [], [], []], ackDue := false, txQueue := [],
    keys := none,
    switching := none, downs := .zero, retrains := .zero, replays := .zero, msgDrops := .zero, tagFails := .zero,
    fec := 0, stateCopy := if up then 0xF4C else 0x8 }

/-- The default configuration (R441) of a module whose endpoint identifier is `ep`. -/
def BoardConfig.default (ep : Nat) : BoardConfig :=
  { layout := 0, conf := 0, xLanug := false, endpointBase := 0, group := [ep], bridgeEp := some ep, qualified := none,
    measure := List.replicate 32 0 }

/-- The DIMM with which the model fills a socket of S0–S7 at reset, its serial number the socket's (DESIGN CHOICE, log entry 3). -/
def Dimm.standard (socket : Nat) : Dimm :=
  { manufacturer := 0, partNumber := List.replicate 30 0, serial := socket, sizeGiB := 256, isMrdimm := true, x4 := true,
    ratedMts := 8800, trainsMts := 8800 }

/-- What the sensors read before the first throttle tick (DESIGN CHOICE, log entry 3). -/
def Sensors.initial : Sensors := ⟨0, 0, 60000, 320, 320, 320, 320⟩

/-- The spares of every quarter (DESIGN CHOICE, log entry 3): the last four arrays of each. -/
def State.resetSpares : List Nat :=
  [60, 61, 62, 63, 124, 125, 126, 127, 188, 189, 190, 191, 252, 253, 254, 255]

/-- The module right after a COLD reset has ended at READY (R455), with the default configuration (R441): one partition
with its bootstrap ring bound (R30, R389), memory zero, every setting at its reset value. -/
def State.reset : State :=
  { pending := []
    quartersPer := 4
    parts := [{ Part.reset with ready := true, rings := [(255, Ring.bootstrap 0)] }, Part.reset, Part.reset, Part.reset]
    windows := [Window.reset 0, Window.reset 1, Window.reset 2, Window.reset 3, Window.reset 4]
    mem := []
    poison := []
    faults := []
    merge := []
    scrubSettings := List.replicate 4 ScrubSetting.defaults
    scrubbers := []
    trackers := []
    remaps := []
    fuseScheduled := []
    fuseDone := []
    spares := State.resetSpares
    reserve := State.resetSpares
    retired := []
    retiredSlices := []
    busy := []
    stall := []
    banks := []
    riddles := []
    residues := []
    retiring := []
    faultyArrays := []
    gatedBenches := []
    stacksOff := []
    dimms := (List.range 8).map fun i => some (Dimm.standard i)
    channels := [0, 1, 2, 3, 4, 5, 6, 7]
    chanReason := []
    sumpRate := 8800
    sumpCapacity := 256
    fabric := []
    crossingsRetired := []
    halvesDown := []
    ports := List.replicate 16 (Port.reset true) ++ List.replicate 4 (Port.reset false)
    clocksLost := []
    halves := [⟨940, 940, 0, 0, 0⟩, ⟨940, 940, 0, 0, 0⟩]
    sensors := Sensors.initial
    slowPower := [0, 0, 0, 0, 0, 0]
    overTicks := 0
    mclk := 0
    vin := true
    pwrEn := true
    pwrGood := true
    aonUp := true
    mainUp := true
    perstLow := false
    bootStage := 7
    bootHeld := false
    ready := true
    bootMs := 0
    boot := none
    bootModule := none
    configDefault := true
    board := BoardConfig.default 0
    flashImage := []
    cfg := ⟨List.replicate 8192 0, 0⟩
    geoPins := 0
    geoId := 0
    smbusTarget := none
    fatal := false
    tripped := false
    converterFault := false
    debugUnlocked := false
    jtagOpen := false
    challenge := none
    lastRefused := none
    refclk := true
    pcieSpeed := 0
    pcieWidth := 0
    msixTable := []
    msixPending := []
    bridgeReqs := []
    bridgeHeld := []
    nextMsgId := 0
    change := none
    changeStart := 0
    serial := 0
    stepping := 1
    romMeasure := List.replicate 32 0
    romDigest := List.replicate 32 0
    boardKeyDigest := List.replicate 32 0
    identityKey := List.replicate 32 0
    identityPub := List.replicate 1312 0
    certificate := List.replicate 2420 0
    rootKeyDigest := List.replicate 32 0
    debugKeyDigest := List.replicate 32 0
    draws := 0
    out := [] }

end Sys2Proof.Machine
end

