-- ==== Sys2Proof/Machine/Ops.lean ====
section
/-! DEFINITION. The named operations over partitions, the address map, the error log, stored data with its codes and
poison, and the merge buffers. -/

namespace Sys2Proof.Machine

/-! Partitions and windows (R8, R14). -/

/-- The lowest quarter of the partition that holds quarter `q`. -/
def State.lowQ (s : State) (q : Nat) : Nat := q / s.quartersPer * s.quartersPer

/-- Whether `p` numbers a partition of the present layout (R8). -/
def State.isPart (s : State) (p : Nat) : Bool := decide (p < 4) && decide (s.lowQ p = p)

/-- The partition whose lowest quarter is `p`. -/
def State.part (s : State) (p : Nat) : Part := s.parts[p]?.getD Part.reset

/-- A change of one partition. -/
def State.modPart (s : State) (p : Nat) (f : Part → Part) : State := { s with parts := s.parts.modify p f }

/-- The partitions of the present layout. -/
def State.partList (s : State) : List Nat := (List.range 4).filter s.isPart

/-- The quarters of partition `p`. -/
def State.quarters (s : State) (p : Nat) : List Nat := (List.range s.quartersPer).map (p + ·)

/-- A ring of a partition; an unlisted ring is unbound (R30). -/
def Part.ring (pt : Part) (r : Nat) : Ring := Tbl.get Ring.unbound pt.rings r

/-- Every ring of a partition unbound; its C3 mode, which resets with the event counters, stays (R97). -/
def Part.unbindRings (pt : Part) : Part :=
  { pt with rings := (pt.rings.filter fun r => r.2.c3).map fun r => (r.1, { Ring.unbound with c3 := true }) }

/-- A partition with one ring changed. -/
def Part.modRing (pt : Part) (r : Nat) (f : Ring → Ring) : Part :=
  { pt with rings := Tbl.set Ring.unbound pt.rings r (f (pt.ring r)) }

/-- A change of one ring. -/
def State.modRing (s : State) (p r : Nat) (f : Ring → Ring) : State := s.modPart p (·.modRing r f)

/-- A register window; 4 is the device window. -/
def State.window (s : State) (w : Nat) : Window := s.windows[w]?.getD (Window.reset w)

/-- A change of one register window. -/
def State.modWindow (s : State) (w : Nat) (f : Window → Window) : State := { s with windows := s.windows.modify w f }

/-- SUMMARY with one bit set (Table 16.3). -/
def Window.setSummary (w : Window) (bit : Nat) : Window := { w with summary := w.summary ||| BitVec.ofNat 10 (2 ^ bit) }

/-- A SUMMARY bit set in every quarter window of a partition. -/
def State.setSummary (s : State) (p bit : Nat) : State :=
  (s.quarters p).foldl (fun s q => s.modWindow q (·.setSummary bit)) s

/-- A SUMMARY bit of the device window. -/
def State.setDeviceSummary (s : State) (bit : Nat) : State := s.modWindow 4 (·.setSummary bit)

/-- Something the module puts out. -/
def State.emit (s : State) (o : Out) : State := { s with out := s.out ++ [o] }

/-! The address map (R245–R251). -/

/-- 1 GiB. -/
def gib : Nat := 2 ^ 30

/-- The HBM of one quarter (R247). -/
def hbmQuarter : Nat := 96 * gib

/-- The sump window's base (Table 10.1). -/
def sumpBase : Nat := 2 ^ 40

/-- The sump window of one quarter (R247). -/
def sumpQuarter : Nat := 512 * gib

/-- The scratchpad's base (Table 10.1). -/
def scratchBase : Nat := 2 ^ 43

/-- The bytes of a slice (R250). -/
def sliceBytes : Nat := 0x300000

/-- The memory kind of a mapped address (Table 10.1). -/
def memKindOf (a : Nat) : Option MemKind :=
  if a < 4 * hbmQuarter then some .hbm
  else if sumpBase ≤ a ∧ a < sumpBase + 4 * sumpQuarter then some .sump
  else if scratchBase ≤ a ∧ a < scratchBase + 256 * sliceBytes then some .scratchpad
  else none

/-- The quarter whose range holds an address (R247, R250). -/
def quarterOfAddr (a : Nat) : Option Nat :=
  match memKindOf a with
  | some .hbm => some (a / hbmQuarter)
  | some .sump => some ((a - sumpBase) / sumpQuarter)
  | some .scratchpad => some ((a - scratchBase) / sliceBytes / 64)
  | none => none

/-- The partition whose ranges hold an address. -/
def State.ownerOf (s : State) (a : Nat) : Option Nat := (quarterOfAddr a).map s.lowQ

/-- The unit of an address and the byte within the unit (R248–R250): a slice, a stack or a channel. -/
def State.localOf (s : State) (a : Nat) : Option (MemKind × Nat × Nat) :=
  let interleaved := fun (k : MemKind) (off p : Nat) =>
    let g := off / 4096
    let n := 2 * s.quartersPer
    (k, 2 * p + g % n, g / n * 4096 + off % 4096)
  match memKindOf a, s.ownerOf a with
  | some .hbm, some p => some (interleaved .hbm (a - p * hbmQuarter) p)
  | some .sump, some p => some (interleaved .sump (a - sumpBase - p * sumpQuarter) p)
  | some .scratchpad, _ => some (.scratchpad, (a - scratchBase) / sliceBytes, (a - scratchBase) % sliceBytes)
  | _, _ => none

/-- The device address of a byte of a unit: the inverse of `localOf`. -/
def State.addrOf (s : State) (k : MemKind) (unit off : Nat) : Nat :=
  match k with
  | .scratchpad => scratchBase + unit * sliceBytes + off
  | _ =>
    let p := s.lowQ (unit / 2)
    let g := off / 4096 * (2 * s.quartersPer) + (unit - 2 * p)
    (if k = .hbm then p * hbmQuarter else sumpBase + p * sumpQuarter) + g * 4096 + off % 4096

/-- The code of a memory kind (Table 11.3). -/
def memCode : MemKind → Nat
  | .scratchpad => 0 | .hbm => 1 | .sump => 2

/-- The memory kind of a code. -/
def memOfCode : Nat → Option MemKind
  | 0 => some .scratchpad | 1 => some .hbm | 2 => some .sump | _ => none

/-- The quarter of a unit (Table 1.1). -/
def quarterOfUnit (k : MemKind) (unit : Nat) : Nat := if k = .scratchpad then unit / 64 else unit / 2

/-- The half of a unit. -/
def halfOfUnit (k : MemKind) (unit : Nat) : Nat := quarterOfUnit k unit / 2

/-- Whether a partition has a sump (R260). -/
def State.hasSump (s : State) (p : Nat) : Bool :=
  (List.range (2 * s.quartersPer)).all fun i => s.channels.contains (2 * p + i)

/-- The populated bytes of a partition's sump range (R249, R260). -/
def State.sumpPopulated (s : State) (p : Nat) : Nat :=
  if s.hasSump p then 2 * s.quartersPer * s.sumpCapacity * gib else 0

/-- Whether the bytes from `a` on lie in the partition's memory (R251). An empty interval is judged by its address. -/
def State.inMemory (s : State) (p a len : Nat) : Bool :=
  let q := s.quartersPer
  let pt := s.part p
  let e := a + max len 1
  let inside := fun (lo hi : Nat) => decide (lo ≤ a ∧ e ≤ hi)
  let hb := p * hbmQuarter
  let sb := sumpBase + p * sumpQuarter
  let sl := (a - scratchBase) / sliceBytes
  inside hb (hb + q * hbmQuarter - q * pt.hbmPool)
    || (s.hasSump p && inside sb (sb + s.sumpPopulated p - q * pt.sumpPool))
    || (decide (scratchBase ≤ a ∧ 64 * p ≤ sl ∧ sl < 64 * (p + q))
        && inside (scratchBase + sl * sliceBytes) (scratchBase + sl * sliceBytes + sliceBytes - pt.sliceReserve))

/-- Whether an address lies in the partition's HBM range, its populated sump or one of its slices, pools included (R281). -/
def State.inRange (s : State) (p a : Nat) : Bool :=
  let sb := sumpBase + p * sumpQuarter
  match memKindOf a with
  | some .sump => decide (s.ownerOf a = some p ∧ a < sb + s.sumpPopulated p)
  | some _ => decide (s.ownerOf a = some p)
  | none => false

/-- Whether a unit answers: powered, with its controller's clock running, not retired, and in a half that is up (R11, R252, R284,
R305, Table 12.6). -/
def State.unitUp (s : State) (k : MemKind) (unit : Nat) : Bool :=
  !s.halvesDown.contains (halfOfUnit k unit)
    && (match k with
        | .hbm => !s.stacksOff.contains unit && !s.clocksLost.contains (4 + unit)
        | .scratchpad => !s.retiredSlices.contains unit && !s.clocksLost.contains (unit / 128)
        | .sump => s.channels.contains unit && !s.clocksLost.contains (12 + unit))

/-- Whether the granule of an address can be reached. -/
def State.addrUp (s : State) (a : Nat) : Bool :=
  match s.localOf a with
  | some (k, u, _) => s.unitUp k u
  | none => false

/-- Whether every granule of an interval can be reached. With every unit up there is nothing to look at; else the 4 KiB
granules of one turn of the interleave, and every slice, are. -/
def State.reachable (s : State) (a len : Nat) : Bool :=
  if s.halvesDown.isEmpty && s.clocksLost.isEmpty && s.stacksOff.isEmpty && s.retiredSlices.isEmpty && decide (s.channels.length = 8) then true
  else
    let n := min (a % 4096 + len + 4095) (4096 * 8) / 4096
    let slices := if scratchBase ≤ a then ((a - scratchBase) % sliceBytes + len + sliceBytes - 1) / sliceBytes else 0
    (List.range n).all (fun i => s.addrUp (a + i * 4096)) && (List.range slices).all (fun i => s.addrUp (a + i * sliceBytes))

/-! The error log (R285). -/

/-- A log record with no packet, for an event of Table 18.3 (R414). -/
def mkEvent (ev unit position : Nat) : LogRecord := ⟨0, ev, 0xFF, unit, 0, position, 1, 0, 0xFFFF, 0⟩

/-- A partition's log with one more occurrence of an event (R285, R384). -/
def Part.append (pt : Part) (r : LogRecord) : Part :=
  let totals := Tbl.set 0 pt.errTotals r.event (satAdd (2 ^ 96 - 1) (Tbl.get 0 pt.errTotals r.event) 1)
  let same := fun (x : LogRecord) => x.event == 1 && x.mem == r.mem && x.unit == r.unit && x.addr == r.addr
  let old := pt.log.take (pt.log.length - 16)
  let new := pt.log.drop (pt.log.length - 16)
  if r.event == 1 && new.any same then
    { pt with errTotals := totals,
              log := old ++ new.map fun x => if same x then { x with count := satAdd 0xFFFFFFFF x.count 1 } else x }
  else
    let seq := pt.logSeq + 1
    let full := decide (1024 ≤ pt.log.length)
    { pt with errTotals := totals, logSeq := seq,
              log := (if full then pt.log.drop 1 else pt.log) ++ [{ r with seq := seq }],
              logLost := if full then pt.logLost + 1 else pt.logLost }

/-- A record appended to a partition's log, with its stamp, and the SUMMARY bits it sets (R285, Table 16.3). In the fatal state
nothing is appended (R412). -/
def State.log (s : State) (p : Nat) (r : LogRecord) : State :=
  if s.fatal then s
  else
    let before := (s.part p).logSeq
    let s1 := s.modPart p (·.append { r with stamp := s.mclk / 2 ^ 16 % 2 ^ 32 })
    if (s1.part p).logSeq = before then s1
    else
      let s2 := s1.setSummary p 4
      if r.event = 2 ∨ r.event = 4 then s2.setSummary p 5 else s2

/-- A record in every partition's log (R415). -/
def State.logAll (s : State) (r : LogRecord) : State := s.partList.foldl (fun s p => s.log p r) s

/-- A record in the log of the partition that owns a quarter (R415). -/
def State.logQuarter (s : State) (q : Nat) (r : LogRecord) : State := s.log (s.lowQ q) r

/-- A record of a memory event (Table 11.6): its unit by R248–R250 and the address of its codeword, or of its granule in the
sump and for repair events. -/
def State.memEvent (s : State) (ev a position status ring : Nat) : State :=
  match s.localOf a, s.ownerOf a with
  | some (k, u, _), some p =>
    let addr := if k = .sump ∨ 5 ≤ ev then a / 64 * 64 else a / 16 * 16
    s.log p ⟨0, ev, memCode k, u, addr, position, 1, status, ring, 0⟩
  | _, _ => s

/-! Stored data: visible bytes, poison and symbol faults (R268, R273). -/

/-- Whether an address lies in the sump window. -/
def inSump (a : Nat) : Bool := decide (sumpBase ≤ a ∧ a < sumpBase + 4 * sumpQuarter)

/-- The unit of poison: a codeword in the scratchpad and HBM, a granule in the sump (R273). -/
def poisonUnit (a : Nat) : Nat := if inSump a then a / 64 * 64 else a / 16 * 16

/-- The codeword of a byte: 16 B, or a beat of 4 B in the sump (R267). -/
def codewordOf (a : Nat) : Nat := if inSump a then a / 4 * 4 else a / 16 * 16

/-- The codewords that an interval touches. -/
def codewordsIn (a len : Nat) : List Nat :=
  let w := if inSump a then 4 else 16
  if len = 0 then [] else (List.range ((a % w + len + w - 1) / w)).map fun i => a / w * w + i * w

/-- The codewords of a granule. -/
def granuleCodewords (g : Nat) : List Nat := codewordsIn g 64

/-- The poison units that an interval touches. -/
def unitsIn (a len : Nat) : List Nat :=
  let w := if inSump a then 64 else 16
  if len = 0 then [] else (List.range ((a % w + len + w - 1) / w)).map fun i => a / w * w + i * w

/-- Whether the granule of an address is remapped (R280). -/
def State.isRemapped (s : State) (a : Nat) : Bool :=
  match s.localOf a with
  | some (k, u, off) => s.remaps.any fun r => r.mem == k && r.unit == u && r.granule == off / 64
  | none => false

/-- The symbols in error of a codeword, with their patterns (R268): none in a remapped granule. -/
def State.symbolsAt (s : State) (cw : Nat) : List (Nat × Nat) :=
  let fs := s.faults.filter fun f => f.addr == cw
  if fs.isEmpty || s.isRemapped cw then [] else fs.map fun f => (f.symbol, f.pattern)

/-- The data bytes of the codeword at an address (R267). -/
def codewordBytes (cw : Nat) : Nat := if inSump cw then 4 else 16

/-- A byte of a codeword with symbols changed (R267): symbol `i` holds data bits 4i + 3 to 4i, and the symbols past the data are check bits.
In the sump the data devices carry the bits of a beat in the same order (DESIGN CHOICE, log entry 81). -/
def flipByte (off : Nat) (fs : List (Nat × Nat)) (b : Byte) : Byte :=
  fs.foldl (fun b f => if f.1 / 2 = off then b ^^^ BitVec.ofNat 8 (f.2 % 16 * 16 ^ (f.1 % 2)) else b) b

/-- The change by which a codeword is miscorrected (R268): one symbol of the code, with a pattern that is not zero. -/
def miscorrection (cw : Nat) (fs : List (Nat × Nat)) : Nat × Nat :=
  let m := Config.miscorrection cw fs
  (m.1 % (if inSump cw then 10 else 36), m.2 % 15 + 1)

/-- The merge-buffer entry of a granule. -/
def State.entryAt (s : State) (g : Nat) : Option MergeEntry := s.merge.find? fun e => e.granule == g

/-- Whether a byte is valid in its granule's merge-buffer entry (R271). -/
def State.buffered (s : State) (a : Nat) : Bool :=
  match s.entryAt (a / 64 * 64) with
  | some e => e.mask.getLsbD (a % 64)
  | none => false

/-- The byte that a codeword stores, beneath what its granule's entry holds. -/
def State.beneath (s : State) (a : Nat) : Byte :=
  match s.entryAt (a / 64 * 64) with
  | some e => if e.mask.getLsbD (a % 64) then Tbl.get 0 e.under (a % 64) else Tbl.get 0 s.mem a
  | none => Tbl.get 0 s.mem a

/-- A byte as its codeword's cells give it, uncorrected. -/
def State.asRead (s : State) (a : Nat) : Byte :=
  flipByte (a - codewordOf a) (s.symbolsAt (codewordOf a)) (s.beneath a)

/-- How a codeword reads (R268). -/
inductive CwRead where
  | clean | corrected (symbol pattern : Nat) | uncorrectable | miscorrected | poisoned
  deriving DecidableEq, Repr

/-- Whether a codeword of a poisoned unit reads as the poison pattern: always without a symbol in error, and as it may with one (R273). -/
def State.carriesPoison (s : State) (cw : Nat) : Bool :=
  match s.symbolsAt cw with
  | [] => true
  | fs => Config.keepsPoison cw fs

/-- Whether a codeword of a poisoned unit reads as poisoned (R273): in the sump, while at least 9 of the granule's 16 beats carry the
pattern. -/
def State.readsPoisoned (s : State) (cw : Nat) : Bool :=
  if s.faults.isEmpty then true
  else if inSump cw then decide (9 ≤ ((granuleCodewords (cw / 64 * 64)).filter s.carriesPoison).length)
  else s.carriesPoison cw

/-- The decoding of one codeword (R268, R273): one of a poisoned unit is never read as data. -/
def State.decodeCw (s : State) (cw : Nat) : CwRead :=
  if s.poison.contains (poisonUnit cw) then (if s.readsPoisoned cw then .poisoned else .uncorrectable)
  else
    match s.symbolsAt cw with
    | [] => .clean
    | [(sym, pat)] => .corrected sym pat
    | fs =>
      if !inSump cw && decide (fs.length = 2) then .uncorrectable
      else if Config.miscorrects cw fs then .miscorrected else .uncorrectable

/-- How the item at a byte read, when not as data (R268, R274). -/
def State.badAt (s : State) (a : Nat) : Option BadRead :=
  if s.faults.isEmpty then (if s.poison.contains (poisonUnit a) then some .poison else none)
  else
    match s.decodeCw (codewordOf a) with
    | .poisoned => some .poison
    | .uncorrectable => some .uncorrectable
    | _ => none

/-- Whether any byte of an interval reads as poisoned or uncorrectable. -/
def State.badIn (s : State) (a len : Nat) : Bool :=
  if s.poison.isEmpty && s.faults.isEmpty then false
  else (unitsIn a len).any (fun u => s.poison.contains u) || (codewordsIn a len).any fun cw => (s.badAt cw).isSome

/-- How an interval reads: poison outranks a fresh uncorrectable codeword only where both are met, by R48. -/
def State.badKinds (s : State) (a len : Nat) : List BadRead :=
  if s.poison.isEmpty && s.faults.isEmpty then []
  else (codewordsIn a len).filterMap s.badAt

/-- The kinds in which an interval reads bad, each once, poison first. -/
def State.badOf (s : State) (a len : Nat) : List BadRead :=
  let ks := s.badKinds a len
  (if ks.contains .poison then [.poison] else []) ++ (if ks.contains .uncorrectable then [.uncorrectable] else [])

/-- The byte that a read delivers (R268, R271): the stored byte, corrected, with what the merge buffer holds over it. A miscorrected codeword
delivers what was read with one further symbol changed, and an uncorrectable one, as poison, what was read. -/
def State.byte (s : State) (a : Nat) : Byte :=
  if s.faults.isEmpty || s.buffered a then Tbl.get 0 s.mem a
  else
    match s.decodeCw (codewordOf a) with
    | .miscorrected =>
      let cw := codewordOf a
      flipByte (a - cw) [miscorrection cw (s.symbolsAt cw)] (s.asRead a)
    | .uncorrectable => s.asRead a
    | _ => Tbl.get 0 s.mem a

/-- The bytes that a read delivers. -/
def State.read (s : State) (a len : Nat) : List Byte := (List.range len).map fun i => s.byte (a + i)

/-- A little-endian field in memory. -/
def State.readNat (s : State) (a len : Nat) : Nat := leNat (s.read a len)

/-- Bytes stored one after the other from an address. -/
def putBytes (m : Tbl Byte) (a : Nat) : List Byte → Tbl Byte
  | [] => m
  | b :: bs => putBytes (Tbl.set 0 m a b) (a + 1) bs

/-- Visible bytes stored, with nothing else of a write. -/
def State.putVisible (s : State) (a : Nat) (bs : List Byte) : State := { s with mem := putBytes s.mem a bs }

/-- A unit marked as poison. -/
def State.addPoison (s : State) (u : Nat) : State := { s with poison := setIns s.poison u }

/-- A unit written whole with good data: its poison is cleared (R273), and a symbol in error that is not stuck is gone. What a remapped
granule's own cells hold stays as it is (R280). -/
def State.cleanUnit (s : State) (u : Nat) : State :=
  { s with poison := setDel s.poison u,
           faults := s.faults.filter fun f => f.stuck || poisonUnit f.addr != u || s.isRemapped u }

/-! Repair (R279–R283). -/

/-- The number of a controller's tracker: slice, 64 × stack + pseudo-channel, or channel (R248, R279). -/
def State.trackerOf (s : State) (a : Nat) : Option (MemKind × Nat × Nat) :=
  (s.localOf a).map fun (k, u, off) =>
    (k, if k = .hbm then 64 * u + off / 4096 % 64 else u, off / 64)

/-- The entries of the remap table that serves a unit (R280): one per stack and channel, one per quarter of slices. -/
def State.remapTable (s : State) (k : MemKind) (u : Nat) : List Remap :=
  s.remaps.filter fun r => r.mem == k && (if k = .scratchpad then r.unit / 64 == u / 64 else r.unit == u)

/-- The entries of a remap table (R280). -/
def remapCapacity (k : MemKind) : Nat := if k = .scratchpad then 8 else 16

/-- The serial number of the DIMM in a channel; 0 for the other memories. -/
def State.unitSerial (s : State) (k : MemKind) (u : Nat) : Nat :=
  if k = .sump then (match s.dimms[u]? with | some (some d) => d.serial | _ => 0) else 0

/-- The bytes of a codeword as a read delivers them, stored (R269). -/
def State.writeBack (s : State) (cw : Nat) : State := s.putVisible cw (s.read cw (codewordBytes cw))

/-- The contents of a codeword as they move into a replacement (R280): as the read delivers them, or poison where the codeword is
uncorrectable, which is logged (Table 11.6). -/
def State.moveCw (s : State) (cw : Nat) : State :=
  match s.decodeCw cw with
  | .uncorrectable => ((s.writeBack cw).addPoison (poisonUnit cw)).memEvent 2 cw 0 0 0xFFFF
  | .miscorrected => s.writeBack cw
  | _ => s

/-- The granule of an address remapped (R280): an entry of its unit where none stands and the table has room, after its contents have
moved. The granule's own cells keep what they hold, faults included. -/
def State.remapGranule (s : State) (a : Nat) (k : MemKind) (u granule : Nat) (persist : Bool) : State :=
  let g := a / 64 * 64
  let own := (List.range 64).foldl (fun t i => Tbl.set 0 t i (s.beneath (g + i))) ([] : Tbl Byte)
  let ownPoison := ((unitsIn g 64).filter s.poison.contains).map (· - g)
  let s1 := if s.faults.isEmpty then s else (granuleCodewords g).foldl State.moveCw s
  { s1 with remaps := s1.remaps ++ [⟨k, u, granule, persist, s1.unitSerial k u, own, ownPoison⟩] }

/-- A granule whose remap entry is lost (R282): accesses meet its own cells again. -/
def State.unmapGranule (s : State) (r : Remap) : State :=
  let g := s.addrOf r.mem r.unit (64 * r.granule)
  let s1 := s.putVisible g ((List.range 64).map fun i => Tbl.get 0 r.own i)
  { s1 with remaps := s1.remaps.filter fun x => !(x.mem == r.mem && x.unit == r.unit && x.granule == r.granule),
            merge := s1.merge.filter fun e => e.granule != g,
            poison := r.ownPoison.foldl (fun t i => setIns t (g + i)) ((unitsIn g 64).foldl setDel s1.poison) }

/-- A fuse repair scheduled, once (R279, R283). For the sump the last component holds the device that carried the symbol, 15
when every device of the subchannel is to be repaired. -/
def State.scheduleFuse (s : State) (k : MemKind) (u granule device : Nat) : State :=
  let e := (k, u, if k = .sump then granule * 16 + device else granule)
  if s.fuseScheduled.contains e then s else { s with fuseScheduled := s.fuseScheduled ++ [e] }

/-- The scrub setting of a quarter and memory kind (R277). -/
def State.scrubSetting (s : State) (q : Nat) (k : MemKind) : ScrubSetting :=
  ((s.scrubSettings[q]?.getD ScrubSetting.defaults)[memCode k]?).getD ⟨0, 2, 4⟩

/-- The repair of a granule that reached CE_THRESH or was found uncorrectable, by the unit's REPAIR mode (R279, R280). -/
def State.repair (s : State) (a : Nat) (device : Nat) : State :=
  match s.localOf a with
  | none => s
  | some (k, u, off) =>
    let mode := (s.scrubSetting (quarterOfUnit k u) k).repair
    let g := off / 64
    let s1 :=
      if mode = 0 ∨ s.isRemapped a then s
      else if remapCapacity k ≤ (s.remapTable k u).length then s.memEvent 7 a 0 0 0xFFFF
      else (s.remapGranule a k u g true).memEvent 5 a 0 0 0xFFFF
    if mode = 1 then s1
    else
      let s2 := s1.scheduleFuse k u g device
      if s2.fuseScheduled = s1.fuseScheduled then s2 else s2.memEvent 6 a 0 0 0xFFFF

/-- A tracker with one more corrected read of a granule (R279): a full tracker gives up the oldest entry of lowest count. -/
def trackerHit (es : List (Nat × Nat)) (g : Nat) : List (Nat × Nat) × Nat :=
  match es.find? (fun e => e.1 == g) with
  | some (_, c) => (es.map fun e => if e.1 == g then (g, c + 1) else e, c + 1)
  | none =>
    if es.length < 32 then (es ++ [(g, 1)], 1)
    else
      let lowest := es.foldl (fun m e => min m e.2) (es.headD (0, 0)).2
      let victim := (es.find? fun e => e.2 == lowest).map (·.1)
      (es.filter (fun e => some e.1 != victim) ++ [(g, 1)], 1)

/-- A corrected read counted in its controller's tracker, and the repair it may trigger (R279). -/
def State.countCorrected (s : State) (a : Nat) (device : Nat) : State :=
  match s.trackerOf a, s.localOf a with
  | some (k, c, g), some (_, u, _) =>
    let cur := (s.trackers.find? fun t => t.mem == k && t.unit == c).map (·.entries)
    let (es, n) := trackerHit (cur.getD []) g
    let others := s.trackers.filter fun t => !(t.mem == k && t.unit == c)
    let s1 := { s with trackers := others ++ [⟨k, c, es⟩] }
    if (s.scrubSetting (quarterOfUnit k u) k).ceThresh ≤ n then s1.repair a device else s1
  | _, _ => s

/-- The record and the count of a codeword that was corrected, or decoded as if one symbol had been in error (R268, R269, R279). -/
def State.corrected (s : State) (cw sym pat status ring : Nat) : State :=
  let pos := sym + pat * 256 + (if inSump cw then cw / 4 % 16 * 4096 else 0)
  (s.memEvent 1 cw pos status ring).countCorrected cw (if sym < 10 then sym else 15)

/-- The decoding of a codeword with what follows from it at once (R269, R274, R285): a corrected codeword is stored corrected, an uncorrectable
one as poison over what was read. `ring` and `status` go into its record; `rmw` tells a read-modify-write, whose uncorrectable codeword loses
the bytes brought to it and is logged as RMW_LOST (R272). A packet's read of poison is logged where `packet` is set. -/
def State.decodeStore (s : State) (cw status ring : Nat) (rmw packet : Bool) : State :=
  let kept := fun (s : State) => { s with faults := s.faults.filter fun f => f.stuck || poisonUnit f.addr != poisonUnit cw }
  match s.decodeCw cw with
  | .clean => s
  | .corrected sym pat =>
    { s with faults := s.faults.filter fun f => f.addr != cw || f.stuck }.corrected cw sym pat status ring
  | .miscorrected =>
    let m := miscorrection cw (s.symbolsAt cw)
    { s.writeBack cw with faults := s.faults.filter fun f => f.addr != cw || f.stuck }.corrected cw m.1 m.2 status ring
  | .uncorrectable =>
    let s1 := if rmw then s.putVisible cw ((List.range (codewordBytes cw)).map fun i => s.asRead (cw + i)) else s.writeBack cw
    let s2 := ((kept s1).addPoison (poisonUnit cw)).memEvent (if rmw then 4 else 2) cw 0 (if ring = 0xFFFF then 0 else status) ring
    s2.repair cw 15
  | .poisoned => if packet then s.memEvent 3 cw 0 0x21 ring else s

/-! Merge buffers (R270–R272). -/

/-- The merge-buffer bank of a granule: its unit and the bank within it (R271). In HBM the bank is that of R283. -/
def State.bankOf (s : State) (g : Nat) : List Nat :=
  match s.localOf g with
  | some (.hbm, u, off) => [1, u, off / 4096 % 64, off / 4096 / 64 % 16]
  | some (.scratchpad, u, off) => [0, u, Config.mergeBank off % 16]
  | some (.sump, u, off) => [2, u, Config.mergeBank off % 32]
  | none => []

/-- An entry drains (R271, R272): fully valid, the granule is written whole; else by a read-modify-write. -/
def State.drain (s : State) (g : Nat) : State :=
  match s.entryAt g with
  | none => s
  | some e =>
    let s1 :=
      if e.mask = BitVec.allOnes 64 then (unitsIn g 64).foldl State.cleanUnit s
      else if s.faults.isEmpty then s
      else (granuleCodewords g).foldl (fun s cw => s.decodeStore cw 0 0xFFFF true false) s
    { s1 with merge := s1.merge.filter fun e => e.granule != g }

/-- The mask of `len` bytes at an offset of a granule. -/
def maskOf (off len : Nat) : BitVec 64 := BitVec.ofNat 64 ((2 ^ len - 1) * 2 ^ off)

/-- An entry with further bytes valid: `len` bytes at an offset, beneath which memory holds `old`. -/
def MergeEntry.cover (e : MergeEntry) (off len : Nat) (old : Nat → Byte) : MergeEntry :=
  { e with mask := e.mask ||| maskOf off len,
           under := (List.range len).foldl
             (fun t i => if e.mask.getLsbD (off + i) then t else Tbl.set 0 t (off + i) (old (off + i))) e.under }

/-- A narrow write enters the merge buffer (R271): it merges into the granule's entry or takes a new one, after the oldest entry
of a full bank has drained. The bytes are visible from then on. -/
def State.mergeNarrow (s : State) (a : Nat) (bs : List Byte) : State :=
  let g := a / 64 * 64
  let old := fun (i : Nat) => Tbl.get 0 s.mem (g + i)
  match s.entryAt g with
  | some e =>
    let e1 := e.cover (a - g) bs.length old
    let s1 := { s.putVisible a bs with merge := s.merge.map fun x => if x.granule == g then e1 else x }
    if e1.mask = BitVec.allOnes 64 then s1.drain g else s1
  | none =>
    let s1 :=
      if s.merge.length < 16 then s
      else
        let mine := s.merge.filter fun e => s.bankOf e.granule == s.bankOf g
        if mine.length < 16 then s else s.drain ((mine.headD ⟨0, 0, []⟩).granule)
    { s1.putVisible a bs with merge := s1.merge ++ [(⟨g, 0, []⟩ : MergeEntry).cover (a - g) bs.length old] }

/-- A read of a codeword (R269): what its decoding does, and the write-back of a corrected codeword through the merge buffer of R271: a
whole codeword is written directly once the granule's entry has drained (R270), and a beat of the sump, which is narrow, enters the
buffer. -/
def State.readCw (s : State) (cw status ring : Nat) (packet : Bool) : State :=
  let s1 := s.decodeStore cw status ring false packet
  match s.decodeCw cw with
  | .corrected _ _ | .miscorrected =>
    if inSump cw then s1.mergeNarrow cw (s1.read cw 4) else s1.drain (cw / 64 * 64)
  | _ => s1

/-- The reads of an interval by a packet, codeword by codeword, poison being logged once for each unit that reads as poisoned. -/
def State.readEffects (s : State) (a len status ring : Nat) : State :=
  if s.faults.isEmpty && s.poison.isEmpty then s
  else
    let hit := (unitsIn a len).filter fun u => s.poison.contains u && s.readsPoisoned u
    let s1 := if s.faults.isEmpty then s else
      (codewordsIn a len).foldl (fun s cw => s.readCw cw status ring false) s
    hit.foldl (fun s u => s.memEvent 3 u 0 0x21 ring) s1

/-- A write of bytes that lie in one granule (R270–R273). -/
def State.storePiece (s : State) (a : Nat) (bs : List Byte) (poison : Bool) : State :=
  let g := a / 64 * 64
  let len := bs.length
  if len = 0 then s
  else if poison then
    (unitsIn a len).foldl State.addPoison ((s.drain g).putVisible a bs)
  else
    let w := if inSump a then 64 else 16
    let lo := ceilDiv a w * w
    let hi := (a + len) / w * w
    if lo < hi then
      let s1 := s.drain g
      let s2 := if a < lo then s1.mergeNarrow a (bs.take (lo - a)) else s1
      let s3 := ((List.range ((hi - lo) / w)).map fun i => lo + i * w).foldl State.cleanUnit
        (s2.putVisible lo ((bs.drop (lo - a)).take (hi - lo)))
      if hi < a + len then s3.mergeNarrow hi (bs.drop (hi - a)) else s3
    else s.mergeNarrow a bs

/-- The granule pieces of a run of bytes; `fuel` bounds their number. -/
def pieces : Nat → Nat → List Byte → List (Nat × List Byte)
  | 0, _, _ => []
  | _, _, [] => []
  | fuel + 1, a, bs =>
    let n := 64 - a % 64
    (a, bs.take n) :: pieces fuel (a + n) (bs.drop n)

/-- A write of bytes to device memory (R139, R270–R273). -/
def State.store (s : State) (w : Write) : State :=
  (pieces (w.bytes.length / 64 + 2) w.addr w.bytes).foldl (fun s p => s.storePiece p.1 p.2 w.poison) s

/-- Consecutive writes of adjacent bytes with one poison mark, joined. -/
def coalesce : List Write → List Write
  | [] => []
  | w :: ws =>
    match coalesce ws with
    | [] => [w]
    | v :: vs =>
      if w.addr + w.bytes.length = v.addr ∧ w.poison = v.poison then ⟨w.addr, w.bytes ++ v.bytes, w.poison⟩ :: vs
      else w :: v :: vs

/-- The writes of a packet, in order. -/
def State.storeAll (s : State) (ws : List Write) : State := (coalesce ws).foldl State.store s

/-- Zeros over an interval of memory, whole: bytes, poison, transient faults and merge entries go (R389, R424, R461). -/
def State.zeroRange (s : State) (lo hi : Nat) : State :=
  let out := fun (a : Nat) => decide (a < lo ∨ hi ≤ a)
  { s with mem := s.mem.filter fun c => out c.1,
           poison := s.poison.filter out,
           merge := s.merge.filter fun e => out e.granule,
           faults := s.faults.filter fun f => f.stuck || out f.addr }

end Sys2Proof.Machine
end

