-- ==== Sys2Proof/Machine/Flags.lean ====
section
/-! DEFINITION. Status codes, CLAMP_MAP and DETAIL: how the codes that apply to a packet become its completion record
(R38, R47, R48, Tables 2.7–2.9). -/

namespace Sys2Proof.Machine

/-- The status codes of Table 2.9. -/
abbrev OK : Nat := 0x0000
/-- a field or a produced shape value was clamped -/
abbrev OK_CLAMPED : Nat := 0x0001
/-- expert choices went to spoil -/
abbrev OK_SPOIL : Nat := 0x0002
/-- non-finite elements were converted and counted -/
abbrev OK_NONFINITE : Nat := 0x0003
/-- a block fell below an accumulation window -/
abbrev OK_WINDOW_LOSS : Nat := 0x0004
/-- an N:M group was truncated -/
abbrev OK_NM_TRUNCATED : Nat := 0x0005
/-- excess tokens ran in further waves -/
abbrev OK_DEFERRED : Nat := 0x0006
/-- misaligned -/
abbrev ERR_ALIGN : Nat := 0x0010
/-- a write could reach one address twice -/
abbrev ERR_WRITE_ALIAS : Nat := 0x0011
/-- index faults -/
abbrev ERR_INDEX_RANGE : Nat := 0x0012
/-- a bad descriptor or field -/
abbrev ERR_DESCRIPTOR : Nat := 0x0014
/-- a bad opcode -/
abbrev ERR_OPCODE : Nat := 0x0015
/-- a fresh uncorrectable codeword -/
abbrev ERR_UNCORRECTABLE : Nat := 0x0020
/-- poison -/
abbrev ERR_POISON : Nat := 0x0021
/-- a residue mismatch -/
abbrev ERR_DATAPATH : Nat := 0x0022
/-- an old epoch -/
abbrev ERR_EPOCH : Nat := 0x0030
/-- unreachable -/
abbrev ERR_PEER_UNREACHABLE : Nat := 0x0031
/-- past its limit -/
abbrev ERR_TIMEOUT : Nat := 0x0032
/-- a second loss in a group under rebuild -/
abbrev ERR_GROUP_DOUBLE_LOSS : Nat := 0x0033
/-- beyond the partition -/
abbrev ERR_PARTITION : Nat := 0x0040
/-- failed to verify -/
abbrev ERR_AUTH : Nat := 0x0041
/-- a corrupt access unit -/
abbrev ERR_BITSTREAM : Nat := 0x0050
/-- removed -/
abbrev ABORTED : Nat := 0x00F0

/-- Whether a code is an error: at or above 0x0010 (Table 2.4, NO_CQ). -/
def isError (c : Nat) : Bool := decide (0x10 ≤ c)

/-- STATUS: the numerically highest code that applies (R48). -/
def statusOf (codes : List Nat) : Nat := codes.foldl max 0

/-- The code with which a packet that reads an item so ends (R274). -/
def BadRead.code : BadRead → Nat
  | .poison => ERR_POISON
  | .uncorrectable => ERR_UNCORRECTABLE

/-- The code without repeats. -/
def dedupNat : List Nat → List Nat
  | [] => []
  | x :: t => if t.contains x then dedupNat t else x :: dedupNat t

/-- NOTES: bit k set for note code k (Table 2.8a). -/
def notesOf (codes : List Nat) : Nat :=
  ((List.range 6).map fun k => if codes.contains (k + 1) then 2 ^ (k + 1) else 0).sum

/-- MORE_ERR: more than one error applies (R48). -/
def moreErr (codes : List Nat) : Bool := decide (1 < ((dedupNat codes).filter isError).length)

/-- A set of clamp bits as CLAMP_MAP (R38). -/
def clampMapOf (bits : List Nat) : Nat := ((dedupNat bits).map fun b => 2 ^ b).sum

/-- All clamps of a packet: those of step 5 and those it made while it ran (R38). -/
def Packet.allClamps (k : Packet) : List Nat := k.clamps ++ k.res.clamps

/-- Every code that applies to a packet: its own, and OK_CLAMPED when it clamped (R37, R48). -/
def Packet.codes (k : Packet) : List Nat :=
  (if k.allClamps.isEmpty then [] else [OK_CLAMPED]) ++ k.res.codes

/-- The status of a finished packet; an aborted packet ends ABORTED. -/
def Packet.status (k : Packet) : Nat := if k.aborted then ABORTED else statusOf k.codes

/-- DETAIL (Table 2.8a). -/
def Packet.detail (k : Packet) : Nat :=
  k.res.opflags % 256 * 2 ^ 24 + k.res.field % 256 * 2 ^ 16 + (if moreErr k.codes then 2 ^ 8 else 0) + notesOf k.codes

/-- PHASE of completion record `i` (R28). -/
def phaseOf (i cqLog2 : Nat) : Nat := 1 - (i / 2 ^ cqLog2) % 2

/-- The 32 bytes of completion record `i` of a packet (Table 2.7). -/
def Packet.record (k : Packet) (i cqLog2 : Nat) : List Byte :=
  toLe 4 k.hdr.tag ++ toLe 2 k.status ++ toLe 2 k.hdr.opcode ++ toLe 4 k.hdr.seq ++ toLe 4 (clampMapOf k.allClamps)
    ++ toLe 4 k.detail ++ toLe 4 (min k.res.count0 0xFFFFFFFF) ++ toLe 4 (min k.res.count1 0xFFFFFFFF)
    ++ toLe 2 k.ring ++ toLe 1 0 ++ toLe 1 (phaseOf i cqLog2)

/-- A flag of the packet header (Table 2.4). -/
def Header.flag (h : Header) (bit : Nat) : Bool := h.flags.testBit bit

end Sys2Proof.Machine
end

