-- ==== Sys2Proof/Machine/Num.lean ====
section
/-! DEFINITION. Exact values: rationals, signed zeros and non-finite values, and their rounding to a grid (R74, R75, R81). -/

namespace Sys2Proof.Machine

/-- `2^e` for any integer `e`. -/
def pow2 (e : Int) : Rat := if 0 ≤ e then (((2 ^ e.toNat : Nat) : Int) : Rat) else mkRat 1 (2 ^ (-e).toNat)

/-- `|x|`. -/
def absQ (x : Rat) : Rat := if x.num < 0 then -x else x

/-- floor(log2 |x|) for a nonzero `x`; 0 for zero, where no rule uses it. -/
def floorLog2 (x : Rat) : Int :=
  if x.num = 0 then 0
  else
    let k : Int := (Nat.log2 x.num.natAbs : Int) - (Nat.log2 x.den : Int)
    if pow2 k ≤ absQ x then k else k - 1

/-- floor(|x|), a natural number. -/
def floorAbs (x : Rat) : Nat := x.num.natAbs / x.den

/-- sign(x) × floor(|x|): truncation towards zero (R67). -/
def truncQ (x : Rat) : Int := if x.num < 0 then -(floorAbs x : Int) else (floorAbs x : Int)

/-- Whether `x` is a whole number. -/
def isWhole (x : Rat) : Bool := decide (x.den = 1)

/-- An exact value of an element or of a formula: NaN, an infinity (`neg` its sign), the zero −0, or a finite value whose zero
is +0 (R56, R479). -/
inductive Num where
  | nan
  | inf (neg : Bool)
  | negZero
  | fin (x : Rat)
  deriving DecidableEq, Repr

/-- The finite value, 0 for a non-finite one. -/
def Num.q : Num → Rat
  | .fin x => x
  | _ => 0

/-- Whether a value is finite. -/
def Num.isFinite : Num → Bool
  | .fin _ => true
  | .negZero => true
  | _ => false

/-- Whether a value is NaN. -/
def Num.isNan : Num → Bool
  | .nan => true
  | _ => false

/-- Whether a value is zero, of either sign. -/
def Num.isZero : Num → Bool
  | .fin x => decide (x = 0)
  | .negZero => true
  | _ => false

/-- Whether the sign of a value is negative, −0 included. -/
def Num.isNeg : Num → Bool
  | .fin x => decide (x.num < 0)
  | .negZero => true
  | .inf n => n
  | .nan => false

/-- The class of a value (R70). -/
def Num.cls : Num → NfClass
  | .nan => .nan
  | .inf true => .negInf
  | .inf false => .posInf
  | _ => .none

/-- The non-finite value of a class; 0 for none. -/
def Num.ofClass : NfClass → Num
  | .none => .fin 0
  | .posInf => .inf false
  | .negInf => .inf true
  | .nan => .nan

/-- Class combination (Table 3.5). -/
def NfClass.combine : NfClass → NfClass → NfClass
  | .none, c => c
  | c, .none => c
  | .posInf, .posInf => .posInf
  | .negInf, .negInf => .negInf
  | _, _ => .nan

/-- An exact product, a zero result of arithmetic being +0 (R70, R479). -/
def Num.mul (a b : Num) : Num :=
  if a.isNan || b.isNan then .nan
  else if a.isFinite && b.isFinite then .fin (a.q * b.q)
  else if a.isZero || b.isZero then .nan
  else .inf (a.isNeg != b.isNeg)

/-- An exact sum, a zero result of arithmetic being +0 (R71, R479). -/
def Num.add (a b : Num) : Num :=
  match a.cls.combine b.cls with
  | .none => .fin (a.q + b.q)
  | c => Num.ofClass c

/-- The negative of a value. -/
def Num.neg : Num → Num
  | .nan => .nan
  | .inf n => .inf (!n)
  | .negZero => .fin 0
  | .fin x => if x = 0 then .negZero else .fin (-x)

/-- An exact difference. -/
def Num.sub (a b : Num) : Num := a.add b.neg

/-- The magnitude of a value, +0 for a zero. -/
def Num.abs : Num → Num
  | .nan => .nan
  | .inf _ => .inf false
  | .negZero => .fin 0
  | .fin x => .fin (absQ x)

/-- A value times `2^g`, the sign of a zero kept. -/
def Num.scale (g : Int) : Num → Num
  | .fin x => .fin (x * pow2 g)
  | v => v

/-- The order of R124 on values that are not NaN: −∞ < finite < +∞ and −0 < +0. -/
def Num.lt (a b : Num) : Bool :=
  match a, b with
  | .inf true, .inf true => false
  | .inf true, _ => true
  | _, .inf true => false
  | .inf false, _ => false
  | _, .inf false => true
  | .negZero, .fin y => decide (0 ≤ y)
  | .fin x, .negZero => decide (x < 0)
  | .negZero, .negZero => false
  | .fin x, .fin y => decide (x < y)
  | _, _ => false

/-- The order of the real line on values that are not NaN: −0 and +0 are equal. -/
def Num.below (a b : Num) : Bool := a.lt b && !(a.isZero && b.isZero)

/-- The larger of two values by the order of R124, NaN when either is NaN. -/
def Num.max (a b : Num) : Num := if a.isNan || b.isNan then .nan else if a.lt b then b else a

/-- The smaller of two values by the order of R124, NaN when either is NaN. -/
def Num.min (a b : Num) : Num := if a.isNan || b.isNan then .nan else if b.lt a then b else a

/-- How a magnitude rounds: to nearest even, or stochastically by the 16 generator bits of the element (R74, R81). -/
inductive Rnd where
  | rne
  | sr (gen : Nat)
  deriving DecidableEq, Repr

/-- A nonnegative number of grid steps rounded to a whole number of them (R74, R81). -/
def Rnd.steps (r : Rnd) (t : Rat) : Nat :=
  let lo := floorAbs t
  let frac := t - ((lo : Int) : Rat)
  match r with
  | .rne =>
    let two := frac * 2
    if two < 1 then lo else if 1 < two then lo + 1 else if lo % 2 = 0 then lo else lo + 1
  | .sr g => if g < floorAbs (frac * 65536) then lo + 1 else lo

/-- The parameters of a binary floating format: significand bits, the exponent of the smallest normal, the exponent bias, the
width of the exponent field, and the largest finite magnitude. -/
structure FloatFmt where
  p : Nat
  emin : Int
  bias : Int
  ebits : Nat
  top : Rat
  deriving DecidableEq, Repr

/-- binary32 (R56). -/
def FloatFmt.f32 : FloatFmt := ⟨24, -126, 127, 8, (2 - pow2 (-23)) * pow2 127⟩

/-- BF16 (R56). -/
def FloatFmt.bf16 : FloatFmt := ⟨8, -126, 127, 8, (2 - pow2 (-7)) * pow2 127⟩

/-- FP8 E4M3 (Table 3.2). -/
def FloatFmt.e4m3 : FloatFmt := ⟨4, -6, 7, 4, 448⟩

/-- FP8 E5M2 (Table 3.2). -/
def FloatFmt.e5m2 : FloatFmt := ⟨3, -14, 15, 5, 57344⟩

/-- FP4 E2M1 (Table 3.3). -/
def FloatFmt.fp4 : FloatFmt := ⟨2, 0, 1, 2, 6⟩

/-- A magnitude rounded to the format's grid, the subnormal spacing included, with no limit at the top (R74, R81). -/
def FloatFmt.round (f : FloatFmt) (r : Rnd) (m : Rat) : Rat :=
  if m = 0 then 0
  else
    let e := max (floorLog2 m) f.emin
    let q := e - ((f.p : Int) - 1)
    (((r.steps (m * pow2 (-q)) : Nat) : Int) : Rat) * pow2 q

/-- The exponent and fraction fields of a magnitude on the format's grid. -/
def FloatFmt.fields (f : FloatFmt) (m : Rat) : Nat :=
  if m < pow2 f.emin then floorAbs (m * pow2 ((f.p : Int) - 1 - f.emin))
  else
    let e := floorLog2 m
    (e + f.bias).toNat * 2 ^ (f.p - 1) + (floorAbs (m * pow2 ((f.p : Int) - 1 - e)) - 2 ^ (f.p - 1))

/-- The sign bit of the format at its place. -/
def FloatFmt.signBit (f : FloatFmt) : Nat := 2 ^ (f.ebits + f.p - 1)

/-- The value of the exponent and fraction fields `E`, `M` of a finite code (R57). -/
def FloatFmt.value (f : FloatFmt) (e m : Nat) : Rat :=
  if e = 0 then ((m : Int) : Rat) * pow2 (f.emin - ((f.p : Int) - 1))
  else (((m + 2 ^ (f.p - 1) : Nat) : Int) : Rat) * pow2 ((e : Int) - f.bias - ((f.p : Int) - 1))

/-- A signed finite value, −0 kept. -/
def Num.ofSigned (neg : Bool) (m : Rat) : Num :=
  if m = 0 then (if neg then .negZero else .fin 0) else .fin (if neg then -m else m)

/-- A value rounded by IEEE 754 to a format at nearest even: overflow gives an infinity, and a nonzero value that rounds to
zero keeps its sign (R75, R125, R208). -/
def FloatFmt.ieee (f : FloatFmt) (x : Num) : Num :=
  match x with
  | .fin v =>
    let m := f.round .rne (absQ v)
    if f.top < m then .inf (decide (v.num < 0)) else Num.ofSigned (decide (v.num < 0)) m
  | v => v

/-- The binary32 value nearest an exact value, as IEEE 754 rounds it. -/
def fl32 (x : Num) : Num := FloatFmt.f32.ieee x

/-- The integer square root, bit by bit from bit `n`: the largest `r` with `r² ≤ x` for `x < 4^(n+1)`. -/
def isqrt : Nat → Nat → Nat → Nat
  | 0, r, x => if (r + 1) * (r + 1) ≤ x then r + 1 else r
  | n + 1, r, x =>
    let c := r + 2 ^ (n + 1)
    isqrt n (if c * c ≤ x then c else r) x

/-- The integer square root of `x`. -/
def natSqrt (x : Nat) : Nat := isqrt (Nat.log2 x / 2) 0 x

end Sys2Proof.Machine
end

