-- ==== Sys2Proof/Machine/Format.lean ====
section
/-! DEFINITION. The element formats (Tables 3.1–3.3), block scales (R60, R77), WIDE160 (R72, R73, R480), the generator of
stochastic rounding (R80), and the encoding of a value into an element (R74–R77) with what it counts (R87). -/

namespace Sys2Proof.Machine

/-- Element width in bits of a format code (Table 3.1, R131). -/
def fmtBits : Nat → Nat
  | 0 => 32 | 1 => 16 | 2 => 8 | 3 => 8 | 4 => 4 | 5 => 2 | 6 => 4 | 7 => 32 | 8 => 64 | _ => 192

/-- FP4, TERN and INT4 always carry a scale array (R62, R132). -/
def fmtAlwaysScaled (f : Nat) : Bool := f == 4 || f == 5 || f == 6

/-- FP8 (R62). -/
def fmtIsFp8 (f : Nat) : Bool := f == 2 || f == 3

/-- GRI32 or GRI64 (R82). -/
def fmtIsGri (f : Nat) : Bool := f == 7 || f == 8

/-- WIDE160. -/
def fmtIsWide (f : Nat) : Bool := f == 9

/-- BF16 and FP32, whose block exponents are derived (R64). -/
def fmtDerived (f : Nat) : Bool := f == 0 || f == 1

/-- The floating format of a code, for the codes that have one. -/
def fmtFloat : Nat → Option FloatFmt
  | 0 => some .f32 | 1 => some .bf16 | 2 => some .e4m3 | 3 => some .e5m2 | 4 => some .fp4 | _ => none

/-- A code of a floating format as a value. -/
def FloatFmt.decode (f : FloatFmt) (special : Nat → Option Num) (bits : Nat) : Num :=
  let mag := bits % f.signBit
  let neg := decide (f.signBit ≤ bits)
  match special mag with
  | some .nan => .nan
  | some (.inf _) => .inf neg
  | _ => Num.ofSigned neg (f.value (mag / 2 ^ (f.p - 1)) (mag % 2 ^ (f.p - 1)))

/-- The non-finite codes of a format, by exponent and fraction fields (R56, R57). -/
def fmtSpecial (f mag : Nat) : Option Num :=
  match f with
  | 0 => if mag = 0x7F800000 then some (.inf false) else if 0x7F800000 < mag then some .nan else none
  | 1 => if mag = 0x7F80 then some (.inf false) else if 0x7F80 < mag then some .nan else none
  | 2 => if mag = 0x7F then some .nan else none
  | 3 => if mag = 0x7C then some (.inf false) else if 0x7C < mag then some .nan else none
  | _ => none

/-- An element's code as a value, before its block's scale (R56–R59). FP4 code 0x8 and TERN code 0b10 read as 0. A GRI element
is read as its integer. -/
def decodeElt (f bits : Nat) : Num :=
  match f with
  | 4 => if bits = 8 then .fin 0 else FloatFmt.fp4.decode (fmtSpecial 4) bits
  | 5 => if bits = 1 then .fin 1 else if bits = 3 then .fin (-1) else .fin 0
  | 6 => .fin ((signed 4 bits : Int) : Rat)
  | 7 => .fin ((signed 32 bits : Int) : Rat)
  | 8 => .fin ((signed 64 bits : Int) : Rat)
  | _ =>
    match fmtFloat f with
    | some ff => ff.decode (fmtSpecial f) bits
    | none => .fin 0

/-- An element's value: its code times its block's scale; NaN in a block of scale 0xFF (R60). -/
def scaledElt (f bits scale : Nat) : Num :=
  if scale = 255 then .nan else (decodeElt f bits).scale ((scale : Int) - 127)

/-- The value that a WIDE160 stands for (R72). -/
def W160.num (w : W160) : Num :=
  match w.cls with
  | .none => .fin ((w.v : Rat) * pow2 (w.anchor - 161))
  | c => Num.ofClass c

/-- The code of a class (Table 3.7). -/
def NfClass.code : NfClass → Nat
  | .none => 0 | .posInf => 1 | .negInf => 2 | .nan => 3

/-- The class of a code (Table 3.7). -/
def NfClass.ofCode : Nat → NfClass
  | 1 => .posInf | 2 => .negInf | 3 => .nan | _ => .none

/-- The 24 bytes of a WIDE160 as a little-endian number (Tables 3.6, 3.7). An anchor beyond 16 bits, which R480 states for no sum, keeps its
low 16 (DESIGN CHOICE, log entry 86). -/
def W160.bits (w : W160) : Nat :=
  unsigned 160 w.v + 2 ^ 160 * (unsigned 16 w.anchor
    + 2 ^ 16 * (w.cls.code * 4 + (if w.sticky then 2 else 0) + (if w.loss then 1 else 0)))

/-- A WIDE160 from its 24 bytes as a little-endian number. -/
def W160.ofBits (x : Nat) : W160 :=
  { v := signed 160 (x % 2 ^ 160), anchor := signed 16 (bitsAt x 175 160), cls := .ofCode (bitsAt x 179 178),
    sticky := decide (bitsAt x 177 177 = 1), loss := decide (bitsAt x 176 176 = 1) }

/-- The WIDE160 zero. -/
def W160.zero : W160 := ⟨0, 0, .none, false, false⟩

/-- An integer divided by `2^d` towards zero, and whether bits were discarded. -/
def truncShift (v : Int) (d : Nat) : Int × Bool :=
  let k : Int := if v < 0 then -((v.natAbs / 2 ^ d : Nat) : Int) else ((v.natAbs / 2 ^ d : Nat) : Int)
  (k, decide (v.natAbs % 2 ^ d ≠ 0))

/-- WIDE160 addition (R73). The second component is the number of truncations that lost bits. -/
def W160.add (x y : W160) : W160 × Nat :=
  let a := max x.anchor y.anchor
  let (xv, xl) := truncShift x.v (a - x.anchor).toNat
  let (yv, yl) := truncShift y.v (a - y.anchor).toNat
  let v := xv + yv
  let ovf := decide (v < -(2 ^ 159 : Nat) ∨ ((2 ^ 159 : Nat) : Int) - 1 < v)
  let (v', vl) := if ovf then truncShift v 1 else (v, false)
  let a' := if ovf then a + 1 else a
  let lost := xl || yl || vl
  let cls := x.cls.combine y.cls
  let big := decide (32767 < a')
  ({ v := v', anchor := if big then 32767 else a',
     cls := if big then cls.combine (if v' < 0 then .negInf else .posInf) else cls,
     sticky := x.sticky || y.sticky || lost, loss := x.loss || y.loss || lost },
   (if xl then 1 else 0) + (if yl then 1 else 0) + (if vl then 1 else 0))

/-- An exact value written into WIDE160 without an anchor of its own (R480), and its window losses. -/
def W160.ofNum (x : Num) : W160 × Nat :=
  match x with
  | .fin q =>
    if q = 0 then (.zero, 0)
    else
      let e := floorLog2 q + 3
      if 32767 < e then (⟨0, 0, if q < 0 then .negInf else .posInf, false, false⟩, 0)
      else
        let a := max e (-32768)
        let t := q * pow2 (161 - a)
        let lost := !isWhole t
        (⟨truncQ t, a, .none, lost, lost⟩, if lost then 1 else 0)
  | .negZero => (.zero, 0)
  | v => (⟨0, 0, v.cls, false, false⟩, 0)

/-- `x` rotated left by `n` in 64 bits. -/
def rotl64 (x n : Nat) : Nat := ((x <<< (n % 64)) ||| (x >>> (64 - n % 64))) % 2 ^ 64

/-- The rotations of the generator's rounds (R80). -/
def genRot : List Nat := [24, 12, 40, 32, 52, 20]

/-- The generator of R80: SEED, TENSOR_ID and an element index to 16 bits. -/
def gen16 (seed tensorId index : Nat) : Nat :=
  let step := fun (st : Nat × Nat) (r : Nat × Nat) =>
    let k := seed ^^^ rotl64 0x9e3779b97f4a7c15 (8 * r.1)
    let x := (st.1 + (st.2 ^^^ k)) % 2 ^ 64
    (x, rotl64 st.2 r.2 ^^^ x)
  let st := ((List.range 6).zip genRot).foldl step (index % 2 ^ 48, tensorId)
  ((st.1 ^^^ st.2) >>> 48) % 2 ^ 16

/-- A rounding group (Table 3.8). -/
structure RGroup where
  seed : Nat
  tensorId : Nat
  rmode : Nat
  deriving DecidableEq, Repr

/-- Round to nearest even, for the opcodes without a rounding group. -/
def RGroup.rne : RGroup := ⟨0, 0, 0⟩

/-- The rounding of the element of an index (R78, R79). -/
def RGroup.rnd (g : RGroup) (index : Nat) : Rnd :=
  if g.rmode = 1 then .sr (gen16 g.seed g.tensorId (index % 2 ^ 48)) else .rne

/-- The counts of Table 4.1. -/
structure Counts where
  elements : Nat
  zeros : Nat
  sats : Nat
  unfs : Nat
  nonfin : Nat
  losses : Nat
  deriving DecidableEq, Repr

/-- No counts. -/
def Counts.zero : Counts := ⟨0, 0, 0, 0, 0, 0⟩

/-- The sum of two counts. -/
def Counts.add (a b : Counts) : Counts :=
  ⟨a.elements + b.elements, a.zeros + b.zeros, a.sats + b.sats, a.unfs + b.unfs, a.nonfin + b.nonfin, a.losses + b.losses⟩

/-- The counts of one element written (R87): whether it is zero, saturated, underflowed or non-finite. -/
def Counts.one (zero sat unf nonfin : Bool) (losses : Nat) : Counts :=
  ⟨1, if zero then 1 else 0, if sat then 1 else 0, if unf then 1 else 0, if nonfin then 1 else 0, losses⟩

/-- The counts of an element written as poisoned (R274). -/
def Counts.poisoned : Counts := ⟨1, 0, 0, 0, 0, 0⟩

/-- What a packet produces for one output element: its exact value, the window it left when a window formed it (R480), the
window losses of its forming, and whether it is poisoned. A `raw` element is moved bit for bit. -/
structure OutElt where
  v : Num
  wide : Option W160
  losses : Nat
  raw : Option Nat
  poison : Bool
  deriving DecidableEq, Repr

/-- An element with a value and nothing else. -/
def OutElt.ofNum (v : Num) : OutElt := ⟨v, none, 0, none, false⟩

/-- An element that is written poisoned. -/
def OutElt.bad : OutElt := ⟨.fin 0, none, 0, none, true⟩

/-- An element times `2^g` (R94): the anchor moves by `g` for a window (R112). -/
def OutElt.scale (g : Int) (o : OutElt) : OutElt :=
  { o with v := o.v.scale g, wide := o.wide.map fun w => { w with anchor := w.anchor + g } }

/-- The codes written for a non-finite value in an unscaled format (R76). -/
def nonfiniteCode (f : Nat) (v : Num) : Nat :=
  match f, v with
  | 0, .inf n => if n then 0xFF800000 else 0x7F800000
  | 0, _ => 0x7FC00000
  | 1, .inf n => if n then 0xFF80 else 0x7F80
  | 1, _ => 0x7FC0
  | 3, .inf n => if n then 0xFC else 0x7C
  | 3, _ => 0x7E
  | 2, .inf n => if n then 0xFF else 0x7F
  | 2, _ => 0x7F
  | _, _ => 0

/-- A finite value rounded once into an unscaled floating format (R74, R75): its code and its counts. -/
def encodeFloat (ff : FloatFmt) (r : Rnd) (v : Num) : Nat × Counts :=
  let m := ff.round r (absQ v.q)
  let sat := decide (ff.top < m)
  let m' := if sat then ff.top else m
  ((if v.isNeg then ff.signBit else 0) + ff.fields m',
   Counts.one (decide (m' = 0)) sat (decide (m' = 0 ∧ v.q ≠ 0)) false 0)

/-- An element written into an unscaled format: its code and its counts (R74–R76, R87). -/
def encodeUnscaled (f : Nat) (r : Rnd) (o : OutElt) : Nat × Counts :=
  if o.poison then (0, .poisoned)
  else
    match o.raw with
    | some b =>
      if fmtIsWide f then
        let w := W160.ofBits b
        (b, Counts.one (decide (w.v = 0 ∧ w.cls = .none)) false false (decide (w.cls ≠ .none)) 0)
      else
        let v := decodeElt f b
        (b, Counts.one v.isZero false false (!v.isFinite) 0)
    | none =>
      if fmtIsWide f then
        let (w, l) := match o.wide with
          | some w => (w, 0)
          | none => W160.ofNum o.v
        (w.bits, Counts.one (decide (w.v = 0 ∧ w.cls = .none)) false
          (decide (w.v = 0 ∧ w.cls = .none ∧ o.wide = none ∧ o.v.q ≠ 0)) (decide (w.cls ≠ .none)) (o.losses + l))
      else
        match fmtFloat f with
        | some ff =>
          if o.v.isFinite then
            let (b, c) := encodeFloat ff r o.v
            (b, c.add ⟨0, 0, 0, 0, 0, o.losses⟩)
          else (nonfiniteCode f o.v, Counts.one false false false true o.losses)
        | none => (0, Counts.one true false false false o.losses)

/-- The exponent of the top of a scaled format: emax of R77. -/
def fmtEmax : Nat → Int
  | 2 => 8 | 3 => 15 | 4 => 2 | 6 => 2 | _ => 0

/-- The largest magnitude of a scaled format for the sign of the element (R77). -/
def fmtLimit (f : Nat) (neg : Bool) : Rat :=
  match f with
  | 2 => 448 | 3 => 57344 | 4 => 6 | 6 => if neg then 8 else 7 | _ => 1

/-- A finite value after division by its block's scale, rounded to the element format and limited to its range (R77): its code,
whether it was limited, and whether it is written as zero. Whether an element exceeds the range of its format, as counts where the exponent
is cut at 127, is judged of its rounded magnitude (DESIGN CHOICE, log entry 85). -/
def encodeScaled (f : Nat) (r : Rnd) (v : Num) : Nat × Bool × Bool :=
  let neg := v.isNeg
  let m := match fmtFloat f with
    | some ff => ff.round r (absQ v.q)
    | none => (((r.steps (absQ v.q) : Nat) : Int) : Rat)
  let lim := decide (fmtLimit f neg < m)
  let m' := if lim then fmtLimit f neg else m
  let code := match f with
    | 5 => if m' = 0 then 0 else if neg then 3 else 1
    | 6 => unsigned 4 (if neg then -(floorAbs m' : Int) else floorAbs m')
    | _ =>
      match fmtFloat f with
      | some ff => if f == 4 && decide (m' = 0) then 0 else (if neg then ff.signBit else 0) + ff.fields m'
      | none => 0
  (code, lim, decide (m' = 0))

/-- The code of a zero in a scaled format: scaled FP8 keeps the sign of a zero that is passed through, and the others have one zero (R479). -/
def zeroCode (f : Nat) (v : Num) : Nat :=
  match fmtFloat f with
  | some ff => if f ≠ 4 ∧ v.isNeg = true then ff.signBit else 0
  | none => 0

/-- The scale exponent that R77 chooses for a largest finite magnitude, and whether it was cut at 127. -/
def chooseExp (f : Nat) (amax : Rat) : Int × Bool :=
  let e := floorLog2 amax - fmtEmax f
  (if 127 < e then 127 else if e < -127 then -127 else e, decide (127 < e))

/-- The largest magnitude over the finite values of a list, 0 when there is none. -/
def amaxOf (vs : List Num) : Rat := vs.foldl (fun m v => if v.isFinite then max m (absQ v.q) else m) 0

/-- How the scale of a block is set: chosen by R77, kept as it is (QMODE 1), or one exponent shared by the tensor (QMODE 2,
`none` when its largest magnitude is 0). -/
inductive ScaleMode where
  | choose
  | keep (scale : Nat)
  | share (e : Option (Int × Bool))
  deriving DecidableEq, Repr

/-- The codes of a block, its scale byte, and its counts (R76, R77, R126). `rs` holds the rounding of each element. Every element enters
the block's scale byte, so one poisoned element poisons the whole block, which then counts in ELEMENTS alone (Table 11.2). -/
def encodeBlock (f : Nat) (mode : ScaleMode) (rs : List Rnd) (os : List OutElt) : List Nat × Nat × Counts :=
  let losses := (os.map (·.losses)).sum
  let n := os.length
  let zeros := os.map fun _ => 0
  if os.any (·.poison) then (zeros, 0x7F, ⟨n, 0, 0, 0, 0, 0⟩)
  else if os.any fun o => !o.v.isFinite then (zeros, 255, ⟨n, 0, 0, 0, n, losses⟩)
  else
    let ec : Option (Int × Bool) := match mode with
      | .choose => let amax := amaxOf (os.map (·.v)); if amax = 0 then none else some (chooseExp f amax)
      | .keep s => if s = 255 then none else some ((s : Int) - 127, true)
      | .share e => e
    match ec with
    | none =>
      match mode with
      | .keep _ => (zeros, 255, ⟨n, 0, 0, 0, n, losses⟩)
      | _ => (os.map fun o => zeroCode f o.v, 0x7F, ⟨n, n, 0, 0, 0, losses⟩)
    | some (e, cut) =>
      let one := fun (p : Rnd × OutElt) =>
        let (code, lim, z) := encodeScaled f p.1 (p.2.v.scale (-e))
        (code, Counts.one z (lim && cut) (z && !p.2.v.isZero) false p.2.losses)
      let cs := (rs.zip os).map one
      (cs.map (·.1), (e + 127).toNat, (cs.map (·.2)).foldl Counts.add ⟨0, 0, 0, 0, 0, 0⟩)

/-- Codes of `w` bits packed from the low end (R55). -/
def packCodes (w : Nat) : List Nat → Nat
  | [] => 0
  | c :: cs => c % 2 ^ w + 2 ^ w * packCodes w cs

end Sys2Proof.Machine
end

