-- ==== Sys2Proof/Machine/Window.lean ====
section
/-! DEFINITION. The exact window of a product (R64–R71) and the sums of R123, and the C3 dot product (R99). -/

namespace Sys2Proof.Machine

/-- The format constant c of Table 3.4. -/
def fmtC : Nat → Int
  | 4 => 13 | 6 => 14 | 5 => 8 | 2 => 25 | 3 => 39 | _ => 9

/-- A block pair: eA + eB, `none` when R65 excludes the pair from the anchor, and its element pairs. -/
structure BlockPair where
  e : Option Int
  elems : List (Num × Num)
  deriving DecidableEq, Repr

/-- The derived block exponent of a BF16 or FP32 block (R64). -/
def derivedExp (vs : List Num) : Option Int :=
  vs.foldl (fun m v =>
    if v.isFinite && !v.isZero then
      let e := floorLog2 v.q
      match m with
      | none => some e
      | some x => some (max x e)
    else m) none

/-- The block exponent of one side (R64): the scale's, or derived; `none` for a NaN scale or no finite nonzero element. -/
def blockExp (f scale : Nat) (vs : List Num) : Option Int :=
  if fmtDerived f then derivedExp vs else if scale = 255 then none else some ((scale : Int) - 127)

/-- The sum of two block exponents, `none` when either is missing. -/
def expSum : Option Int → Option Int → Option Int
  | some a, some b => some (a + b)
  | _, _ => none

/-- The anchor of R65 over the exponents of all block pairs. -/
def anchorOf (f nb : Nat) (es : List (Option Int)) : Int :=
  match es.foldl (fun m e => match m, e with
    | none, e => e
    | some x, some y => some (max x y)
    | some x, none => some x) none with
  | none => 0
  | some m => m + fmtC f + ceilLog2 nb

/-- One exact term at an anchor: what enters V, and whether bits were discarded (R67, R68). -/
def windowTerm (anchor : Int) (x : Rat) : Int × Bool :=
  let t := x * pow2 (161 - anchor)
  (truncQ t, !isWhole t)

/-- What one block pair adds (R67, R68): to V, whether it counts a window loss, and its class (R70). A scaled or FP8 pair enters
as one exact sum, a BF16 or FP32 pair product by product. -/
def windowPair (f : Nat) (anchor : Int) (p : BlockPair) : Int × Bool × NfClass :=
  let prods := p.elems.map fun ab => ab.1.mul ab.2
  let cls := prods.foldl (fun c v => c.combine v.cls) .none
  if fmtDerived f then
    prods.foldl (fun (st : Int × Bool × NfClass) v =>
      let (k, l) := windowTerm anchor v.q
      (st.1 + k, st.2.1 || l, st.2.2)) (0, false, cls)
  else
    let (k, l) := windowTerm anchor ((prods.map Num.q).sum)
    (k, l, cls)

/-- The window of a list of block pairs at an anchor: its WIDE160 and its window losses (R66–R71). -/
def windowAt (f : Nat) (anchor : Int) (pairs : List BlockPair) : Spill :=
  pairs.foldl (fun sp p =>
    let (k, l, c) := windowPair f anchor p
    { w := { sp.w with v := sp.w.v + k, cls := sp.w.cls.combine c, sticky := sp.w.sticky || l, loss := sp.w.loss || l },
      losses := sp.losses + (if l then 1 else 0) })
    { w := { W160.zero with anchor := anchor }, losses := 0 }

/-- The window of a whole reduction of `nb` block pairs. -/
def windowOf (f nb : Nat) (pairs : List BlockPair) : Spill :=
  windowAt f (anchorOf f nb (pairs.map (·.e))) pairs

/-- Two spill records added (R73, R115). -/
def Spill.add (a b : Spill) : Spill :=
  let (w, l) := a.w.add b.w
  ⟨w, a.losses + b.losses + l⟩

/-- The exact sum of terms by R123: anchor e* + 3 + ceil(log2 n), one window loss for each term that leaves a remainder. -/
def exactSum (n : Nat) (terms : List Num) : Spill :=
  let anchor := match derivedExp terms with
    | none => 0
    | some e => e + 3 + ceilLog2 n
  terms.foldl (fun sp v =>
    let (k, l) := windowTerm anchor v.q
    { w := { sp.w with v := sp.w.v + k, cls := sp.w.cls.combine v.cls, sticky := sp.w.sticky || l, loss := sp.w.loss || l },
      losses := sp.losses + (if l then 1 else 0) })
    { w := { W160.zero with anchor := anchor }, losses := 0 }

/-- A subnormal binary32 value becomes the zero of its sign (R99). -/
def flush32 (x : Num) : Num :=
  match x with
  | .fin v => if v ≠ 0 ∧ absQ v < pow2 (-126) then (if v < 0 then .negZero else .fin 0) else x
  | v => v

/-- IEEE 754 addition's exact result with the sign of a zero: −0 only when both are −0. -/
def ieeeAdd (a b : Num) : Num :=
  match a, b with
  | .negZero, .negZero => .negZero
  | a, b => a.add b

/-- IEEE 754 multiplication's exact result with the sign of a zero. -/
def ieeeMul (a b : Num) : Num :=
  if a.isFinite && b.isFinite && (a.isZero || b.isZero) then (if a.isNeg != b.isNeg then .negZero else .fin 0) else a.mul b

/-- `fl` of R99: binary32 at nearest even, then the flush. -/
def c3fl (x : Num) : Num := flush32 (fl32 x)

/-- The elements of a list in chunks of `n`, the last one shorter. `fuel` bounds the number of chunks. -/
def chunks {α : Type} (n : Nat) : Nat → List α → List (List α)
  | 0, _ => []
  | _, [] => []
  | fuel + 1, l => l.take n :: chunks n fuel (l.drop n)

/-- The C3 dot product of R99, before the conversion to the output format, and whether the flush of its last addition made it
zero (R100). -/
def c3dot (elems : List (Num × Num)) : Num × Bool :=
  (chunks 8 elems.length elems).foldl (fun acc ch =>
    let p := fun (i : Nat) => match ch[i]? with
      | some (a, b) => c3fl (ieeeMul (flush32 a) (flush32 b))
      | none => .fin 0
    let add := fun a b => c3fl (ieeeAdd a b)
    let s := add (add (add (p 0) (p 1)) (add (p 2) (p 3))) (add (add (p 4) (p 5)) (add (p 6) (p 7)))
    (add acc.1 s, !(fl32 (ieeeAdd acc.1 s)).isZero && (add acc.1 s).isZero)) (.fin 0, false)

/-- A C3 output in its format (R99, R100): the code and the counts; every flushed output counts as an underflow. -/
def c3encode (f : Nat) (acc : Num) (flushed : Bool) : Nat × Counts :=
  let out := if f = 1 then
      match FloatFmt.bf16.ieee acc with
      | .fin v => if v ≠ 0 ∧ absQ v < pow2 (-126) then (if v < 0 then Num.negZero else .fin 0) else .fin v
      | v => v
    else acc
  let ff := if f = 1 then FloatFmt.bf16 else FloatFmt.f32
  if out.isFinite then
    ((if out.isNeg then ff.signBit else 0) + ff.fields (absQ out.q),
     Counts.one out.isZero false (flushed || (out.isZero && !acc.isZero)) false 0)
  else (nonfiniteCode f out, Counts.one false false false true 0)

end Sys2Proof.Machine
end

