-- ==== Sys2Proof/Machine/Operands.lean ====
section
/-! DEFINITION. Packet headers, parameter blocks and tensor descriptors: their fields, their checks (R129–R138, R155, R156),
how elements are read through them, and how outputs are stored through an owned window (R140–R142). -/

namespace Sys2Proof.Machine

/-- A little-endian field of a byte list. -/
def fieldAt (bs : List Byte) (off w : Nat) : Nat := leNat ((bs.drop off).take w)

/-- The header of a slot (Table 2.3). -/
def Header.parse (b : List Byte) : Header :=
  { opcode := fieldAt b 0 2, flags := fieldAt b 2 2, seq := fieldAt b 4 4, tag := fieldAt b 8 4, paramLen := fieldAt b 12 2,
    ctx := fieldAt b 14 1, wait0Ctr := fieldAt b 16 2, wait1Ctr := fieldAt b 18 2, sigCtr := fieldAt b 20 2,
    wait0Val := fieldAt b 24 8, wait1Val := fieldAt b 32 8, sigInc := fieldAt b 40 8, paramPtr := fieldAt b 48 8 % 2 ^ 52 }

/-! Descriptors (Table 6.1). -/

/-- A descriptor as its 128 bytes say, extents unresolved and no CSR header read. Fields of dimensions beyond RANK are taken as
R130 states. -/
def Desc.parse (b : List Byte) : Desc :=
  let rank := fieldAt b 10 1
  let dim := fun (k : Nat) (v dflt : Nat) => if k < rank then v else dflt
  { base := fieldAt b 0 8 % 2 ^ 52, fmt := fieldAt b 8 1 % 16, kind := fieldAt b 9 1, rank := rank,
    scaledBit := (fieldAt b 11 1).testBit 0, shape := fieldAt b 12 1 % 32, watch := fieldAt b 14 2,
    extRaw := (List.range 5).map fun k => dim k (fieldAt b (0x10 + 4 * k) 4) 1,
    scaleStride := fieldAt b 0x24 4,
    stride := (List.range 5).map fun k => if k = 0 ∨ rank ≤ k then 0 else signed 64 (fieldAt b (0x20 + 8 * k) 8),
    scalePtr := fieldAt b 0x48 8 % 2 ^ 52, idx0 := fieldAt b 0x50 8 % 2 ^ 52, idx1 := fieldAt b 0x58 8 % 2 ^ 52,
    indexBase := fieldAt b 0x60 8 % 2 ^ 48,
    trimLo := (List.range 5).map fun k => dim k (fieldAt b (0x68 + 2 * k) 2) 0,
    trimHi := (List.range 5).map fun k => dim k (fieldAt b (0x72 + 2 * k) 2) 0,
    ext := [1, 1, 1, 1, 1], csrCapacity := 0, csrNnz := 0, csrGen := 0 }

/-- A descriptor that names nothing, for a pointer through which the snapshot did not read. -/
def Desc.empty : Desc :=
  { base := 0, fmt := 0, kind := 0, rank := 1, scaledBit := false, shape := 0, watch := 0xFFFF, extRaw := [0, 1, 1, 1, 1],
    scaleStride := 0, stride := [0, 0, 0, 0, 0], scalePtr := 0, idx0 := 0, idx1 := 0, indexBase := 0,
    trimLo := [0, 0, 0, 0, 0], trimHi := [0, 0, 0, 0, 0], ext := [0, 1, 1, 1, 1], csrCapacity := 0, csrNnz := 0, csrGen := 0 }

/-- Element width in bits. -/
def Desc.w (d : Desc) : Nat := fmtBits d.fmt

/-- Whether the tensor carries a scale array (R62, R132). -/
def Desc.isScaled (d : Desc) : Bool := fmtAlwaysScaled d.fmt || (fmtIsFp8 d.fmt && d.scaledBit)

/-- Extent of dimension `k` (R133). -/
def Desc.e (d : Desc) (k : Nat) : Nat := d.ext[k]?.getD 1

/-- Stride of dimension `k`. -/
def Desc.st (d : Desc) (k : Nat) : Int := d.stride[k]?.getD 0

/-- The number of logical elements. -/
def Desc.total (d : Desc) : Nat := d.e 0 * d.e 1 * d.e 2 * d.e 3 * d.e 4

/-- The number of outer coordinates. -/
def Desc.outer (d : Desc) : Nat := d.e 1 * d.e 2 * d.e 3 * d.e 4

/-- The coordinates of a row-major position, innermost fastest. -/
def Desc.coords (d : Desc) (n : Nat) : List Nat :=
  [n % d.e 0, n / d.e 0 % d.e 1, n / d.e 0 / d.e 1 % d.e 2, n / d.e 0 / d.e 1 / d.e 2 % d.e 3,
   n / d.e 0 / d.e 1 / d.e 2 / d.e 3]

/-- The row-major position of coordinates. -/
def Desc.flat (d : Desc) (c : List Nat) : Nat :=
  let i := fun (k : Nat) => (c)[k]?.getD 0
  (((i 4 * d.e 3 + i 3) * d.e 2 + i 2) * d.e 1 + i 1) * d.e 0 + i 0

/-- The bit address of the element at coordinates (R131). -/
def Desc.bitAddr (d : Desc) (c : List Nat) : Nat :=
  let i := fun (k : Nat) => (((c)[k]?.getD 0 : Nat) : Int)
  ((d.base : Int) + i 1 * d.st 1 + i 2 * d.st 2 + i 3 * d.st 3 + i 4 * d.st 4).toNat * 8 + ((c)[0]?.getD 0) * d.w

/-- The address of the scale byte of the element at coordinates (R61). -/
def Desc.scaleAddr (d : Desc) (c : List Nat) : Nat :=
  let i := fun (k : Nat) => (c)[k]?.getD 0
  d.scalePtr + (((i 4 * d.e 3 + i 3) * d.e 2 + i 2) * d.e 1 + i 1) * d.scaleStride + i 0 / 32

/-- A value of an N:M row has this many positions (Table 7.3): group m, values n, position bits b. -/
def nmShape (kind : Nat) : Nat × Nat × Nat := if kind = 2 then (4, 2, 2) else if kind = 3 then (4, 1, 2) else (8, 2, 3)

/-- Whether a kind is N:M. -/
def kindIsNm (k : Nat) : Bool := k == 2 || k == 3 || k == 4

/-- Values per row of an N:M tensor (R157). -/
def Desc.vpr (d : Desc) : Nat := let (m, n, _) := nmShape d.kind; d.e 0 / m * n

/-- Column tiles of a CSR tensor. -/
def Desc.ct (d : Desc) : Nat := ceilDiv (d.e 0) 65536

/-- Row entries of a CSR tensor (R150). -/
def Desc.csrEntries (d : Desc) : Nat := ceilDiv (d.e 1) 64 * d.ct * 64

/-- An interval of addresses, half open; an empty region is left out of every list. -/
abbrev Region := Int × Int

/-- The region of the elements of a DENSE descriptor (R136). -/
def Desc.denseRegion (d : Desc) : List Region :=
  if d.total = 0 then []
  else
    let step := fun (r : Region) (k : Nat) =>
      let t := ((d.e k : Int) - 1) * d.st k
      if t < 0 then (r.1 + t, r.2) else (r.1, r.2 + t)
    [([1, 2, 3, 4] : List Nat).foldl step ((d.base : Int), (d.base : Int) + ((d.e 0 * d.w / 8 : Nat) : Int))]

/-- A region of `len` bytes from an address. -/
def regionOf (a len : Nat) : List Region := if len = 0 then [] else [((a : Int), ((a + len : Nat) : Int))]

/-- The region of the scale array (R61, R136, R155). `cap` is the value-slot capacity of a CSR tensor. -/
def Desc.scaleRegion (d : Desc) (cap : Nat) : List Region :=
  if !d.isScaled then []
  else if d.kind = 1 then regionOf d.scalePtr (cap / 32)
  else
    let rows := if d.kind = 0 then d.outer else d.e 1
    let cnt := if d.kind = 0 then ceilDiv (d.e 0) 32 else ceilDiv d.vpr 32
    if rows = 0 ∨ cnt = 0 then [] else regionOf d.scalePtr ((rows - 1) * d.scaleStride + cnt)

/-- Every region of a descriptor: elements or values, scales, and index arrays (R136, R155, R157). -/
def Desc.regions (d : Desc) (cap : Nat) : List Region :=
  if d.kind = 0 then d.denseRegion ++ d.scaleRegion 0
  else if d.kind = 1 then
    regionOf d.base (ceilDiv (cap * d.w) 8) ++ regionOf d.idx0 (64 + 8 * d.csrEntries) ++ regionOf d.idx1 (2 * cap)
      ++ d.scaleRegion cap
  else
    let (_, _, b) := nmShape d.kind
    regionOf d.base (ceilDiv (d.e 1 * d.vpr * d.w) 8) ++ regionOf d.idx0 (ceilDiv (d.e 1 * d.vpr * b) 8) ++ d.scaleRegion 0

/-- Two regions meet. -/
def Region.meets (a b : Region) : Bool := decide (a.1 < b.2) && decide (b.1 < a.2)

/-- A region lies in another. -/
def Region.within (a b : Region) : Bool := decide (b.1 ≤ a.1) && decide (a.2 ≤ b.2)

/-- The trim of dimension 0 of a scaled format, moved to the nearest multiple of 32, midway down (R141). -/
def roundTrim (t : Nat) : Nat := if t % 32 ≤ 16 then t / 32 * 32 else (t / 32 + 1) * 32

/-- TRIM_LO and TRIM_HI of a dimension after R141. -/
def Desc.trims (d : Desc) (k : Nat) : Nat × Nat :=
  let lo := d.trimLo[k]?.getD 0
  let hi := d.trimHi[k]?.getD 0
  if k = 0 ∧ d.isScaled then (roundTrim lo, roundTrim hi) else (lo, hi)

/-- Whether R141 clamps a trim of a written descriptor. -/
def Desc.trimClamped (d : Desc) : Bool :=
  d.isScaled && (decide (roundTrim (d.trimLo[0]?.getD 0) ≠ d.trimLo[0]?.getD 0)
    || decide (roundTrim (d.trimHi[0]?.getD 0) ≠ d.trimHi[0]?.getD 0))

/-- Whether an index lies in the owned window (R140). For a sparse kind the index is (column, row). -/
def Desc.owned (d : Desc) (c : List Nat) : Bool :=
  (List.range d.rank).all fun k =>
    let (lo, hi) := d.trims k
    let i := (c)[k]?.getD 0
    decide (lo ≤ i ∧ i + hi < d.e k)

/-- Two formats are equal by R145: equal codes and, for FP8, both scaled or both not. -/
def Desc.sameFormat (a b : Desc) : Bool := a.fmt == b.fmt && (!fmtIsFp8 a.fmt || a.scaledBit == b.scaledBit)

/-- Two descriptors of the same stored elements (R111): region, strides, extents and format; the scale fields of an unscaled tensor say nothing
(R132). -/
def Desc.sameElements (a b : Desc) : Bool :=
  a.base == b.base && a.sameFormat b && a.kind == b.kind && a.ext == b.ext && a.stride == b.stride
    && (!a.isScaled || (a.scalePtr == b.scalePtr && a.scaleStride == b.scaleStride))

/-- An operand of ELTWISE that may be read element by element before the same element of D is written: every field that R138 lists is equal. -/
def Desc.sameStorage (a b : Desc) : Bool :=
  a.sameElements b && a.rank == b.rank && a.scalePtr == b.scalePtr && a.scaleStride == b.scaleStride

/-! Validation failures (Table 2.5). -/

/-- A failed check: its order key (the step of Table 2.5, then the place within it), the field it names, the status, and the group of a
GROUPED_MATMUL in which the field stands (R236). -/
structure Fail where
  key : Nat
  field : Nat
  status : Nat
  group : Nat
  deriving DecidableEq, Repr

/-- The group of a field of a list: four descriptors a group from 256 on. -/
def fieldGroup (field : Nat) : Nat := (field - 256) / 4

/-- A failure of a field at a step. -/
def failAt (step field status : Nat) : Fail := ⟨step * 4096 + field, field, status, fieldGroup field⟩

/-- A failure when a condition holds. -/
def failIf (b : Bool) (step field status : Nat) : List Fail := if b then [failAt step field status] else []

/-- The failure that validation reports: the first by step and place (R36). -/
def firstFail : List Fail → Option Fail
  | [] => none
  | f :: fs =>
    match firstFail fs with
    | none => some f
    | some g => if g.key < f.key then some g else some f

/-! What a validated packet works on. -/

/-- A packet at work: the state, its partition, the packet and its snapshot. -/
structure Ctx where
  s : State
  p : Nat
  pkt : Packet
  snap : Snap
  deriving Repr

/-- Quarters of the partition. -/
def Ctx.q (c : Ctx) : Nat := c.s.quartersPer

/-- A field of the parameter block. -/
def Ctx.u (c : Ctx) (off w : Nat) : Nat := fieldAt c.snap.params off w

/-- An address field of the parameter block: its 64 bits, so that an address beyond 2^52 lies outside the partition (R129, R136). -/
def Ctx.addr (c : Ctx) (off : Nat) : Nat := c.u off 8

/-- An address field whose table gives its bits 63:52 as reserved (R6). -/
def Ctx.addr52 (c : Ctx) (off : Nat) : Nat := c.u off 8 % 2 ^ 52

/-- An FP32 field. -/
def Ctx.f32 (c : Ctx) (off : Nat) : Num := decodeElt 0 (c.u off 4)

/-- The descriptor that a parameter-block field named, as the snapshot read it. -/
def Ctx.desc (c : Ctx) (f : Nat) : Desc := (c.snap.descs.lookup f).getD Desc.empty

/-- Whether the snapshot read a descriptor for a field. -/
def Ctx.has (c : Ctx) (f : Nat) : Bool := (c.snap.descs.lookup f).isSome

/-- An item that the snapshot read for a field. -/
def Ctx.item (c : Ctx) (f : Nat) : List Byte := (c.snap.items.lookup f).getD []

/-- The rounding group at an offset (Table 3.8). -/
def Ctx.rgroup (c : Ctx) (off : Nat) : RGroup := ⟨c.u off 8, c.u (off + 8) 4, c.u (off + 12) 1⟩

/-- CAP and VALUE of a shape slot as the snapshot read them. -/
def Ctx.slot (c : Ctx) (n : Nat) : Nat × Nat := (c.snap.slots.lookup n).getD (0xFFFFFFFF, 0)

/-- The version entry of a partition. -/
def Part.version (pt : Part) (e : Nat) : VersionEntry := Tbl.get VersionEntry.zero pt.versions e

/-- A partition with one version entry changed. -/
def Part.modVersion (pt : Part) (e : Nat) (f : VersionEntry → VersionEntry) : Part :=
  { pt with versions := Tbl.set VersionEntry.zero pt.versions e (f (pt.version e)) }

/-- The primary regions of an entry (R199). -/
def VersionEntry.primary (v : VersionEntry) : List Region := regionOf v.pri0 v.len0 ++ regionOf v.pri1 v.len1

/-- The second buffers of an entry. -/
def VersionEntry.alternate (v : VersionEntry) : List Region := regionOf v.alt0 v.len0 ++ regionOf v.alt1 v.len1

/-- The valid entries of a partition. -/
def Part.validEntries (pt : Part) : List (Nat × VersionEntry) := pt.versions.filter fun e => e.2.valid

/-- The entry in which a region lies (R201). -/
def Part.entryOf (pt : Part) (r : Region) : Option Nat :=
  (pt.validEntries.find? fun e => e.2.primary.any fun x => r.within x).map (·.1)

/-- An address moved from an entry's primary buffers to those of a version (R199). -/
def VersionEntry.shift (v : VersionEntry) (ver a : Nat) : Nat :=
  if ver % 2 = 0 then a
  else if v.pri0 ≤ a ∧ a < v.pri0 + v.len0 then a - v.pri0 + v.alt0
  else if v.pri1 ≤ a ∧ a < v.pri1 + v.len1 then a - v.pri1 + v.alt1
  else a

/-- An address as the versions of the snapshot place it (R199, R202). -/
def Ctx.shift (c : Ctx) (a : Nat) : Nat :=
  c.snap.versions.foldl (fun a ev =>
    ((c.s.part c.p).version ev.1).shift ev.2 a) a

/-- A descriptor with its value and scale arrays in the buffers of the version that the packet reads. -/
def Ctx.loc (c : Ctx) (f : Nat) : Desc :=
  let d := c.desc f
  if c.snap.versions.isEmpty then d else { d with base := c.shift d.base, scalePtr := c.shift d.scalePtr }

/-! Reading elements. -/

/-- The code of an element at a bit address, and whether it reads as bad. -/
def State.codeAt (s : State) (bit w : Nat) : Nat × Bool :=
  if 8 ≤ w then (s.readNat (bit / 8) (w / 8), s.badIn (bit / 8) (w / 8))
  else ((s.byte (bit / 8)).toNat / 2 ^ (bit % 8) % 2 ^ w, s.badIn (bit / 8) 1)

/-- An element of a tensor: value, whether it reads as bad, its scale byte, and its code. -/
structure Elt where
  v : Num
  bad : Bool
  scale : Nat
  code : Nat
  deriving DecidableEq, Repr

/-- The element of a format at a bit address with its scale byte at an address, when it has one. -/
def State.eltAt (s : State) (f : Nat) (bit : Nat) (scale : Option Nat) : Elt :=
  let (code, bad) := s.codeAt bit (fmtBits f)
  match scale with
  | none => ⟨if fmtIsWide f then (W160.ofBits code).num else decodeElt f code, bad, 127, code⟩
  | some a => let sc := (s.byte a).toNat; ⟨scaledElt f code sc, bad || s.badIn a 1, sc, code⟩

/-- The element of a DENSE descriptor at coordinates. -/
def State.elt (s : State) (d : Desc) (c : List Nat) : Elt :=
  s.eltAt d.fmt (d.bitAddr c) (if d.isScaled then some (d.scaleAddr c) else none)

/-- The TERN elements of code 0b10 at some of a DENSE descriptor's row-major positions (R59). -/
def State.ternAt (s : State) (d : Desc) (ns : List Nat) : Nat :=
  if d.fmt = 5 then (ns.filter fun n => (s.elt d (d.coords n)).code == 2).length else 0

/-- The TERN elements of code 0b10 that a packet reads through a DENSE descriptor, once for each logical element (R59; DEDUCED, log entry 18). -/
def State.ternDense (s : State) (d : Desc) : Nat :=
  s.ternAt d (List.range d.total)

/-! Storing outputs. -/

/-- What a packet stored through one descriptor: its writes, its counts, the elements clipped and the elements written. -/
structure StoreOut where
  writes : List Write
  cnt : Counts
  clipped : Nat
  written : Nat
  deriving DecidableEq, Repr

/-- Nothing stored. -/
def StoreOut.empty : StoreOut := ⟨[], .zero, 0, 0⟩

/-- Two stores one after the other. -/
def StoreOut.add (a b : StoreOut) : StoreOut := ⟨a.writes ++ b.writes, a.cnt.add b.cnt, a.clipped + b.clipped, a.written + b.written⟩

/-- One element stored into an unscaled tensor at a byte address. -/
def storeOne (f : Nat) (r : Rnd) (a : Nat) (o : OutElt) : StoreOut :=
  let (code, cnt) := encodeUnscaled f r o
  ⟨[⟨a, toLe (fmtBits f / 8) code, o.poison⟩], cnt, 0, 1⟩

/-- A block of elements stored at a byte address with its scale byte at another (R77). -/
def storeBlock (f : Nat) (mode : ScaleMode) (rs : List Rnd) (a sa : Nat) (os : List OutElt) : StoreOut :=
  let (codes, sc, cnt) := encodeBlock f mode rs os
  let w := fmtBits f
  let bad := os.any (·.poison)
  let n := ceilDiv (os.length * w) 8
  let writesScale := match mode with | .keep s => bad || sc != s | _ => true
  ⟨⟨a, toLe n (packCodes w codes), bad⟩ :: (if writesScale then [⟨sa, [BitVec.ofNat 8 sc], bad⟩] else []), cnt, 0, os.length⟩

/-- A block moved bit for bit with its scale (R145, R146): what its elements count. -/
def moveBlock (f : Nat) (a sa : Nat) (os : List OutElt) (scale : Nat) (scaleBad : Bool) : StoreOut :=
  let w := fmtBits f
  let codes := os.map fun o => o.raw.getD 0
  let bad := scaleBad || os.any (·.poison)
  let n := ceilDiv (os.length * w) 8
  let one := fun (o : OutElt) =>
    if o.poison || scaleBad then Counts.poisoned
    else if scale = 255 then Counts.one false false false true 0
    else let v := decodeElt f (o.raw.getD 0); Counts.one v.isZero false false (!v.isFinite) 0
  ⟨[⟨a, toLe n (packCodes w codes), bad⟩, ⟨sa, [BitVec.ofNat 8 scale], scaleBad⟩],
   (os.map one).foldl Counts.add .zero, 0, os.length⟩

/-- Every element of a DENSE tensor stored (R140–R142): `val` gives the output at each row-major position, `none` where none is
produced; `mode` gives the scale mode of the block at its first position; `moved` gives the scale of a block that is moved
unchanged. A position of a scaled block that is not produced is filled with +0 and counts nowhere (R191). -/
def storeDense (d : Desc) (rg : RGroup) (val : Nat → Option OutElt) (mode : Nat → ScaleMode)
    (moved : Nat → Option (Nat × Bool)) : StoreOut :=
  if d.isScaled then
    let nb := ceilDiv (d.e 0) 32
    let block := fun (b : Nat) =>
      let o := b / nb
      let i0 := b % nb * 32
      let len := min 32 (d.e 0 - i0)
      let n0 := o * d.e 0 + i0
      let vals := (List.range len).map fun i => val (n0 + i)
      let c := d.coords n0
      let made := (vals.filter (·.isSome)).length
      if made = 0 then StoreOut.empty
      else if !d.owned c then ⟨[], .zero, made, 0⟩
      else
        let os := vals.map fun v => v.getD (.ofNum (.fin 0))
        match moved n0 with
        | some (sc, bad) => moveBlock d.fmt (d.bitAddr c / 8) (d.scaleAddr c) os sc bad
        | none =>
          let rs := (List.range len).map fun i => rg.rnd (d.indexBase + n0 + i)
          let st := storeBlock d.fmt (mode n0) rs (d.bitAddr c / 8) (d.scaleAddr c) os
          if made = len then st
          else
            let own := (rs.zip vals).filterMap fun rv => rv.2.map fun o => (rv.1, o)
            { st with cnt := (encodeBlock d.fmt (mode n0) (own.map (·.1)) (own.map (·.2))).2.2, written := made }
    ((List.range (d.outer * nb)).map block).foldr StoreOut.add .empty
  else
    let one := fun (n : Nat) =>
      match val n with
      | none => StoreOut.empty
      | some o =>
        let c := d.coords n
        if d.owned c then storeOne d.fmt (rg.rnd (d.indexBase + n)) (d.bitAddr c / 8) o else ⟨[], .zero, 1, 0⟩
    ((List.range d.total).map one).foldr StoreOut.add .empty

/-- No block is moved unchanged. -/
def noMove : Nat → Option (Nat × Bool) := fun _ => none

/-- Every block chooses its scale by R77. -/
def chooseScale : Nat → ScaleMode := fun _ => .choose

/-- The exponent by which R94 scales what the packet writes through a field; `none` when it scales nothing. -/
def Ctx.g (c : Ctx) (f : Nat) : Option Int := c.snap.gOf.lookup f

/-- An output scaled by R94. -/
def Ctx.scaled (c : Ctx) (f : Nat) (o : OutElt) : OutElt :=
  match c.g f with
  | some g => o.scale g
  | none => o

/-- An element read as its value, a WIDE160 with its anchor, poisoned where it reads as bad. -/
def Elt.asOut (f : Nat) (e : Elt) : OutElt :=
  { OutElt.ofNum e.v with wide := if fmtIsWide f then some (W160.ofBits e.code) else none, poison := e.bad }

/-- An element that is moved bit for bit. -/
def Elt.asMoved (e : Elt) : OutElt := { OutElt.ofNum e.v with raw := some e.code, poison := e.bad }

/-- An element of a format moved through the descriptor of a field: bit for bit, or rounded times 2^g where R94 scales what the field writes. -/
def Ctx.moved (c : Ctx) (f fmt : Nat) (e : Elt) : OutElt :=
  if (c.g f).isNone then e.asMoved else c.scaled f (e.asOut fmt)

/-- The counts that a store adds to the watch slot of a field's descriptor (R87, R88). -/
def Ctx.watchDelta (c : Ctx) (f : Nat) (st : StoreOut) : List WatchDelta :=
  let d := c.desc f
  if d.watch = 0xFFFF then []
  else [⟨d.watch, st.cnt.elements, st.cnt.zeros, st.cnt.sats, st.cnt.unfs, st.cnt.nonfin, st.cnt.losses, c.g f⟩]

/-- The window-loss note of a packet (R69). -/
def lossNote (losses : Nat) : List Nat := if losses = 0 then [] else [OK_WINDOW_LOSS]

/-! The intervals that a packet reads. -/

/-- Regions as intervals of addresses. -/
def spans (rs : List Region) : List (Nat × Nat) := rs.map fun r => (r.1.toNat, (r.2 - r.1).toNat)

/-- The intervals of the rows of a DENSE tensor and of its scales, as its elements are read. -/
def Desc.spans (d : Desc) : List (Nat × Nat) :=
  if d.total = 0 then []
  else
    let rows := (List.range d.outer).map fun o => d.coords (o * d.e 0)
    (rows.map fun c => (d.bitAddr c / 8, d.e 0 * d.w / 8))
      ++ (if d.isScaled then rows.map fun c => (d.scaleAddr c, ceilDiv (d.e 0) 32) else [])

end Sys2Proof.Machine
end

