-- ==== Sys2Proof/Machine/Routes.lean ====
section
/-! DEFINITION. The mesh of the on-die fabric: its routers, what attaches to them, and the routes of messages (R287–R290, R299). -/

namespace Sys2Proof

/-! Routers (R287). -/

/-- The number of router (h, r, c), by which the error log names it (Table 18.3). -/
def routerAt (h r c : Nat) : Nat := 64 * h + 4 * r + c

/-- The half of a router. -/
def routerHalf (n : Nat) : Nat := n / 64

/-- The row of a router: the bench of its half whose arrays it serves. -/
def routerRow (n : Nat) : Nat := n % 64 / 4

/-- The column of a router: 0 next to the seam. -/
def routerCol (n : Nat) : Nat := n % 4

/-- The quarter of a router: rows 0–7 of a half are its north quarter. -/
def routerQuarter (n : Nat) : Nat := 2 * routerHalf n + routerRow n / 8

/-- The array that a router serves at its port `b` (R287), by which its slice is numbered too. -/
def routerArray (n b : Nat) : Nat := 128 * routerHalf n + 8 * routerRow n + 2 * routerCol n + b

/-! Messages, flits and links (R288, R291). -/

/-- The channel of a kind of message (Table 12.2). -/
def Traffic.vc : Traffic → Nat
  | .read | .write | .atomic => 0
  | .readData | .writeAck | .atomicResult => 1
  | .linkRead | .linkWrite | .linkReply => 2
  | .barrier | .epoch | .heartbeat | .errorReport | .doorbell | .register => 3

/-- The router at a link's receiving end, or at which the link leaves for its unit. -/
def FabricLink.router : FabricLink → Nat
  | .mesh n _ | .unit n _ => n
  | .crossing p toWest => routerAt (if toWest then 1 else 0) (p / 4) 0

/-- Whether a message is an answer, which no requester waits to complete (DEDUCED, log entry 106: every other message is a request of R303). -/
def Traffic.response : Traffic → Bool
  | .readData | .writeAck | .atomicResult | .linkReply => true
  | _ => false

/-- Whether a link comes in at a router's port. -/
def FabricLink.isPort : FabricLink → Bool
  | .unit _ _ => false
  | _ => true

/-- The port of a router at which a link's flits come in. -/
def FabricLink.inPort : FabricLink → Nat
  | .mesh _ p | .unit _ p => p
  | .crossing p _ => 6 + p % 4

/-- The flits that a link's port takes or gives in a cycle of its clock (R288): one at a slice's port and at a crossing port, else eight. A dual-clock
queue of eight flits a cycle reads as many at an edge (DEDUCED, log entry 105). -/
def FabricLink.flitsPerCycle : FabricLink → Nat
  | .mesh _ p | .unit _ p => if p < 2 then 1 else 8
  | .crossing _ _ => 1

/-- The granules that a message has still to access, once `n` are done. -/
def FabricMsg.granules (m : FabricMsg) (n : Nat) : List Nat :=
  ((List.range ((m.addr % 64 + m.len + 63) / 64)).map fun i => m.addr / 64 + i).drop n

/-- A flit's channel: that of its message, from source to destination (R291). -/
def FabricFlit.vc (f : FabricFlit) : Nat := f.msg.kind.vc

end Sys2Proof

namespace Sys2Proof.Machine

/-! Attachments (R288, R289). -/

/-- A unit that attaches to the mesh: an array's slice, a stack through one of its pseudo-channels, a sump channel, a Lanug port, a dual-mode port
with the host bridge, an ingest front, the always-on domain, the snapshot store's controller, a haul engine or a dressing engine. -/
inductive FabUnit where
  | slice (n : Nat)
  | hbm (stack pc : Nat)
  | sump (channel : Nat)
  | lanug (n : Nat)
  | dual (n : Nat)
  | ingest (quarter : Nat)
  | aon (half : Nat)
  | snapshot (half : Nat)
  | haul (n : Nat)
  | dressing (n : Nat)
  deriving DecidableEq, Repr

/-- Where a unit attaches (Table 12.1; the engines' numbers are those of R457). -/
def FabUnit.attach : FabUnit → Attach
  | .slice n => ⟨routerAt (n / 128) (n % 128 / 8) (n % 8 / 2), n % 2⟩
  | .hbm st pc => ⟨routerAt (st / 4) (4 * (st % 4) + pc % 4) 3, 6⟩
  | .sump ch => ⟨routerAt (ch / 4) (4 * (ch % 4)) 3, 7⟩
  | .lanug n => ⟨routerAt (n / 8) (2 * (n % 8)) 3, 8⟩
  | .dual n => ⟨routerAt (n / 2) (1 + 8 * (n % 2)) 3, 8⟩
  | .ingest q => ⟨routerAt (q / 2) (3 + 8 * (q % 2)) 3, 8⟩
  | .aon h => ⟨routerAt h 7 3, 9⟩
  | .snapshot h => ⟨routerAt h 8 3, 9⟩
  | .haul n => ⟨routerAt (n / 32) (n % 32 / 2) (1 + n % 2), 6⟩
  | .dressing n => ⟨routerAt (n / 8) (8 * (n % 8 / 4) + n % 4) 1, 7⟩

/-- The unit at a router's port, if one attaches there: a stack by the pseudo-channel that is the row's number within the stack. Ports 6–9 of
column 0 are crossing ports. -/
def unitAt (a : Attach) : Option FabUnit :=
  let h := routerHalf a.router
  let r := routerRow a.router
  let c := routerCol a.router
  match a.port with
  | 0 | 1 => some (.slice (routerArray a.router a.port))
  | 6 => if c = 0 then none else if c = 3 then some (.hbm (4 * h + r / 4) (r % 4)) else some (.haul (32 * h + 2 * r + c - 1))
  | 7 => if c = 1 ∧ r % 8 < 4 then some (.dressing (8 * h + 4 * (r / 8) + r % 8)) else if c = 3 ∧ r % 4 = 0 then some (.sump (4 * h + r / 4)) else none
  | 8 =>
    if c ≠ 3 then none
    else if r % 2 = 0 then some (.lanug (8 * h + r / 2))
    else if r % 8 = 1 then some (.dual (2 * h + r / 8))
    else if r % 8 = 3 then some (.ingest (2 * h + r / 8))
    else none
  | 9 => if c = 3 ∧ r = 7 then some (.aon h) else if c = 3 ∧ r = 8 then some (.snapshot h) else none
  | _ => none

/-- Whether a router's port is connected to a link of the mesh or a unit (R288, Table 12.1); port 3 of router (h, 15, c) and the like are not. -/
def meshLink (router port : Nat) : Bool :=
  decide (router < 128) &&
    (match port with
    | 2 => decide (0 < routerRow router)
    | 3 => decide (routerRow router < 15)
    | 4 => decide (0 < routerCol router)
    | 5 => decide (routerCol router < 3)
    | _ => (unitAt ⟨router, port⟩).isSome)

/-- The unit of memory that holds an address, with its pseudo-channel (R248). -/
def State.memUnit (s : State) (a : Nat) : Option FabUnit :=
  (s.localOf a).map fun x =>
    match x with
    | (.scratchpad, u, _) => .slice u
    | (.hbm, u, off) => .hbm u (off / 4096 % 64)
    | (.sump, u, _) => .sump u

/-! Routes (R290). -/

/-- The link from a router towards a row of its column: its neighbour's input port. -/
def vertical (n row : Nat) : FabricLink := if routerRow n < row then .mesh (n + 4) 2 else .mesh (n - 4) 3

/-- The link from a router towards a column of its row. -/
def horizontal (n col : Nat) : FabricLink := if routerCol n < col then .mesh (n + 1) 4 else .mesh (n - 1) 5

/-- The crossing port of a row that stands for its `k`-th: the `k`-th itself, or what R299 moves its traffic to when that is retired, and so on around
the row (DEDUCED, log entry 103). -/
def State.crossingPort (s : State) (row k : Nat) : Option Nat :=
  ((List.range 4).map fun i => 4 * row + (k + i) % 4).find? fun p => !s.crossingsRetired.contains p

/-- The link by which a message leaves a router (R290): column first or, for a response, row first; across the seam from column 0 of the row in
which it crosses. None where every crossing port of that row is retired. -/
def State.nextLink (s : State) (vc : Nat) (src dst : Attach) (n : Nat) : Option FabricLink :=
  let h := routerHalf dst.router
  let r := routerRow dst.router
  let c := routerCol dst.router
  if vc ≠ 1 ∧ routerRow n ≠ r then some (vertical n r)
  else if routerHalf n ≠ h then
    if routerCol n ≠ 0 then some (horizontal n 0)
    else (s.crossingPort (routerRow n) (routerCol src.router + c)).map fun p => .crossing p (h == 1)
  else if routerCol n ≠ c then some (horizontal n c)
  else if routerRow n ≠ r then some (vertical n r)
  else some (.unit n dst.port)

/-- The links of a message from a router on, to its unit: at most `fuel` of them. -/
def State.linksFrom (s : State) (vc : Nat) (src dst : Attach) : Nat → Nat → Option (List FabricLink)
  | 0, _ => none
  | fuel + 1, n =>
    match s.nextLink vc src dst n with
    | none => none
    | some (.unit r p) => some [.unit r p]
    | some l => (s.linksFrom vc src dst fuel l.router).map (l :: ·)

/-- The route of a message (R290): the link from its source into the mesh, the mesh hops with the crossing among them, and the link out to its
destination. No path is longer than 15 + 3 hops, a crossing and 3 hops more. -/
def State.route (s : State) (vc : Nat) (src dst : Attach) : Option (List FabricLink) :=
  (s.linksFrom vc src dst 23 src.router).map (.mesh src.router src.port :: ·)

/-! Failed links (R299). -/

/-- The links that have failed, a retired crossing port's apart, whose traffic moves. -/
def State.failedLinks (s : State) : List FabricLink :=
  (s.fabric.filter fun x => x.failed && (match x.link with | .crossing _ _ => false | _ => true)).map (·.link)

/-- Whether a message cannot reach its destination: a link of its route has failed, or no crossing port of its row is left. -/
def State.routeFails (s : State) (vc : Nat) (src dst : Attach) : Bool :=
  match s.route vc src dst with
  | none => true
  | some ls => ls.any s.failedLinks.contains

/-- What carries a packet's accesses (R44, R108, R144, R256, R353): its arrays with the haul engines of the partition, these alone, its dressing
engines, its ingest fronts, or the Syten controller. -/
inductive Carriers where
  | arrays (leaves : List Nat)
  | haul
  | dressing
  | ingest
  | controller
  deriving DecidableEq, Repr

/-- The haul engines of some quarters (R457). -/
def haulEngines (qs : List Nat) : List FabUnit := qs.flatMap fun q => (List.range 16).map fun i => .haul (16 * q + i)

/-- The units that carry accesses in the quarters of a partition. -/
def Carriers.units (qs : List Nat) : Carriers → List FabUnit
  | .arrays leaves => leaves.map FabUnit.slice ++ haulEngines qs
  | .haul => haulEngines qs
  | .dressing => qs.flatMap fun q => (List.range 4).map fun i => .dressing (4 * q + i)
  | .ingest => qs.map .ingest
  | .controller => [.aon 0, .aon 1]

/-- Whether the access to the granule of an address meets no failed link: its request and its response run between the memory's unit and one
of the units that carry it, and the manual does not say which (log entry 8). -/
def State.accessPasses (s : State) (v : Carriers) (a : Nat) : Bool :=
  match s.memUnit a, s.ownerOf a with
  | some m, some p =>
    match v.units (s.quarters p) with
    | [] => true
    | u :: us =>
      let e := ((u :: us)[Config.carrier a % (us.length + 1)]?).getD u
      !(s.routeFails 0 e.attach m.attach || s.routeFails 1 m.attach e.attach)
  | _, _ => true

/-- Whether an access to an interval meets no failed link (R299). With the mesh whole there is nothing to look at. -/
def State.passes (s : State) (v : Carriers) (a len : Nat) : Bool :=
  (s.failedLinks.isEmpty && s.crossingsRetired.isEmpty)
    || (List.range ((a % 4096 + len + 4095) / 4096)).all fun i => s.accessPasses v (if i = 0 then a else (a / 4096 + i) * 4096)

end Sys2Proof.Machine
end

