-- ==== Sys2Proof/Machine/Spec.lean ====
section
/-! DEFINITION. What every opcode tells the ring machinery (its code, classes, parameter length, pointers, checks, clamps and
working buffers), the checks that opcodes share (Table 2.5, R116, R129–R138, R200–R204), and the leaf list of an engine. -/

namespace Sys2Proof.Machine

/-! Engines (R116, R127). -/

/-- Whether an array is in service: neither a spare in reserve nor retired (R12). -/
def State.inService (s : State) (a : Nat) : Bool := !s.reserve.contains a && !s.retired.contains a

/-- The arrays in service of a partition, ascending: the leaves of its whole gang. -/
def State.serving (s : State) (p : Nat) : List Nat :=
  ((List.range (64 * s.quartersPer)).map (64 * p + ·)).filter s.inService

/-- The members of a gang that is formed. -/
def Part.gang (pt : Part) (n : Nat) : Option (List Nat) := List.lookup n pt.gangs

/-- The leaf list of a handle, depth first (R114); `fuel` bounds the depth of nesting (R13). -/
def leavesOf (s : State) (p : Nat) : Nat → Nat → List Nat
  | 0, _ => []
  | fuel + 1, h =>
    if h < 0x100 then (if s.inService h then [h] else [])
    else if h = 0x200 then s.serving p
    else
      match (s.part p).gang (h - 0x100) with
      | some ms => ms.flatMap (leavesOf s p fuel)
      | none => []

/-- The leaf list of an engine handle. -/
def State.leaves (s : State) (p h : Nat) : List Nat := leavesOf s p 6 h

/-- The depth of a handle (R117). -/
def depthOf (s : State) (p : Nat) : Nat → Nat → Nat
  | 0, _ => 0
  | fuel + 1, h =>
    if h < 0x100 then 0
    else if h = 0x200 then 1
    else
      match (s.part p).gang (h - 0x100) with
      | some ms => 1 + (ms.map (depthOf s p fuel)).foldl max 0
      | none => 0

/-- The check of an engine handle (Table 5.6): a status when it fails. -/
def State.engineStatus (s : State) (p h : Nat) : Option Nat :=
  let q := s.quartersPer
  if h < 0x100 then
    if h / 64 < p ∨ p + q ≤ h / 64 then some ERR_PARTITION
    else if s.inService h then none else some ERR_DESCRIPTOR
  else if h < 0x100 + 64 * q then (if ((s.part p).gang (h - 0x100)).isSome then none else some ERR_DESCRIPTOR)
  else if h < 0x200 then some ERR_PARTITION
  else if h = 0x200 then none
  else some ERR_DESCRIPTOR

/-! Shared checks. -/

/-- An identifier of a resource with `per` instances in each quarter (R41, R86): its failure when it is out of range. -/
def idStatus (q per n : Nat) : Option Nat :=
  if n < per * q then none else if n < per * 4 then some ERR_PARTITION else some ERR_DESCRIPTOR

/-- A failure of a field at step 4 when a check gives one. -/
def failOpt (o : Option Nat) (step field : Nat) : List Fail :=
  match o with
  | some st => [failAt step field st]
  | none => []

/-- The check of an engine field. -/
def Ctx.engineFails (c : Ctx) (field off : Nat) : List Fail := failOpt (c.s.engineStatus c.p (c.u off 2)) 4 field

/-- The check of RMODE in the rounding group at an offset (R78). -/
def Ctx.rmodeFails (c : Ctx) (field off : Nat) : List Fail := failIf (decide (1 < c.u (off + 12) 1)) 4 field ERR_DESCRIPTOR

/-- The rule for a watch field or a watch slot number (R86). -/
def watchStatus (q n : Nat) : Option Nat := if n = 0xFFFF then none else idStatus q 1024 n

/-- The checks of a descriptor's own fields at step 4 (R54, R130, R132, R133, R135, R149, R151, R156). Of several that fail in one descriptor,
the first in the order written here gives the status, the spec ordering operands alone (DESIGN CHOICE, log entry 87). -/
def Ctx.descFails (c : Ctx) (f : Nat) (wr : Bool) : List Fail :=
  let d := c.desc f
  let bad := fun (b : Bool) => failIf b 4 f ERR_DESCRIPTOR
  let slots := (List.range 5).filter fun k => decide (k < d.rank) && d.shape.testBit k
  if !c.has f then []
  else
    bad (decide (10 ≤ d.fmt)) ++ bad (decide (5 ≤ d.kind)) ++ bad (decide (d.rank = 0 ∨ 5 < d.rank))
      ++ bad (d.scaledBit && (d.fmt == 0 || d.fmt == 1 || d.fmt == 7 || d.fmt == 8 || d.fmt == 9))
      ++ bad (decide (d.kind ≠ 0 ∧ d.kind < 5) && decide (d.rank ≠ 2))
      ++ bad (decide (d.kind ≠ 0 ∧ d.kind < 5) && decide (7 ≤ d.fmt))
      ++ bad (d.kind == 1 && decide (d.csrCapacity % 32 ≠ 0))
      ++ bad (d.kind == 2 && decide (d.e 0 % 64 ≠ 0)) ++ bad ((d.kind == 3 || d.kind == 4) && decide (d.e 0 % 128 ≠ 0))
      ++ (slots.flatMap fun k => failOpt (idStatus c.q 4096 ((d.extRaw[k]?.getD 0) % 65536)) 4 f)
      ++ (if wr then failOpt (watchStatus c.q d.watch) 4 f else [])

/-- A stored array or a tensor that a packet reads or writes: the field that names it, whether it is written, its regions, whether
it meets its alignment, and the descriptor of a written DENSE tensor. -/
structure Acc where
  field : Nat
  wr : Bool
  regs : List Region
  aligned : Bool
  dense : Option Desc
  deriving DecidableEq, Repr

/-- Whether a descriptor meets the alignment of R134 (and R156 for the sparse kinds). -/
def Desc.aligned (d : Desc) : Bool :=
  let m := fun (a : Nat) => decide (a % 64 = 0)
  m d.base && (!d.isScaled || m d.scalePtr)
    && (if d.kind = 0 then
          decide (d.e 0 * d.w % 512 = 0) && (List.range d.rank).all fun k => decide (d.st k % 64 = 0)
        else m d.idx0 && (d.kind != 1 || m d.idx1))

/-- The access to a descriptor's arrays; `cap` is the capacity that sizes a CSR (R155). -/
def Ctx.accCap (c : Ctx) (f : Nat) (wr : Bool) (cap : Nat) : List Acc :=
  if c.has f then
    let d := c.desc f
    [⟨f, wr, d.regions cap, d.aligned, if wr && d.kind == 0 then some d else none⟩]
  else []

/-- The access to a descriptor's arrays, a CSR sized by its header. -/
def Ctx.acc (c : Ctx) (f : Nat) (wr : Bool) : List Acc := c.accCap f wr (c.desc f).csrCapacity

/-- The access to a plain array named by a pointer. -/
def accMem (f : Nat) (wr : Bool) (a len align : Nat) : List Acc := [⟨f, wr, regionOf a len, decide (a % align = 0), none⟩]

/-- Whether a written DENSE descriptor is nested (R137). -/
def Desc.nested (d : Desc) : Bool :=
  let ks := (List.range d.rank).filter (0 < ·)
  ks.all (fun k => decide (d.st k ≠ 0))
    && (ks.foldl (fun (st : Bool × Nat) k =>
        if 1 < d.e k then
          let a := (d.st k).natAbs
          (st.1 && decide (st.2 ≤ a), st.2 + (d.e k - 1) * a)
        else st) (true, d.e 0 * d.w / 8)).1

/-- Whether the scale rows of a written descriptor overlap (R61). -/
def Desc.scaleRowsMeet (d : Desc) : Bool :=
  d.isScaled && d.kind != 1 && decide (1 < (if d.kind = 0 then d.outer else d.e 1))
    && decide (d.scaleStride < (if d.kind = 0 then d.e 0 / 32 else d.vpr / 32))

/-- Whether a region lies in the partition's memory and below 2^52 (R136). -/
def Ctx.regionIn (c : Ctx) (r : Region) : Bool :=
  decide (0 ≤ r.1 ∧ r.2 ≤ (2 ^ 52 : Nat)) && c.s.inMemory c.p r.1.toNat (r.2 - r.1).toNat

/-- The failures of steps 6 to 8 of Table 2.5 over a packet's arrays (R134–R138, R201, R204). `exempt` lists the pairs of fields
whose descriptors may be the same storage, by R138 field for field where `exact`, else by R111; `update` tells an UPDATE or MASKEDIT, which
may write an entry in use. Where two regions meet, the field named is that of the written one, and the later when both are written (DESIGN
CHOICE, log entry 87). -/
def Ctx.accFails (c : Ctx) (accs : List Acc) (exempt : List (Nat × Nat)) (exact update : Bool) : List Fail :=
  let pt := c.s.part c.p
  let flat : List (Nat × Bool × Region) := accs.flatMap fun a => a.regs.map fun r => (a.field, a.wr, r)
  let excused := fun (f g : Nat) =>
    let same := if exact then Desc.sameStorage else Desc.sameElements
    exempt.any fun e => ((e.1 == f && e.2 == g) || (e.1 == g && e.2 == f)) && same (c.desc f) (c.desc g)
  let step6 := flat.flatMap fun (f, _, r) =>
    failIf (!c.regionIn r) 6 f ERR_PARTITION
      ++ failIf (pt.validEntries.any fun e =>
          (e.2.primary.any fun x => Region.meets r x && !(e.2.primary.any fun y => r.within y))
            || e.2.alternate.any fun x => Region.meets r x) 6 f ERR_DESCRIPTOR
  let step7 := accs.flatMap fun a => failIf (!a.aligned) 7 a.field ERR_ALIGN
  let own := accs.flatMap fun a =>
    match a.dense with
    | some d => failIf (!d.nested || d.scaleRowsMeet) 8 a.field ERR_WRITE_ALIAS
    | none => failIf (a.wr && c.has a.field && (c.desc a.field).scaleRowsMeet) 8 a.field ERR_WRITE_ALIAS
  let inUse := flat.flatMap fun (f, wr, r) =>
    failIf (wr && !update && (match pt.entryOf r with
      | some e => decide (0 < (pt.version e).refCur + (pt.version e).refOld)
      | none => false)) 8 f ERR_WRITE_ALIAS
  let idx := (List.range flat.length).zip flat
  let pairs := idx.flatMap fun (i, (f, w, r)) => (idx.drop (i + 1)).flatMap fun (_, (g, v, t)) =>
    failIf ((w || v) && Region.meets r t && !(w != v && excused f g)) 8
      (if w && v then max f g else if w then f else g) ERR_WRITE_ALIAS
  step6 ++ step7 ++ own ++ inUse ++ pairs

/-- The version entries in which a packet's arrays lie (R201). -/
def Part.entriesOf (pt : Part) (accs : List Acc) : List Nat :=
  if pt.validEntries.isEmpty then []
  else dedupNat ((accs.flatMap (·.regs)).filterMap pt.entryOf)

/-! Opcodes. -/

/-- A pointer through which the parameter snapshot reads: its field, address, bytes and alignment (R129). -/
structure Item where
  field : Nat
  addr : Nat
  len : Nat
  align : Nat
  deriving DecidableEq, Repr

/-- A working buffer that a packet reserves before it issues (R255): its bytes, and whether it goes to the sump alone (R15). -/
structure Buffer where
  bytes : Nat
  sumpOnly : Bool
  deriving DecidableEq, Repr

/-- What an opcode tells the ring machinery. `descs` gives the field and offset of each descriptor pointer the snapshot reads,
`produces` the shape slots the packet produces (`producesIn` where their number stands in the partition), `slots` the further slots it reads, `items` the further items it reads, `remote` whether the packet is a remote one (R327). -/
structure OpSpec where
  code : Nat
  classes : List StreamClass
  len : List Byte → Nat
  descs : List Byte → List (Nat × Nat) := fun _ => []
  produces : List Byte → List Nat := fun _ => []
  producesIn : Part → List Byte → List Nat := fun _ _ => []
  slots : List Byte → List Nat := fun _ => []
  items : Ctx → List Item := fun _ => []
  moreDescs : Ctx → List (Nat × Nat) := fun _ => []
  engine : Option Nat := none
  fails : Ctx → List Fail := fun _ => []
  clamps : Ctx → List Nat := fun _ => []
  accs : Ctx → List Acc := fun _ => []
  exempt : List (Nat × Nat) := []
  exact : Bool := false
  late : Ctx → List Fail := fun _ => []
  buffers : Ctx → List Buffer := fun _ => []
  writesEntry : Bool := false
  needsSump : Ctx → Bool := fun _ => false
  remote : Ctx → Bool := fun _ => false

/-- A descriptor pointer that is always given. -/
def ptr (f off : Nat) : List Byte → List (Nat × Nat) := fun _ => [(f, off)]

/-- Descriptor pointers, those of zero meaning "none" left out when they are optional. -/
def ptrs (always optional : List (Nat × Nat)) (b : List Byte) : List (Nat × Nat) :=
  always ++ optional.filter fun fo => decide (fieldAt b fo.2 8 ≠ 0)

/-- The clamp bit of a numeric field that lies outside its range (R37, R38). -/
def clampBit (bit lo hi v : Nat) : List Nat := if lo ≤ v ∧ v ≤ hi then [] else [bit]

/-- Every class. -/
def allClasses : List StreamClass := [.F, .B, .U, .I, .C, .M, .S]

/-! What a packet's work leaves behind. -/

/-- The outcome of a packet's work: the intervals it read, the writes it made, its result, the ACLK cycles it kept each array
busy (R108), the arrays whose residue check failed (R103), and what the banks (R109) and riddles (R171) of arrays then hold. -/
structure WorkOut where
  reads : List (Nat × Nat)
  writes : List Write
  res : Result
  busy : List (Nat × Nat) := []
  mismatched : List Nat := []
  banks : List (Nat × List AccBank) := []
  riddles : List (Nat × List RiddleEntry) := []
  deriving DecidableEq, Repr

/-- A result with codes, two counts and OPFLAGS. -/
def Result.of (codes : List Nat) (count0 count1 opflags : Nat) : Result :=
  { Result.empty with codes := codes, count0 := count0, count1 := count1, opflags := opflags }

/-- Work that reads and writes nothing. -/
def WorkOut.of (r : Result) : WorkOut := { reads := [], writes := [], res := r }

/-- The partition's packet of a reference. -/
def Part.packet (pt : Part) (ring idx : Nat) : Option Packet :=
  pt.packets.find? fun k => k.ring == ring && k.idx == idx

/-- One packet of a partition replaced. -/
def Part.setPacket (pt : Part) (k : Packet) : Part :=
  { pt with packets := pt.packets.map fun x => if x.ring == k.ring && x.idx == k.idx then k else x }

/-- The packet of a reference. -/
def State.packet (s : State) (p : PacketRef) : Option Packet := (s.part p.part).packet p.ring p.idx

/-- One packet replaced. -/
def State.setPacket (s : State) (part : Nat) (k : Packet) : State := s.modPart part (·.setPacket k)

/-- Whether a layout packet runs through the converting stage of a dressing engine (R146, R148): a DRESS, a COPY that changes format, or a
packet that R94 scales. -/
def Packet.converts (k : Packet) : Bool :=
  match k.snap with
  | some sn =>
    let d := fun (f : Nat) => (sn.descs.lookup f).getD Desc.empty
    k.hdr.opcode == 0x0401 || (sn.gOf.lookup 1).isSome || (k.hdr.opcode == 0x0403 && !(d 0).sameFormat (d 1))
  | none => k.hdr.opcode == 0x0401

/-- What carries the accesses of a packet's work (R44, R144, R146, R256, R353; DESIGN CHOICE, log entry 31). -/
def Packet.carriers (k : Packet) : Carriers :=
  let leaves := match k.snap with | some sn => sn.leaves | none => []
  if !leaves.isEmpty then .arrays leaves
  else
    match k.hdr.opcode / 256 with
    | 4 => if k.converts then .dressing else .haul
    | 7 => .ingest
    | 5 | 6 | 8 => .haul
    | _ => .controller

/-- The statuses that a packet meets by reading: unreachable granules, failed mesh links, poison and
fresh uncorrectable codewords (R252, R274, R299). -/
def State.accessCodes (s : State) (v : Carriers) (reads : List (Nat × Nat)) (writes : List Write) : List Nat :=
  let ok := fun (a n : Nat) => s.reachable a n && s.passes v a n
  let up := reads.all (fun r => ok r.1 r.2) && writes.all fun w => ok w.addr w.bytes.length
  let kinds := reads.flatMap fun r => s.badKinds r.1 r.2
  (if up then [] else [ERR_PEER_UNREACHABLE]) ++ (if kinds.contains .poison then [ERR_POISON] else [])
    ++ (if kinds.contains .uncorrectable then [ERR_UNCORRECTABLE] else [])

/-- Whether an array of a packet's engine has stopped: its half is powered off or its ACLK is lost (R11, R305); or, for a packet of the ingest
fronts, ICLK is lost. -/
def State.engineDown (s : State) (k : Packet) : Bool :=
  (k.hdr.opcode / 256 == 7 && s.clocksLost.contains 41) || match k.snap with
  | some sn => !(s.halvesDown.isEmpty && s.clocksLost.isEmpty)
      && sn.leaves.any fun a => s.halvesDown.contains (a / 128) || s.clocksLost.contains (a / 128)
  | none => false

/-- The statuses that a packet's work meets: where its engine has stopped, it reads nothing (R305). -/
def State.workCodes (s : State) (k : Packet) (reads : List (Nat × Nat)) (writes : List Write) : List Nat :=
  if s.engineDown k then [ERR_PEER_UNREACHABLE] else s.accessCodes k.carriers reads writes

/-- A count of an array raised. -/
def raiseCount (t : Tbl Nat) (a n : Nat) : Tbl Nat := Tbl.set 0 t a (satAdd (2 ^ 64 - 1) (Tbl.get 0 t a) n)

/-- Busy counts of arrays raised, and stall counts by what each array waited (R108). -/
def State.addBusy (s : State) (bs : List (Nat × Nat)) : State :=
  { s with busy := bs.foldl (fun t b => raiseCount t b.1 b.2) s.busy,
           stall := bs.foldl (fun t b => raiseCount t b.1 (Config.stallCycles b.1 (Tbl.get 0 s.busy b.1))) s.stall }

/-- What the banks and riddles of arrays hold after work on them (R109, R171). -/
def State.keepArrays (s : State) (bs : List (Nat × List AccBank)) (rs : List (Nat × List RiddleEntry)) : State :=
  { s with banks := bs.foldl (fun t b => Tbl.set [] t b.1 b.2) s.banks, riddles := rs.foldl (fun t r => Tbl.set [] t r.1 r.2) s.riddles }

/-- A residue mismatch on an array (R103, R410, R414): a DATAPATH record with the packet's ring, and the array's count, whose second
mismatch asks for its retirement. -/
def State.mismatch (s : State) (ring a : Nat) : State :=
  let s1 := s.logQuarter (a / 64) { mkEvent 0x40 a 0 with status := ERR_DATAPATH, ring := ring }
  let n := Tbl.get 0 s1.residues a + 1
  { s1 with residues := Tbl.set 0 s1.residues a n,
            retiring := if n = 2 && !s1.retired.contains a then setIns s1.retiring a else s1.retiring }

/-- What work leaves on stored data, the log and the counters of the arrays, the packet apart (R103, R108, R252, R269). -/
def State.workEffects (s : State) (k : Packet) (status : Nat) (up : Bool) (w : WorkOut) : State :=
  let s1 := w.reads.foldl (fun s r => s.readEffects r.1 r.2 status k.ring) s
  let s2 := if up then s1.storeAll w.writes else s1
  w.mismatched.foldl (fun s a => s.mismatch k.ring a) ((s2.addBusy w.busy).keepArrays w.banks w.riddles)

/-- A packet's work applied (R252, R269, R274): the reads have their effects on stored data and the log, the writes land, and the
packet is finished with its result. A packet that meets an unreachable granule writes nothing (DESIGN CHOICE, log entry 8). -/
def State.finish (s : State) (part : Nat) (k : Packet) (w : WorkOut) : State :=
  let w1 := if s.engineDown k then { w with reads := [], busy := [], mismatched := [], banks := [], riddles := [] } else w
  let codes := s.workCodes k w1.reads w1.writes ++ (if w1.mismatched.isEmpty then [] else [ERR_DATAPATH])
  let up := !codes.contains ERR_PEER_UNREACHABLE
  let res := if up then { w1.res with codes := w1.res.codes ++ codes }
    else { k.res.kept with codes := codes }
  let k' := { k with phase := .finished, res := res }
  (s.workEffects k k'.status up w1).setPacket part k'

/-- A context for a packet. -/
def State.ctx (s : State) (part : Nat) (k : Packet) : Option Ctx := k.snap.map fun sn => ⟨s, part, k, sn⟩

/-- The opcode's work on a packet that has issued, been validated and is ready to run (R34, R36); any other occasion leaves the
state as it is (DESIGN CHOICE, log entry 1). In the fatal state nothing runs (R412). -/
def runOpcode (code : Nat) (variant : Ctx → Bool) (work : Ctx → WorkOut) (p : PacketRef) (s : State) : State :=
  match s.packet p with
  | none => s
  | some k =>
    if k.hdr.opcode = code ∧ k.phase = .ready ∧ s.fatal = false then
      match s.ctx p.part k with
      | some c => if variant c then s.finish p.part k (work c) else s
      | none => s
    else s

/-- An opcode's work with a further effect on the module's settings, which takes place only where the packet's own writes do. -/
def runThen (code : Nat) (variant : Ctx → Bool) (work : Ctx → WorkOut) (eff : Ctx → State → State) (p : PacketRef) (s : State) :
    State :=
  match s.packet p with
  | none => s
  | some k =>
    if k.hdr.opcode = code ∧ k.phase = .ready ∧ s.fatal = false then
      match s.ctx p.part k with
      | some c =>
        if variant c then
          let w := work c
          let s1 := s.finish p.part k w
          if (s.workCodes k w.reads w.writes).contains ERR_PEER_UNREACHABLE then s1 else eff c s1
        else s
      | none => s
    else s

end Sys2Proof.Machine
end

