-- ==== Sys2Proof/Machine/Numerics.lean ====
section
/-! DEFINITION. WATCH_READ (R89–R91), LAYER_SCALE_SET (R92, R93), EMULATE_SET (R97), and the layer-scale policy (R96). -/

namespace Sys2Proof.Machine

/-! Watch slots and layer entries. -/

/-- A watch slot of a partition. -/
def Part.watchSlot (pt : Part) (n : Nat) : WatchSlot := Tbl.get WatchSlot.zero pt.watch n

/-- A partition with one watch slot changed. -/
def Part.modWatch (pt : Part) (n : Nat) (f : WatchSlot → WatchSlot) : Part :=
  { pt with watch := Tbl.set WatchSlot.zero pt.watch n (f (pt.watchSlot n)) }

/-- A layer entry of a partition. -/
def Part.layer (pt : Part) (n : Nat) : Layer := Tbl.get Layer.unbound pt.layers n

/-- A partition with one layer entry replaced. -/
def Part.setLayer (pt : Part) (n : Nat) (l : Layer) : Part := { pt with layers := Tbl.set Layer.unbound pt.layers n l }

/-- The clearing of a slot: counters, overflow flags and G_MIXED (R90). -/
def WatchSlot.clear (w : WatchSlot) : WatchSlot :=
  { WatchSlot.zero with layer := w.layer, gLast := w.gLast, grad := w.grad }

/-- A slot bound to a layer, cleared (R93). -/
def WatchSlot.bind (w : WatchSlot) (layer : Nat) : WatchSlot := { w.clear with layer := layer, grad := true }

/-- A slot that loses its binding: its counters are left as they are (R92, R93). -/
def WatchSlot.unbind (w : WatchSlot) : WatchSlot := { w with layer := 0xFFFF, grad := false }

/-- One counter raised, with its overflow flag (R89). -/
def WatchSlot.count (x d : Nat) : Nat × Bool := (min (2 ^ 48 - 1) (x + d), decide (2 ^ 48 - 1 < x + d))

/-- A slot with a packet's counts and the exponent it applied (R88, R89, R94). -/
def WatchSlot.add (w : WatchSlot) (d : WatchDelta) : WatchSlot :=
  let cs := [WatchSlot.count w.elements d.elements, WatchSlot.count w.zeros d.zeros, WatchSlot.count w.saturations d.saturations,
    WatchSlot.count w.underflows d.underflows, WatchSlot.count w.nonfinite d.nonfinite, WatchSlot.count w.losses d.losses]
  let at_ := fun (k : Nat) => (cs[k]?.getD (0, false)).1
  let w1 := { w with
    elements := at_ 0, zeros := at_ 1, saturations := at_ 2, underflows := at_ 3, nonfinite := at_ 4, losses := at_ 5,
    overflow := (w.overflow.zip cs).map fun x => x.1 || x.2.2 }
  match d.g with
  | none => w1
  | some g => { w1 with gLast := g, gMixed := w1.gMixed || (w1.gSet && w1.gLast != g), gSet := true }

/-- The STATE quadword (Table 4.4). -/
def WatchSlot.state (w : WatchSlot) : Nat :=
  (if w.grad then w.layer else 0xFFFF) % 65536 * 65536 + unsigned 8 w.gLast * 256 + (if w.gMixed then 2 else 0)
    + (if w.grad then 1 else 0)

/-- The watch record (Table 4.3). -/
def WatchSlot.record (w : WatchSlot) : List Byte :=
  let q := fun (k v : Nat) => toLe 8 (v + (if (w.overflow[k]?).getD false then 2 ^ 63 else 0))
  q 0 w.elements ++ q 1 w.zeros ++ q 2 w.saturations ++ q 3 w.underflows ++ q 4 w.nonfinite ++ q 5 w.losses ++ toLe 8 w.state
    ++ List.replicate 8 0

/-- LAYER_SCALE_SET on one entry (R93); no exponent given keeps the present one. The entry's reduced totals (R346) restart from zero (DESIGN
CHOICE, log entry 94). -/
def Part.layerSet (pt : Part) (n : Nat) (g : Option Int) (mode : LayerMode) (slot : Nat) (scope : LayerScope) : Part :=
  let l := pt.layer n
  let pt1 := match l.slot with
    | some old => if old = slot then pt else pt.modWatch old WatchSlot.unbind
    | none => pt
  let pt2 := pt1.setLayer n { Layer.unbound with g := g.getD l.g, mode := mode, slot := some slot, scope := scope }
  pt2.modWatch slot (·.bind n)

/-- MODE 3: the entry returns to its reset values and its slot's GRAD bit clears (R92). -/
def Part.layerUnbind (pt : Part) (n : Nat) : Part :=
  let pt1 := match (pt.layer n).slot with
    | some old => pt.modWatch old WatchSlot.unbind
    | none => pt
  pt1.setLayer n Layer.unbound

/-- The policy on an entry with the step's counts (R96). -/
def Layer.policy (l : Layer) (n sat unf nonfin : Nat) : Layer :=
  if n = 0 then l
  else if 0 < sat + nonfin then
    { l with clean := 0, g := if n < sat * 2 ^ 16 ∧ -64 < l.g then l.g - 1 else l.g }
  else
    let c := min (l.clean + 1) 16
    if c = 16 ∧ n < unf * 2 ^ 8 ∧ l.g < 63 then { l with clean := 0, g := l.g + 1 } else { l with clean := c }

/-- The policy of a layer at an UPDATE's completion (R96): an entry in AUTO mode reads its slot and clears it, or, with scope
REDUCED, uses the reduced totals. -/
def Part.layerPolicy (pt : Part) (n : Nat) : Part :=
  let l := pt.layer n
  match l.mode, l.slot with
  | .auto, some slot =>
    if l.scope = .reduced then
      pt.setLayer n { (l.policy l.totElements l.totSaturations l.totUnderflows l.totNonfinite) with
        totElements := 0, totSaturations := 0, totUnderflows := 0, totNonfinite := 0 }
    else
      let w := pt.watchSlot slot
      (pt.modWatch slot WatchSlot.clear).setLayer n (l.policy w.elements w.saturations w.underflows w.nonfinite)
  | _, _ => pt

/-! WATCH_READ. -/

/-- COUNT after its clamp (Table 4.2). -/
def Ctx.watchCount (c : Ctx) : Nat := clampNat 1 1024 (c.u 2 2)

/-- WATCH_READ (Table 4.2). -/
def specWatchRead : OpSpec :=
  { code := 0x0901, classes := allClasses, len := fun _ => 16,
    fails := fun c =>
      failOpt (idStatus c.q 1024 (c.u 0 2)) 4 0
        ++ failIf (decide (c.u 0 2 < 1024 * c.q ∧ 1024 * c.q < c.u 0 2 + c.watchCount)) 4 1 ERR_PARTITION,
    accs := fun c => accMem 3 true (c.addr52 8) (64 * c.watchCount) 64,
    clamps := fun c => clampBit 1 1 1024 (c.u 2 2) }

/-- The records of WATCH_READ (R90, R91). -/
def Ctx.watchReadWork (c : Ctx) : WorkOut :=
  let pt := c.s.part c.p
  { reads := [],
    writes := [⟨c.addr52 8, (List.range c.watchCount).flatMap fun i => (pt.watchSlot (c.u 0 2 + i)).record, false⟩],
    res := Result.of [] c.watchCount 0 0 }

/-- The slots that WATCH_READ with CLEAR zeroes (R90). -/
def Ctx.watchReadClear (c : Ctx) (s : State) : State :=
  if (c.u 4 1).testBit 0 then
    s.modPart c.p fun pt => (List.range c.watchCount).foldl (fun pt i => pt.modWatch (c.u 0 2 + i) WatchSlot.clear) pt
  else s

/-- WATCH_READ runs (R90). -/
def execWatchRead (p : PacketRef) (s : State) : Host.Outcome State Fault Refusal :=
  .next (runThen 0x0901 (fun _ => true) Ctx.watchReadWork Ctx.watchReadClear p s)

/-! LAYER_SCALE_SET. -/

/-- G of LAYER_SCALE_SET. -/
def Ctx.layerSetG (c : Ctx) : Int := signed 8 (c.u 2 1)

/-- LAYER_SCALE_SET (Table 4.5). -/
def specLayerScaleSet : OpSpec :=
  { code := 0x0902, classes := [.U, .S], len := fun _ => 8,
    fails := fun c =>
      let w := (c.s.part c.p).watchSlot (c.u 4 2)
      failIf (decide (1024 * c.q ≤ c.u 0 2)) 4 0 ERR_PARTITION ++ failIf (decide (3 < c.u 3 1)) 4 2 ERR_DESCRIPTOR
        ++ (if c.u 3 1 = 3 then [] else
          failOpt (idStatus c.q 1024 (c.u 4 2)) 4 3 ++ failIf (decide (1 < c.u 6 1)) 4 4 ERR_DESCRIPTOR
            ++ failIf (w.grad && w.layer != c.u 0 2) 8 3 ERR_WRITE_ALIAS),
    clamps := fun c => if c.u 3 1 < 2 ∧ (c.layerSetG < -64 ∨ 63 < c.layerSetG) then [1] else [] }

/-- The effect that LAYER_SCALE_SET has at its completion (R93). -/
def Ctx.layerScaleWork (c : Ctx) : WorkOut :=
  let m := c.u 3 1
  let g := if m = 2 then none else some (max (-64) (min 63 c.layerSetG))
  WorkOut.of { Result.empty with
    effects := [Effect.layerSet (c.u 0 2) g (if m = 0 then .pinned else .auto) (c.u 4 2)
      (if c.u 6 1 = 1 then .reduced else .localScope)] }

/-- LAYER_SCALE_SET with MODE 0, 1 or 2 runs (R93). -/
def execLayerScaleSet (p : PacketRef) (s : State) : Host.Outcome State Fault Refusal :=
  .next (runOpcode 0x0902 (fun c => c.u 3 1 != 3) Ctx.layerScaleWork p s)

/-- LAYER_SCALE_SET with MODE 3 runs (R92). -/
def execLayerScaleUnbind (p : PacketRef) (s : State) : Host.Outcome State Fault Refusal :=
  .next (runOpcode 0x0902 (fun c => c.u 3 1 == 3)
    (fun c => WorkOut.of { Result.empty with effects := [Effect.layerUnbind (c.u 0 2)] }) p s)

/-! EMULATE_SET. -/

/-- The rule for a RING field (R28). -/
def ringStatus (q n : Nat) : Option Nat := if n < 64 * q then none else if n < 256 then some ERR_PARTITION else some ERR_DESCRIPTOR

/-- EMULATE_SET (R97). -/
def specEmulateSet : OpSpec :=
  { code := 0x0903, classes := [.S], len := fun _ => 4,
    fails := fun c => failOpt (ringStatus c.q (c.u 0 2)) 4 0 ++ failIf (decide (1 < c.u 2 1)) 4 1 ERR_DESCRIPTOR }

/-- EMULATE_SET runs (R97). -/
def execEmulateSet (p : PacketRef) (s : State) : Host.Outcome State Fault Refusal :=
  .next (runOpcode 0x0903 (fun _ => true)
    (fun c => WorkOut.of { Result.empty with effects := [Effect.emulate (c.u 0 2) (c.u 2 1 == 1)] }) p s)

end Sys2Proof.Machine
end

