-- ==== Sys2Proof/Machine/Items.lean ====
section
/-! DEFINITION. The CONFIG items (R41) of every chapter: their ranges, their checks, what CONFIG_GET reads and what CONFIG_SET
writes (R42, R59, R108, R119, R142, R199, R200, R253, R254, R261, R278, R318, R321, R337, R394, Table 20.5). -/

namespace Sys2Proof.Machine

/-- The module's endpoint identifier (R317). -/
def State.endpoint (s : State) : Nat := s.board.endpointBase + s.geoId

/-- A global address (R246). -/
def globalAddr (endpoint addr : Nat) : Nat := endpoint * 2 ^ 49 + addr % 2 ^ 49

/-- The range in which an item lies, `none` where no chapter defines it (R41). -/
def itemRange (item : Nat) : Option Nat :=
  let hi := item / 65536
  let lo := item % 65536
  let when_ := fun (b : Bool) => if b then some hi else none
  match hi with
  | 1 | 2 | 4 | 5 | 6 | 8 | 0xA => some hi
  | 3 | 7 | 0xD => when_ (lo == 0)
  | 9 => when_ (decide (lo ≤ 6))
  | 0xB => when_ (decide (lo < 32768))
  | 0xC => if lo < 8 then some 0xC else if 0x20 ≤ lo ∧ lo < 0x40 then some 0x1C
    else if 0x100 ≤ lo ∧ lo < 0x200 then some 0x2C else none
  | 0xE => when_ (decide (lo < 64))
  | 0xF => when_ (decide (lo < 4))
  | _ => none

/-- Whether an item is read-only (R108, R119, R253, R278, R337, R394). -/
def itemReadOnly (item : Nat) : Bool :=
  match itemRange item with
  | some 4 | some 5 | some 6 | some 0xA | some 0xE | some 0x2C => true
  | some 9 => item % 65536 == 6
  | some 0xC => item % 65536 == 7
  | _ => false

/-- The unit that an item of R278 names. -/
def scrubItemUnit (lo : Nat) : Option (MemKind × Nat) :=
  match memOfCode (lo / 256) with
  | some .scratchpad => some (.scratchpad, lo % 256)
  | some k => if lo % 256 < 8 then some (k, lo % 256) else none
  | none => none

/-- The failure of an item's identifier in a partition (R41, R108, R119, R278). -/
def State.itemStatus (s : State) (p item : Nat) : Option Nat :=
  let lo := item % 65536
  let q := s.quartersPer
  let outside := fun (quarter : Nat) => if quarter < p ∨ p + q ≤ quarter then some ERR_PARTITION else none
  match itemRange item with
  | some 1 | some 2 => idStatus q 4096 lo
  | some 4 =>
    if lo < 0x100 then outside (lo / 64) else if lo < 0x200 then (if lo - 0x100 < 64 * q then none else some ERR_PARTITION)
    else if lo = 0x200 then none else some ERR_DESCRIPTOR
  | some 5 | some 6 => if lo < 256 then outside (lo / 64) else some ERR_DESCRIPTOR
  | some 8 => idStatus q 1024 (lo / 8)
  | some 0xA =>
    match scrubItemUnit lo with
    | some (k, u) => outside (quarterOfUnit k u)
    | none => some ERR_DESCRIPTOR
  | some _ => none
  | none => some ERR_DESCRIPTOR

/-! Reading. -/

/-- The quadword of an engine handle (R119). -/
def State.engineInfo (s : State) (p h : Nat) : Nat :=
  let word := fun (leaves depth direct : Nat) => leaves % 65536 + depth * 2 ^ 16 + direct % 256 * 2 ^ 24
  if h < 0x100 then (if s.inService h then word 1 0 0 else 0)
  else if h = 0x200 then let n := (s.serving p).length; word n 1 n
  else
    match (s.part p).gang (h - 0x100) with
    | some ms => word (s.leaves p h).length (depthOf s p 6 h) ms.length
    | none => 0

/-- Item `j` of a version entry (R199, Table 8.7). -/
def VersionEntry.item (v : VersionEntry) (j : Nat) : Nat :=
  match j with
  | 0 => v.pri0
  | 1 => v.alt0
  | 2 => v.len0
  | 3 => v.pri1
  | 4 => v.alt1
  | 5 => v.len1
  | 6 => v.ver * 2 ^ 32 + v.refCur % 65536 * 2 ^ 16 + v.refOld % 65536
  | _ => v.mismatch * 2 ^ 48 + (if v.valid then 1 else 0)

/-- SUMP_CONFIG (Table 10.5). -/
def State.sumpConfig (s : State) : Nat :=
  let bit := fun (b : Bool) (n : Nat) => if b then 2 ^ n else 0
  let on := !s.channels.isEmpty
  ((List.range 8).map fun n => bit (s.chanReason.any fun x => x.1 == n) (40 + n) + bit (s.channels.contains n) (32 + n)).sum
    + (if on then s.sumpRate * 2 ^ 16 + s.sumpCapacity else 0)

/-- EPOCH_STATE (Table 14.4). -/
def Part.epochState (pt : Part) : Nat :=
  pt.epoch + pt.members.length % 65536 * 2 ^ 32 + (if pt.quarantined then 2 ^ 48 else 0)

/-- Item `j` of a straggler entry (Table 14.6). -/
def Straggler.item (x : Straggler) (j : Nat) : Nat :=
  let bins := fun (k : Nat) => ((List.range 4).map fun i => (x.bins[k + i]?.getD 0) % 65536 * 2 ^ (16 * i)).sum
  match j with
  | 0 => x.history * 2 ^ 32 + (if x.reported then 2 ^ 15 else 0) + x.endpoint
  | 1 => bins 0
  | 2 => bins 4
  | _ => x.maxUs

/-- The code of a generation's state (Table 17.2). -/
def GenState.code : GenState → Nat
  | .free => 0 | .opened => 1 | .sealed => 2 | .committed => 3 | .filling => 4

/-- Item `j` of a catalogue entry (Table 17.1). -/
def Generation.item (g : Generation) (j : Nat) : Nat :=
  if g.state = .free then 0
  else
    match j with
    | 0 => g.g * 2 ^ 51 + g.rank * 2 ^ 47 + (if g.poisoned then 2 ^ 46 else 0) + (if g.noParity then 2 ^ 45 else 0)
        + g.state.code * 2 ^ 32 + g.gen
    | 1 => g.units
    | 2 => g.extents.length * 2 ^ 32 + g.stripes
    | _ => g.ghash

/-- What CONFIG_GET reads at an item (R41). -/
def State.configItem (s : State) (p item : Nat) : Nat :=
  let lo := item % 65536
  let pt := s.part p
  match itemRange item with
  | some 1 => let x := Tbl.get (0xFFFFFFFF, 0) pt.shapes lo; x.1 * 2 ^ 32 + x.2
  | some 2 => Tbl.get 0 pt.counters lo
  | some 3 => pt.ternInvalid
  | some 4 => s.engineInfo p lo
  | some 5 => Tbl.get 0 s.busy lo
  | some 6 => Tbl.get 0 s.stall lo
  | some 7 => pt.clips
  | some 8 => (pt.version (lo / 8)).item (lo % 8)
  | some 9 =>
    (match lo with
    | 0 => pt.sliceReserve
    | 1 => pt.hbmPool
    | 2 => if s.hasSump p then pt.sumpPool else 0
    | 3 => pt.spillHbm
    | 4 => pt.spillSump
    | 5 => pt.poolWaits
    | _ => s.sumpConfig)
  | some 0xA =>
    match scrubItemUnit lo with
    | some (k, u) =>
      match s.scrubbers.find? (fun x => x.mem == k && x.unit == u) with
      | some x => x.passes % 2 ^ 32 * 2 ^ 32 + x.granule / 64
      | none => 0
    | none => 0
  | some 0xB => Tbl.get 0 pt.routeMasks lo
  | some 0xC =>
    (match lo with
    | 0 => pt.hbTime
    | 1 => pt.collLimit
    | 2 => pt.stragUs
    | 3 => pt.staleDrops
    | 4 => pt.lagDrops
    | 5 => pt.earlyDrops
    | 6 => pt.unsetDrops
    | _ => pt.epochState)
  | some 0x1C => Tbl.get 0 pt.lateHist (lo - 0x20)
  | some 0x2C =>
    (match pt.stragglers[(lo - 0x100) / 4]? with
    | some x => x.item (lo % 4)
    | none => 0)
  | some 0xD => pt.aperture.getD (globalAddr s.endpoint (p * hbmQuarter))
  | some 0xE => ((pt.catalogue[lo / 4]?).getD Generation.free).item (lo % 4)
  | some 0xF => match lo with | 1 => pt.pstateReq | 2 => pt.clockReq | 3 => pt.benchIdleUs | _ => 0
  | _ => 0

/-! Writing. -/

/-- A value moved to the nearest of `lo`, `lo + step`, …, `hi`, midway down (R37). -/
def nearestStep (lo hi step v : Nat) : Nat :=
  if v ≤ lo then lo
  else if hi ≤ v then hi
  else
    let d := (v - lo) % step
    if 2 * d ≤ step then v - d else v - d + step

/-- The legal value nearest to a COLL_LIMIT (Table 14.4). -/
def nearestCollLimit (v : Nat) : Nat :=
  if v ≤ 500 then 0 else if v < 1000 then 1000 else min v 3600000

/-- One ACLK request of CLOCK_REQ (R451). -/
def nearestClock (v : Nat) : Nat := nearestStep 300 940 20 v

/-- CLOCK_REQ with both requests legal (R451, Table 20.5). -/
def nearestClockReq (v : Nat) : Nat :=
  nearestClock (v % 65536) + nearestClock (v / 65536 % 65536) * 65536 + v / 2 ^ 32 % 4 * 2 ^ 32

/-- The ACLK request of a partition for a half. -/
def Part.aclkRequest (pt : Part) (half : Nat) : Nat := pt.clockReq / 65536 ^ half % 65536

/-- The set point of a half (R451): the lowest request among the partitions that hold a quarter of it. -/
def State.setPointOf (s : State) (half : Nat) : Nat :=
  let holders := s.partList.filter fun p => (s.quarters p).any fun q => q / 2 == half
  (holders.map fun p => nearestClock ((s.part p).aclkRequest half)).foldl min 940

/-- A half with another set point (R453): STEPS is kept, reduced so that the effective ACLK stays at or above 300 MHz. -/
def Half.withSetPoint (x : Half) (v : Nat) : Half :=
  let n := if v = x.setPoint then x.steps else min x.steps ((v - 300) / 20)
  { x with setPoint := v, steps := n, why := if n = 0 then 0 else x.why }

/-- The set points after a change of a request or of the layout. -/
def State.updateSetPoints (s : State) : State :=
  { s with halves := ((List.range s.halves.length).zip s.halves).map fun (h, x) => x.withSetPoint (s.setPointOf h) }

/-- The route-mask bits that a partition may set (R318, Table 1.1): ports of its quarters, X ports in Lanug mode only. -/
def State.allowedPorts (s : State) (p : Nat) : List Nat :=
  (s.quarters p).flatMap fun q => [4 * q, 4 * q + 1, 4 * q + 2, 4 * q + 3] ++ (if s.board.xLanug then [16 + q] else [])

/-- The unit of a UNIT_RESET value: kind, number, and its failure (R457). -/
def State.unitResetStatus (s : State) (p v : Nat) : Option Nat :=
  let kind := v % 16
  let n := v / 256 % 65536
  let quarter : Option Nat := match kind with
    | 0 => if n < 256 then some (n / 64) else none
    | 1 => if n < 32 then some (n / 8) else none
    | 2 => if n < 16 then some (n / 4) else if n < 20 then some (n - 16) else none
    | 3 => if n < 64 then some (n / 16) else none
    | 4 => if n < 16 then some (n / 4) else none
    | 5 => if n = 0 then some p else none
    | _ => none
  match quarter with
  | none => some ERR_DESCRIPTOR
  | some q =>
    if q < p ∨ p + s.quartersPer ≤ q then some ERR_PARTITION
    else if kind = 5 ∧ s.quartersPer ≠ 4 then some ERR_PARTITION
    else none

/-- A version entry as a CONFIG_SET writes it (R199, R200). -/
def VersionEntry.written (vs : List Nat) : VersionEntry :=
  let at_ := fun (k : Nat) => vs[k]?.getD 0
  { VersionEntry.zero with
    pri0 := at_ 0, alt0 := at_ 1, len0 := at_ 2 % 2 ^ 40, pri1 := at_ 3, alt1 := at_ 4, len1 := at_ 5 % 2 ^ 40,
    valid := (at_ 7).testBit 0 }

/-- The entries of a CONFIG_SET on version entries: number, quadwords. -/
def versionGroups (item : Nat) (vals : List Nat) : List (Nat × List Nat) :=
  (List.range (vals.length / 8)).map fun i => (item % 65536 / 8 + i, (vals.drop (8 * i)).take 8)

/-- The checks of version entries (R200). -/
def State.versionFails (s : State) (p item : Nat) (vals : List Nat) : List Fail :=
  let pt := s.part p
  let groups := versionGroups item vals
  let new := groups.map fun g => (g.1, VersionEntry.written g.2)
  let one := fun (g : Nat × List Nat) =>
    let old := pt.version g.1
    let e := VersionEntry.written g.2
    let drain := (g.2[7]?.getD 0).testBit 1
    let rs := e.primary ++ e.alternate
    failIf (decide (0 < old.refCur + old.refOld) && !drain) 4 0 ERR_DESCRIPTOR
      ++ (if !e.valid then [] else
        failIf (decide (e.len0 = 0)) 4 0 ERR_DESCRIPTOR
          ++ failIf (rs.any fun r => !(decide (r.2 ≤ (2 ^ 52 : Nat)) && s.inMemory p r.1.toNat (r.2 - r.1).toNat)) 6 0 ERR_PARTITION
          ++ failIf (decide (e.pri0 % 64 ≠ 0 ∨ e.alt0 % 64 ≠ 0 ∨ e.len0 % 64 ≠ 0 ∨ e.pri1 % 64 ≠ 0 ∨ e.alt1 % 64 ≠ 0
              ∨ e.len1 % 64 ≠ 0)) 7 0 ERR_ALIGN)
  let keep := pt.validEntries.filter fun e => !new.any fun n => n.1 == e.1
  let regs := (keep ++ new.filter fun n => n.2.valid).flatMap fun e => e.2.primary ++ e.2.alternate
  let pairs := (List.range regs.length).zip regs
  let meet := pairs.any fun (i, r) => (regs.drop (i + 1)).any (Region.meets r)
  groups.flatMap one ++ failIf meet 8 0 ERR_WRITE_ALIAS

/-- The failures that the values of a CONFIG_SET meet: illegal values fail the packet and change nothing. -/
def State.valueFails (s : State) (p item : Nat) (vals : List Nat) : List Fail :=
  if itemRange item = some 8 then s.versionFails p item vals
  else
    ((List.range vals.length).zip vals).flatMap fun (i, v) =>
      let it := item + i
      match itemRange it with
      | some 0xB =>
        failIf ((List.range 20).any fun b => v.testBit b && !(s.allowedPorts p).contains b) 4 0 ERR_PARTITION
      | some 0xD => failIf (decide (v % 4096 ≠ 0)) 7 0 ERR_ALIGN
      | some 0xF =>
        if it % 65536 = 0 then failOpt (s.unitResetStatus p v) 4 0
        else if it % 65536 = 1 then failIf (decide (v ≠ 0 ∧ v ≠ 2 ∧ v ≠ 3)) 4 0 ERR_DESCRIPTOR
        else []
      | _ => []

/-- A value with the reserved bits of its item dropped. -/
def itemMask (item v : Nat) : Nat := if item = 0xF0002 then v % 2 ^ 34 else v

/-- The legal value that an item takes for a value written, where the item clamps (R41, R42, R253, R337, Table 20.5). -/
def State.itemClamp (s : State) (p item v : Nat) : Nat :=
  let lo := item % 65536
  match itemRange item with
  | some 1 => v / 2 ^ 32 * 2 ^ 32 + min (v % 2 ^ 32) (v / 2 ^ 32)
  | some 2 => max v (s.configItem p item)
  | some 9 =>
    (match lo with
    | 0 => nearestStep 0x180000 0x300000 0x40000 v
    | 1 => nearestStep gib (48 * gib) gib v
    | 2 => nearestStep 0 (if s.hasSump p then 2 * s.sumpCapacity * gib else 0) gib v
    | _ => v)
  | some 0xC =>
    (match lo with
    | 0 => clampNat 20 10000 v
    | 1 => nearestCollLimit v
    | 2 => clampNat 1 10000000 v
    | _ => v)
  | some 0xF =>
    (match lo with
    | 2 => nearestClockReq v
    | 3 => clampNat 10 10000 v
    | _ => v)
  | _ => v

/-- Whether an item takes its value only at the packet's completion (R254, R460): the effect that does it. -/
def itemEffect (item v : Nat) : Option Effect :=
  if item / 65536 = 9 ∧ item % 65536 < 3 then some (.poolSize (item % 65536) v)
  else if item = 0xF0001 then some (.pstate v)
  else none

/-- An item written with a legal value, but for items that act at completion and UNIT_RESET. -/
def State.configPut (s : State) (p item v : Nat) : State :=
  let lo := item % 65536
  let set := fun (f : Part → Part) => s.modPart p f
  match itemRange item with
  | some 1 => set fun pt => { pt with shapes := Tbl.set (0xFFFFFFFF, 0) pt.shapes lo (v / 2 ^ 32, v % 2 ^ 32) }
  | some 2 => set fun pt => { pt with counters := Tbl.set 0 pt.counters lo v }
  | some 3 => set fun pt => { pt with ternInvalid := v }
  | some 7 => set fun pt => { pt with clips := v }
  | some 9 =>
    (match lo with
    | 3 => set fun pt => { pt with spillHbm := v }
    | 4 => set fun pt => { pt with spillSump := v }
    | 5 => set fun pt => { pt with poolWaits := v }
    | _ => s)
  | some 0xB => set fun pt => { pt with routeMasks := Tbl.set 0 pt.routeMasks lo (v % 2 ^ 20) }
  | some 0xC =>
    (match lo with
    | 0 => set fun pt => { pt with hbTime := v }
    | 1 => set fun pt => { pt with collLimit := v }
    | 2 => set fun pt => { pt with stragUs := v }
    | 3 => set fun pt => { pt with staleDrops := v }
    | 4 => set fun pt => { pt with lagDrops := v }
    | 5 => set fun pt => { pt with earlyDrops := v }
    | 6 => set fun pt => { pt with unsetDrops := v }
    | _ => s)
  | some 0x1C => set fun pt => { pt with lateHist := Tbl.set 0 pt.lateHist (lo - 0x20) v }
  | some 0xD => set fun pt => { pt with aperture := some v }
  | some 0xF =>
    (match lo with
    | 2 => (set fun pt => { pt with clockReq := v }).updateSetPoints
    | 3 => set fun pt => { pt with benchIdleUs := v }
    | _ => s)
  | _ => s

/-- A partition whose packets hold no reference on an entry (R200, R203). -/
def Part.dropRefs (pt : Part) (entry : Nat) : Part :=
  { pt with packets := pt.packets.map fun k => { k with refs := k.refs.filter fun r => r.entry != entry } }

/-- The version entries that a CONFIG_SET writes (R200): VER 0, no references and no queues; the UPDATEs and MASKEDITs that stand
on the entry keep their places. -/
def State.putVersions (s : State) (p item : Nat) (vals : List Nat) : State :=
  s.modPart p fun pt => (versionGroups item vals).foldl (fun pt g =>
    (pt.dropRefs g.1).modVersion g.1 fun old => { VersionEntry.written g.2 with turns := old.turns }) pt

/-- Every item of a CONFIG_SET written. -/
def State.configPutAll (s : State) (p item : Nat) (vals : List Nat) : State :=
  if itemRange item = some 8 then s.putVersions p item vals
  else
    ((List.range vals.length).zip vals).foldl (fun s (i, v) =>
      s.configPut p (item + i) (s.itemClamp p (item + i) (itemMask (item + i) v))) s

end Sys2Proof.Machine
end

