-- ==== Sys2Proof/Machine/Setup.lean ====
section
/-! DEFINITION. The setup opcodes: CONFIG_SET and CONFIG_GET (R41), RING_BIND (R28–R30), GANG_FORM and GANG_DISSOLVE (R117,
R118). -/

namespace Sys2Proof.Machine

/-! CONFIG_SET and CONFIG_GET. -/

/-- COUNT after its clamp (R41). -/
def Ctx.configCount (c : Ctx) : Nat := clampNat 1 512 (c.u 4 2)

/-- The items of a CONFIG packet. -/
def Ctx.configItems (c : Ctx) : List Nat := (List.range c.configCount).map (c.u 0 4 + ·)

/-- The checks of a CONFIG packet's items at step 4 (R41, R200). -/
def Ctx.configFails (c : Ctx) (set : Bool) : List Fail :=
  let item := c.u 0 4
  let n := c.configCount
  let rng := itemRange item
  let one := rng.isSome && c.configItems.all fun i => itemRange i == rng
  failIf (set && rng == some 8 && (decide (item % 8 ≠ 0) || decide (n % 8 ≠ 0))) 4 0 ERR_DESCRIPTOR
    ++ failIf (set && c.configItems.any itemReadOnly) 4 0 ERR_DESCRIPTOR
    ++ (if one then (c.configItems.filterMap (c.s.itemStatus c.p)).take 1 |>.map (failAt 4 0)
        else if c.configItems.all fun i => i / 65536 == item / 65536 then
          (c.configItems.filterMap (c.s.itemStatus c.p)).take 1 |>.map (failAt 4 0)
        else [failAt 4 0 ERR_DESCRIPTOR])

/-- CONFIG_SET (R41). -/
def specConfigSet : OpSpec :=
  { code := 0x0101, classes := [.S], len := fun _ => 16,
    fails := fun c => c.configFails true,
    accs := fun c => accMem 2 false (c.addr 8) (8 * c.configCount) 64,
    clamps := fun c => clampBit 1 1 512 (c.u 4 2) }

/-- CONFIG_GET (R41). -/
def specConfigGet : OpSpec :=
  { code := 0x0102, classes := allClasses, len := fun _ => 16,
    fails := fun c => c.configFails false,
    accs := fun c => accMem 2 true (c.addr 8) (8 * c.configCount) 64,
    clamps := fun c => clampBit 1 1 512 (c.u 4 2) }

/-- The quadwords that a CONFIG_SET reads. -/
def Ctx.configVals (c : Ctx) : List Nat := (List.range c.configCount).map fun i => c.s.readNat (c.addr 8 + 8 * i) 8

/-- Whether any quadword of the buffer reads as poisoned or uncorrectable. -/
def Ctx.configBad (c : Ctx) : Bool := c.s.badIn (c.addr 8) (8 * c.configCount)

/-- The failure that the values meet (R200, R318, R321, R457, Table 20.5): nothing changes then. -/
def Ctx.configValueFail (c : Ctx) : Option Fail := firstFail (c.s.valueFails c.p (c.u 0 4) c.configVals)

/-- Whether a value was clamped (R41). -/
def Ctx.configClamped (c : Ctx) : Bool :=
  ((List.range c.configCount).zip c.configVals).any fun (i, v) =>
    let it := c.u 0 4 + i
    let m := itemMask it v
    c.s.itemClamp c.p it m != m

/-- Whether a CONFIG_SET changes settings. -/
def Ctx.configApplies (c : Ctx) : Bool := !c.configBad && c.configValueFail.isNone

/-- The result of a CONFIG_SET, with the effects of the items that act at its completion (R254, R460). -/
def Ctx.configSetWork (c : Ctx) : WorkOut :=
  let reads := [(c.addr 8, 8 * c.configCount)]
  if c.configBad then { reads := reads, writes := [], res := Result.empty }
  else
    match c.configValueFail with
    | some f => { reads := reads, writes := [], res := { Result.of [f.status] 0 0 0 with field := f.field } }
    | none =>
      let effs := ((List.range c.configCount).zip c.configVals).filterMap fun (i, v) =>
        let it := c.u 0 4 + i
        itemEffect it (c.s.itemClamp c.p it v)
      { reads := reads, writes := [],
        res := { Result.empty with clamps := if c.configClamped then [2] else [], effects := effs } }

/-- The settings that a CONFIG_SET changes while it runs. A value that fails at step 4 leaves CLAMP_MAP at 0 (R38). -/
def Ctx.configSetEff (c : Ctx) (s : State) : State :=
  if c.configApplies then s.configPutAll c.p (c.u 0 4) c.configVals
  else
    match c.configValueFail, s.packet ⟨c.p, c.pkt.ring, c.pkt.idx⟩ with
    | some f, some k => if f.key / 4096 ≤ 4 && !c.configBad then s.setPacket c.p { k with clamps := [] } else s
    | _, _ => s

/-- What a CONFIG_SET asks for, by the row of the opcode table that describes it: 0 settings, 1 a pool size, 2 a unit reset, 3 ACTIVE,
4 QUIESCE, 5 STANDBY. -/
def Ctx.configKind (c : Ctx) : Nat :=
  let item := c.u 0 4
  let has := fun (i : Nat) => decide (item ≤ i ∧ i < item + c.configCount)
  if has 0x90000 || has 0x90001 || has 0x90002 then 1
  else if has 0xF0000 then 2
  else if has 0xF0001 then
    (match c.configVals[0xF0001 - item]? with
    | some 2 => 4
    | some 3 => 5
    | some 0 => 3
    | _ => 0)
  else 0

/-- CONFIG_SET runs (R41); the items that have rows of their own are set by those rows. -/
def execConfigSet (p : PacketRef) (s : State) : Host.Outcome State Fault Refusal :=
  .next (runThen 0x0101 (fun c => c.configKind == 0) Ctx.configSetWork Ctx.configSetEff p s)

/-- A CONFIG_SET of PSTATE_REQ to 2 runs; the entry starts at its completion (R460). -/
def execQuiesceRequest (p : PacketRef) (s : State) : Host.Outcome State Fault Refusal :=
  .next (runThen 0x0101 (fun c => c.configKind == 4) Ctx.configSetWork Ctx.configSetEff p s)

/-- A CONFIG_SET of PSTATE_REQ to 3 runs; the entry starts at its completion (R460). -/
def execStandbyRequest (p : PacketRef) (s : State) : Host.Outcome State Fault Refusal :=
  .next (runThen 0x0101 (fun c => c.configKind == 5) Ctx.configSetWork Ctx.configSetEff p s)

/-- A CONFIG_SET of PSTATE_REQ to 0 runs; an entry in progress stops at its completion (R460). -/
def execActiveRequest (p : PacketRef) (s : State) : Host.Outcome State Fault Refusal :=
  .next (runThen 0x0101 (fun c => c.configKind == 3) Ctx.configSetWork Ctx.configSetEff p s)

/-- Whether a packet of the partition holds a pool reservation (R254, R255). -/
def Part.reserved (pt : Part) : Bool := !pt.stageRoom.isEmpty || pt.packets.any fun k => !k.pool.isEmpty

/-- A CONFIG_SET of a pool size runs once no packet of the partition holds a reservation (R254). -/
def execPoolResize (p : PacketRef) (s : State) : Host.Outcome State Fault Refusal :=
  match s.packet p with
  | none => .next s
  | some k =>
    if k.hdr.opcode = 0x0101 ∧ k.phase = .refWait ∧ (s.part p.part).reserved = false then
      .next (runThen 0x0101 (fun c => c.configKind == 1) Ctx.configSetWork Ctx.configSetEff p
        (s.setPacket p.part { k with phase := .ready }))
    else .next s

/-- CONFIG_GET runs (R41). -/
def execConfigGet (p : PacketRef) (s : State) : Host.Outcome State Fault Refusal :=
  .next (runOpcode 0x0102 (fun _ => true)
    (fun c => { reads := [],
                writes := [⟨c.addr 8, c.configItems.flatMap fun i => toLe 8 (c.s.configItem c.p i), false⟩],
                res := Result.empty }) p s)

/-! RING_BIND. -/

/-- The ring that a RING_BIND names. -/
def Ctx.bindRing (c : Ctx) : Nat := c.u 0 2

/-- Whether a RING_BIND unbinds. -/
def Ctx.unbinds (c : Ctx) : Bool := (c.u 5 1).testBit 2

/-- The binding that a RING_BIND gives, with its clamps (Table 2.1). -/
def Ctx.binding (c : Ctx) : Binding :=
  let quota := (c.u 5 1).testBit 1
  { cls := ([StreamClass.F, .B, .U, .I, .C, .M, .S][c.u 2 1]?).getD .F,
    ringLog2 := clampNat 4 16 (c.u 3 1), cqLog2 := clampNat 4 16 (c.u 4 1), haltOnError := (c.u 5 1).testBit 0, quota := quota,
    waitLimit := clampNat 4 1023 (c.u 6 2), base := c.addr52 8, cqBase := c.addr52 0x10,
    quotaGrants := if quota then clampNat 1 255 (c.u 0x18 2) else 1 }

/-- RING_BIND (Table 2.1). -/
def specRingBind : OpSpec :=
  { code := 0x0103, classes := [.S], len := fun _ => 32,
    fails := fun c =>
      failOpt (ringStatus c.q c.bindRing) 4 0 ++ failIf (c.bindRing == c.pkt.ring) 4 0 ERR_DESCRIPTOR
        ++ (if c.unbinds then [] else failIf (decide (6 < c.u 2 1)) 4 1 ERR_DESCRIPTOR),
    accs := fun c => if c.unbinds then [] else
      accMem 6 true (c.addr52 8) (256 * 2 ^ c.binding.ringLog2) 256 ++ accMem 7 true (c.addr52 0x10) (32 * 2 ^ c.binding.cqLog2) 64,
    clamps := fun c => if c.unbinds then [] else
      clampBit 2 4 16 (c.u 3 1) ++ clampBit 3 4 16 (c.u 4 1) ++ clampBit 5 4 1023 (c.u 6 2)
        ++ (if (c.u 5 1).testBit 1 then clampBit 8 1 255 (c.u 0x18 2) else []) }

/-- A ring bound afresh (R25, R29): its indexes read zero and its C3 mode stays (R97). -/
def Ring.bindTo (r : Ring) (b : Option Binding) : Ring := { Ring.unbound with binding := b, c3 := r.c3 }

/-- The slots of a ring that were never fetched: a slot held at the head has been. -/
def Ring.waiting (r : Ring) : Nat := (r.tail + 2 ^ 32 - r.head) % 2 ^ 32 - (if r.fetched.isSome then 1 else 0)

/-- A RING_BIND of an unbound ring takes effect at once; of a bound ring, it stops fetching and waits (R29). -/
def ringBindStep (unbind : Bool) (p : PacketRef) (s : State) : State :=
  match s.packet p with
  | none => s
  | some k =>
    match s.ctx p.part k with
    | none => s
    | some c =>
      if k.hdr.opcode = 0x0103 ∧ k.phase = .ready ∧ s.fatal = false ∧ c.unbinds = unbind then
        let b := if unbind then none else some c.binding
        if ((s.part p.part).ring c.bindRing).binding.isNone then
          (s.finish p.part k (WorkOut.of Result.empty)).modRing p.part c.bindRing (·.bindTo b)
        else
          s.setPacket p.part { k with phase := .refWait }
      else s

/-- Whether a ring has stopped fetching because a RING_BIND that names it waits to apply (R29). -/
def State.rebinding (s : State) (p ring : Nat) : Bool :=
  (s.part p).packets.any fun k =>
    k.hdr.opcode == 0x0103 && k.phase == .refWait
      && (match s.ctx p k with
          | some c => c.bindRing == ring
          | none => false)

/-- RING_BIND runs (R29). -/
def execRingBind (p : PacketRef) (s : State) : Host.Outcome State Fault Refusal := .next (ringBindStep false p s)

/-- RING_BIND with UNBIND runs (R29). -/
def execRingUnbind (p : PacketRef) (s : State) : Host.Outcome State Fault Refusal := .next (ringBindStep true p s)

/-- Once every packet issued from the ring has completed and written its record, the new binding applies (R29). A slot fetched and not issued
is dropped without a record and is not counted (DESIGN CHOICE, log entry 93). -/
def execRingRebindApply (p : PacketRef) (s : State) : Host.Outcome State Fault Refusal :=
  match s.packet p with
  | none => .next s
  | some k =>
    match s.ctx p.part k with
    | none => .next s
    | some c =>
      let r := (s.part p.part).ring c.bindRing
      let busy := (s.part p.part).packets.any fun x => x.ring == c.bindRing
      if k.hdr.opcode = 0x0103 ∧ k.phase = .refWait ∧ busy = false ∧ s.fatal = false then
        .next ((s.finish p.part k (WorkOut.of (Result.of [] r.waiting 0 0))).modRing p.part c.bindRing
          (·.bindTo (if c.unbinds then none else some c.binding)))
      else .next s

/-! Gangs. -/

/-- The members that a GANG_FORM reads. -/
def Ctx.gangMembers (c : Ctx) : List Nat := (List.range (clampNat 1 64 (c.u 2 1))).map fun i => c.u (8 + 2 * i) 2

/-- The rule for a GANG field (R117, R118, Table 5.6); `formed` tells whether the gang must be formed. -/
def Ctx.gangStatus (c : Ctx) (formed : Bool) : Option Nat :=
  let h := c.u 0 2
  if h < 0x100 ∨ 0x200 ≤ h then some ERR_DESCRIPTOR
  else if 64 * c.q ≤ h - 0x100 then some ERR_PARTITION
  else if ((c.s.part c.p).gang (h - 0x100)).isSome = formed then none else some ERR_DESCRIPTOR

/-- Whether a handle is a direct member of a formed gang. -/
def Part.isMember (pt : Part) (h : Nat) : Bool := pt.gangs.any fun g => g.2.contains h

/-- GANG_FORM (R117). -/
def specGangForm : OpSpec :=
  { code := 0x0104, classes := [.S], len := fun b => 8 + 2 * clampNat 1 64 (fieldAt b 2 1),
    fails := fun c =>
      let ms := c.gangMembers
      let idx := (List.range ms.length).zip ms
      let one := fun (i m : Nat) =>
        if m = 0x200 then [failAt 4 2 ERR_DESCRIPTOR]
        else failOpt (c.s.engineStatus c.p m) 4 2
          ++ failIf ((ms.take i).contains m || m == c.u 0 2 || (c.s.part c.p).isMember m) 4 2 ERR_DESCRIPTOR
      failOpt (c.gangStatus false) 4 0 ++ (idx.flatMap fun x => one x.1 x.2)
        ++ failIf (decide (4 < 1 + (ms.map (depthOf c.s c.p 6)).foldl max 0)) 4 2 ERR_DESCRIPTOR,
    clamps := fun c => clampBit 1 1 64 (c.u 2 1) }

/-- GANG_DISSOLVE (R118). -/
def specGangDissolve : OpSpec :=
  { code := 0x0105, classes := [.S], len := fun _ => 8,
    fails := fun c => failOpt (c.gangStatus true) 4 0 ++ failIf ((c.s.part c.p).isMember (c.u 0 2)) 4 0 ERR_DESCRIPTOR }

/-- GANG_FORM runs; the gang exists from its completion (R117). -/
def execGangForm (p : PacketRef) (s : State) : Host.Outcome State Fault Refusal :=
  .next (runOpcode 0x0104 (fun _ => true)
    (fun c => WorkOut.of { Result.empty with effects := [Effect.gangForm (c.u 0 2 - 0x100) c.gangMembers] }) p s)

/-- GANG_DISSOLVE runs; the gang ceases at its completion (R118). -/
def execGangDissolve (p : PacketRef) (s : State) : Host.Outcome State Fault Refusal :=
  .next (runOpcode 0x0105 (fun _ => true)
    (fun c => WorkOut.of { Result.empty with effects := [Effect.gangDissolve (c.u 0 2 - 0x100)] }) p s)

end Sys2Proof.Machine
end

