-- ==== Sys2Proof/Machine/Maintenance.lean ====
section
/-! DEFINITION. The maintenance opcodes: SCRUB_SET (R277), REMAP_ADD (R280–R282), RETIRE and REINSTATE (R127, R128, R284, R410,
R416–R419), and ERRLOG_READ (R285, R286). -/

namespace Sys2Proof.Machine

/-! SCRUB_SET. -/

/-- The range of PERIOD of a memory kind (R277). -/
def periodRange (mem : Nat) : Nat × Nat := if mem = 0 then (2, 100) else if mem = 1 then (900, 144000) else (3600, 864000)

/-- SCRUB_SET (Table 11.3). -/
def specScrubSet : OpSpec :=
  { code := 0x0A01, classes := [.M, .S], len := fun _ => 16,
    fails := fun c => failIf (decide (2 < c.u 0 1)) 4 0 ERR_DESCRIPTOR ++ failIf (decide (3 < c.u 1 1)) 4 1 ERR_DESCRIPTOR,
    clamps := fun c =>
      let (lo, hi) := periodRange (c.u 0 1)
      if c.u 4 4 = 0 then [] else clampBit 3 lo hi (c.u 4 4) }

/-- A setting changed by a SCRUB_SET: zero and REPAIR 3 leave a field as it is (R277). -/
def ScrubSetting.change (x : ScrubSetting) (mem repair thresh period : Nat) : ScrubSetting :=
  let (lo, hi) := periodRange mem
  { period := if period = 0 then x.period else clampNat lo hi period,
    repair := if repair = 3 then x.repair else repair,
    ceThresh := if thresh = 0 then x.ceThresh else thresh }

/-- The settings that a SCRUB_SET changes, in every quarter of the partition; MEM 2 without a sump changes nothing (R277). -/
def Ctx.scrubEff (c : Ctx) (s : State) : State :=
  let mem := c.u 0 1
  if mem = 2 ∧ s.hasSump c.p = false then s
  else
    let one := fun (q : Nat) (xs : List ScrubSetting) =>
      if (s.quarters c.p).contains q then xs.modify mem fun x => x.change mem (c.u 1 1) (c.u 2 1) (c.u 4 4) else xs
    { s with scrubSettings := ((List.range s.scrubSettings.length).zip s.scrubSettings).map fun x => one x.1 x.2 }

/-- SCRUB_SET runs (R277). -/
def execScrubSet (p : PacketRef) (s : State) : Host.Outcome State Fault Refusal :=
  .next (runThen 0x0A01 (fun _ => true) (fun _ => WorkOut.of Result.empty) Ctx.scrubEff p s)

/-! REMAP_ADD. -/

/-- The entries that remain free in the remap table that serves an address (R280, R281). -/
def State.remapRoom (s : State) (a : Nat) : Nat :=
  match s.localOf a with
  | some (k, u, _) => remapCapacity k - (s.remapTable k u).length
  | none => 0

/-- REMAP_ADD (R281). -/
def specRemapAdd : OpSpec :=
  { code := 0x0A02, classes := [.M, .S], len := fun _ => 16,
    fails := fun c =>
      failIf (!c.s.inRange c.p (c.addr 0)) 6 0 ERR_PARTITION ++ failIf (decide (c.addr 0 % 64 ≠ 0)) 7 0 ERR_ALIGN,
    late := fun c => failIf (!c.s.isRemapped (c.addr 0) && decide (c.s.remapRoom (c.addr 0) = 0)) 9 0 ERR_DESCRIPTOR }

/-- A granule remapped on request (R280): its record names the packet's ring. -/
def Ctx.remapNow (c : Ctx) (s : State) : State :=
  match s.localOf (c.addr 0) with
  | some (k, u, off) => (s.remapGranule (c.addr 0) k u (off / 64) ((c.u 8 1).testBit 0)).memEvent 5 (c.addr 0) 0 0 c.pkt.ring
  | none => s

/-- A refused REMAP_ADD is logged (R280, Table 11.6). -/
def State.remapRefused (s : State) (a ring : Nat) : State := s.memEvent 7 a 0 ERR_DESCRIPTOR ring

/-- REMAP_ADD runs (R281): a table that has filled since the check refuses the entry, and a unit that does not answer is not reached (R11,
R252). -/
def execRemapAdd (p : PacketRef) (s : State) : Host.Outcome State Fault Refusal :=
  .next (runThen 0x0A02 (fun _ => true)
    (fun c =>
      let a := c.addr 0
      let room := c.s.remapRoom a
      if !c.s.addrUp a then WorkOut.of (Result.of [ERR_PEER_UNREACHABLE] 0 0 0)
      else if c.s.isRemapped a then WorkOut.of (Result.of [] 0 room 0)
      else if room = 0 then WorkOut.of { Result.of [ERR_DESCRIPTOR] 0 0 0 with field := 0 }
      else WorkOut.of (Result.of [] 1 (room - 1) 0))
    (fun c s =>
      let a := c.addr 0
      if !s.addrUp a || s.isRemapped a then s else if s.remapRoom a = 0 then s.remapRefused a c.pkt.ring else c.remapNow s) p s)

/-! RETIRE and REINSTATE. -/

/-- The rule for KIND and UNIT (R416). -/
def Ctx.retireFails (c : Ctx) (reinstate : Bool) : List Fail :=
  let unit := c.u 2 2
  failIf (decide (1 < c.u 0 1)) 4 0 ERR_DESCRIPTOR
    ++ (if 255 < unit then [failAt 4 1 ERR_DESCRIPTOR]
        else failIf (decide (unit / 64 < c.p ∨ c.p + c.q ≤ unit / 64)) 4 1 ERR_PARTITION)
    ++ failIf (reinstate && decide (c.u 0 1 = 0) && c.s.retiredSlices.contains unit) 4 1 ERR_DESCRIPTOR

/-- RETIRE (R416). -/
def specRetire : OpSpec :=
  { code := 0x0A03, classes := [.M, .S], len := fun _ => 8, fails := fun c => c.retireFails false }

/-- REINSTATE (R416). -/
def specReinstate : OpSpec :=
  { code := 0x0A04, classes := [.M, .S], len := fun _ => 8, fails := fun c => c.retireFails true }

/-- The arrays in service in a quarter. -/
def State.servingIn (s : State) (q : Nat) : Nat := (((List.range 64).map (64 * q + ·)).filter s.inService).length

/-- The lowest-numbered spare in reserve in a quarter (R127). -/
def State.nextSpare (s : State) (q : Nat) : Option Nat := (sortBy (· < ·) (s.reserve.filter fun a => a / 64 == q))[0]?

/-- An array removed (R127, R417, R419): from its gang position, where a spare takes its place when the quarter holds one. -/
def State.retireArray (s : State) (a ring : Nat) : State :=
  if s.retired.contains a then s
  else
    let q := a / 64
    let rec' := fun (spare : Nat) => { mkEvent 0x4A a spare with ring := ring }
    if s.reserve.contains a then
      { s with reserve := setDel s.reserve a, retired := setIns s.retired a, retiring := setDel s.retiring a }.logQuarter q
        (rec' 0xFFFF)
    else
      let spare := s.nextSpare q
      let place := fun (ms : List Nat) => match spare with
        | some b => ms.map fun m => if m = a then b else m
        | none => ms.filter (· ≠ a)
      let s1 := s.modPart (s.lowQ q) fun pt => { pt with gangs := pt.gangs.map fun g => (g.1, place g.2) }
      { s1 with reserve := (match spare with | some b => setDel s.reserve b | none => s.reserve),
                retired := setIns s.retired a, retiring := setDel s.retiring a }.logQuarter q (rec' (spare.getD 0xFFFF))

/-- A slice retired, and its array with it where it is in service or in reserve (R284, R417). -/
def State.retireSlice (s : State) (u ring : Nat) : State :=
  if s.retiredSlices.contains u then s
  else
    let s1 := { s with retiredSlices := setIns s.retiredSlices u }.logQuarter (u / 64) { mkEvent 0x4C u 0 with ring := ring }
    s1.retireArray u ring

/-- A retired array returned: to service while its quarter has fewer than 60, else to the reserve (R128, R419). -/
def State.reinstateArray (s : State) (a ring : Nat) : State :=
  if !s.retired.contains a then s
  else
    let serve := decide (s.servingIn (a / 64) < 60)
    { s with retired := setDel s.retired a,
             reserve := if serve then s.reserve else setIns s.reserve a }.logQuarter (a / 64)
      { mkEvent 0x4B a (if serve then 0 else 1) with ring := ring }

/-- A retired slice returned to the pool; its array stays retired (R418). -/
def State.reinstateSlice (s : State) (u : Nat) : State := { s with retiredSlices := setDel s.retiredSlices u }

/-- The array that a RETIRE takes out of service. -/
def Ctx.retireArrayOf (c : Ctx) : Nat := c.u 2 2

/-- A packet's reference as the list `work` of a waiting packet holds it. -/
def refKey (ring idx : Nat) : Int := ((ring * 2 ^ 32 + idx : Nat) : Int)

/-- The packets for which a RETIRE waits (R127): those that took their snapshot before and whose leaf list includes the array. -/
def Part.onArray (pt : Part) (a : Nat) : List Int :=
  (pt.packets.filter fun k => match k.snap with | some sn => sn.leaves.contains a | none => false).map fun k => refKey k.ring k.idx

/-- Whether every packet for which a RETIRE waits has completed. -/
def Part.drained (pt : Part) (work : List Int) : Bool := work.all fun w => !pt.packets.any fun k => refKey k.ring k.idx == w

/-- The arrays that are leaving (R127, R410): packets whose engine includes one hold before their snapshot. -/
def State.leaving (s : State) (p : Nat) : List Nat :=
  ((s.part p).packets.filterMap fun k =>
    match k.snap with
    | some sn => if k.hdr.opcode == 0x0A03 && k.phase != .recordHeld && k.res.codes.isEmpty then some (fieldAt sn.params 2 2) else none
    | none => none)
  ++ s.retiring

/-- The effect of a RETIRE, applied at its completion (R127, R284); a unit of a half that is off is not reached (R11). -/
def Ctx.retireWork (c : Ctx) : WorkOut :=
  if c.s.halvesDown.contains (c.u 2 2 / 128) then WorkOut.of (Result.of [ERR_PEER_UNREACHABLE] 0 0 0)
  else WorkOut.of { Result.empty with
    effects := [if c.u 0 1 = 0 then Effect.retireArray c.retireArrayOf else Effect.retireSlice c.retireArrayOf] }

/-- RETIRE runs (R416, R417). -/
def execRetireUnit (p : PacketRef) (s : State) : Host.Outcome State Fault Refusal :=
  .next (runOpcode 0x0A03 (fun _ => true) Ctx.retireWork p s)

/-- A waiting RETIRE goes on once the packets on its array have completed (R127). -/
def execRetireDrainEnd (p : PacketRef) (s : State) : Host.Outcome State Fault Refusal :=
  match s.packet p with
  | none => .next s
  | some k =>
    if k.hdr.opcode = 0x0A03 ∧ k.phase = .refWait ∧ s.fatal = false ∧ (s.part p.part).drained k.work = true then
      .next (runOpcode 0x0A03 (fun _ => true) Ctx.retireWork p (s.setPacket p.part { k with phase := .ready }))
    else .next s

/-- The firmware retires an array at its second mismatch, once the packets on it have completed (R410). The record names the ring of the
packet whose mismatch it was, as the newest DATAPATH record of the array holds it. -/
def execArrayAutoRetire (array : Nat) (s : State) : Host.Outcome State Fault Refusal :=
  let p := s.lowQ (array / 64)
  if s.retiring.contains array = false ∨ s.fatal = true ∨ ((s.part p).onArray array).isEmpty = false then .next s
  else
    let ring := ((((s.part p).log.reverse).find? fun r => r.event == 0x40 && r.unit == array).map (·.ring)).getD 0xFFFF
    .next (s.retireArray array ring)

/-- REINSTATE runs (R416, R418): an array is tested first, and one that fails stays retired. -/
def execReinstate (p : PacketRef) (testPassed : Bool) (s : State) : Host.Outcome State Fault Refusal :=
  .next (runOpcode 0x0A04 (fun _ => true)
    (fun c =>
      let u := c.u 2 2
      if c.s.halvesDown.contains (u / 128) then WorkOut.of (Result.of [ERR_PEER_UNREACHABLE] 0 0 0)
      else if c.u 0 1 = 1 then WorkOut.of { Result.empty with effects := [Effect.reinstateSlice u] }
      else if c.s.retired.contains u && !testPassed then WorkOut.of (Result.of [ERR_DATAPATH] 1 (c.s.servingIn (u / 64)) 0)
      else WorkOut.of { Result.empty with effects := [Effect.reinstateArray u] }) p s)

/-- What step 1 of R40 does for a RETIRE or REINSTATE, with COUNT0, COUNT1 and OPFLAGS (R416, R417). -/
def State.retireEffect (s : State) (e : Effect) (ring : Nat) : State × Nat × Nat × Nat :=
  let done := fun (t : State) (changed : Bool) (unit : Nat) =>
    (t, if changed then 1 else 0, t.servingIn (unit / 64),
      if t.retired != s.retired && decide (t.reserve.length < s.reserve.length) && !s.reserve.contains unit then 1 else 0)
  match e with
  | .retireArray a => done (s.retireArray a ring) (!s.retired.contains a) a
  | .retireSlice u => done (s.retireSlice u ring) (!s.retiredSlices.contains u) u
  | .reinstateArray a => let (t, x, y, _) := done (s.reinstateArray a ring) (s.retired.contains a) a; (t, x, y, 0)
  | .reinstateSlice u => let (t, x, y, _) := done (s.reinstateSlice u) (s.retiredSlices.contains u) u; (t, x, y, 0)
  | _ => (s, 0, 0, 0)

/-! ERRLOG_READ. -/

/-- The 32 bytes of a log record (Table 11.5). -/
def LogRecord.bytes (r : LogRecord) : List Byte :=
  toLe 4 r.seq ++ toLe 1 r.event ++ toLe 1 r.mem ++ toLe 2 r.unit ++ toLe 8 r.addr ++ toLe 4 r.position ++ toLe 4 r.count
    ++ toLe 2 r.status ++ toLe 2 r.ring ++ toLe 4 r.stamp

/-- COUNT of an ERRLOG_READ after its clamp (R286). -/
def Ctx.logCount (c : Ctx) : Nat := clampNat 1 1024 (c.u 0 2)

/-- ERRLOG_READ (R286). -/
def specErrlogRead : OpSpec :=
  { code := 0x0A05, classes := [.M, .S], len := fun _ => 16,
    accs := fun c => accMem 2 true (c.addr 8) (32 * c.logCount) 64,
    clamps := fun c => clampBit 0 1 1024 (c.u 0 2) }

/-- The records copied become read and the LOST count that was reported is cleared; what has been appended since stays (R286). -/
def Part.consume (pt : Part) (copied : List LogRecord) (lost : Nat) : Part :=
  { pt with log := pt.log.filter fun r => copied.all fun x => decide (x.seq < r.seq), logLost := pt.logLost - lost }

/-- ERRLOG_READ runs (R286). -/
def execErrlogRead (p : PacketRef) (s : State) : Host.Outcome State Fault Refusal :=
  .next (runThen 0x0A05 (fun _ => true)
    (fun c =>
      let rs := (c.s.part c.p).log.take c.logCount
      let ws := if rs.isEmpty then [] else [(⟨c.addr 8, rs.flatMap LogRecord.bytes, false⟩ : Write)]
      { reads := [], writes := ws, res := Result.of [] rs.length (c.s.part c.p).logLost 0 })
    (fun c s =>
      if (c.u 2 1).testBit 0 then s.modPart c.p fun pt => pt.consume ((c.s.part c.p).log.take c.logCount) (c.s.part c.p).logLost else s) p s)

end Sys2Proof.Machine
end

