-- ==== Sys2Proof/Machine/Atomics.lean ====
section
/-! DEFINITION. Memory-side atomic adds (R263–R265) and raises of event counters (R39). -/

namespace Sys2Proof.Machine

/-- The bytes of an element of an atomic kind (Table 10.6): 0 INT32, 1 INT64, 2 FP32, 3 WIDE160. -/
def atomicWidth : Nat → Nat
  | 0 => 4 | 1 => 8 | 2 => 4 | _ => 24

/-- The binary32 code of a value, infinities and NaN included (Table 10.6). -/
def f32Code (v : Num) : Nat :=
  if v.isFinite then (encodeUnscaled 0 .rne (.ofNum v)).1 else nonfiniteCode 0 v

/-- The result at the target of one add (Table 10.6). -/
def atomicAdd (kind x y : Nat) : Nat :=
  match kind with
  | 0 => (x + y) % 2 ^ 32
  | 1 => (x + y) % 2 ^ 64
  | 2 => f32Code (fl32 (ieeeAdd (decodeElt 0 x) (decodeElt 0 y)))
  | _ => ((W160.ofBits x).add (W160.ofBits y)).1.bits

/-- One add at an address (R263, R264): the target as found, with its poison, and the state after it. The target's granule first drains its
merge-buffer entry (R271). A bad target or a poisoned addend leaves the target poisoned, and the value returned is poisoned (R274). -/
def State.atomicElt (s : State) (kind a y : Nat) (poison : Bool) : State × Nat × Bool :=
  let w := atomicWidth kind
  let s0 := (dedupNat [a / 64 * 64, (a + w - 1) / 64 * 64]).foldl State.drain s
  let x := s0.readNat a w
  let bad := poison || s0.badIn a w
  let s1 := if s0.faults.isEmpty then s0 else (codewordsIn a w).foldl (fun s cw => s.readCw cw 0 0xFFFF false) s0
  (s1.store ⟨a, toLe w (atomicAdd kind x y), bad⟩, x, bad)

/-- INT64 adds of a list of addends at consecutive quadwords (R346). -/
def State.addQuads (s : State) (a : Nat) (ys : List Nat) : State :=
  ((List.range ys.length).zip ys).foldl (fun s (i, y) => (s.atomicElt 1 (a + 8 * i) (y % 2 ^ 64) false).1) s

/-- An event counter raised (R39). -/
def Part.raise (pt : Part) (ctr inc : Nat) : Part :=
  { pt with counters := Tbl.set 0 pt.counters ctr (satAdd (2 ^ 64 - 1) (Tbl.get 0 pt.counters ctr) inc) }

end Sys2Proof.Machine
end

