-- ==== Sys2Proof/Machine/Crypto.lean ====
section
/-! DEFINITION. The checks and ciphers that the manual names by their standards and that the module's own rules compute with: the
CRCs (R308, R298, Table 15.2), SHA3-256 (FIPS 202), and AES-256-GCM (FIPS 197, SP 800-38D). -/

namespace Sys2Proof

/-! CRCs. -/

/-- One bit of a reflected CRC-32. -/
def crcBit (poly c : Nat) : Nat := if c % 2 = 1 then c / 2 ^^^ poly else c / 2

/-- One byte of a reflected CRC-32. -/
def crcByte (poly c : Nat) (b : Byte) : Nat := (List.range 8).foldl (fun c _ => crcBit poly c) (c ^^^ b.toNat)

/-- CRC-32C (R308): polynomial 0x1EDC_6F41 reflected, initial value and final XOR all ones. -/
def crc32c (bs : List Byte) : Nat := bs.foldl (crcByte 0x82F63B78) 0xFFFFFFFF ^^^ 0xFFFFFFFF

/-- One byte of the CRC-32 of MPEG-2 sections (Table 15.2), most significant bit first. -/
def crcMpegByte (c : Nat) (b : Byte) : Nat :=
  (List.range 8).foldl (fun c _ => if c.testBit 31 then (2 * c) % 2 ^ 32 ^^^ 0x04C11DB7 else (2 * c) % 2 ^ 32)
    (c ^^^ b.toNat * 2 ^ 24)

/-- The CRC-32 of an MPEG-2 section with its CRC field: zero when it checks. -/
def crcMpeg (bs : List Byte) : Nat := bs.foldl crcMpegByte 0xFFFFFFFF

/-! SHA3-256. -/

/-- The states of the 8-bit shift register that makes the round constants (x^8 + x^6 + x^5 + x^4 + 1), from 1 on. -/
def lfsrWalk : Nat → Nat → List Nat
  | 0, _ => []
  | n + 1, r => r :: lfsrWalk n (if r < 128 then 2 * r else (2 * r) ^^^ 0x171)

/-- The round constants of Keccak-f[1600]: bit 2^j - 1 of the constant of round r is output 7r + j of the register. -/
def keccakRc : List Nat :=
  let outs := (lfsrWalk 168 1).map (· % 2)
  (List.range 24).map fun r => ((List.range 7).map fun j => (outs[7 * r + j]?).getD 0 * 2 ^ (2 ^ j - 1)).sum

/-- The lanes other than (0, 0) in the order in which ρ and π meet them: each goes to the next one's place, as (x, y) to
(y, 2x + 3y). -/
def keccakPath : Nat → Nat × Nat → List (Nat × Nat)
  | 0, _ => []
  | n + 1, (x, y) => (x, y) :: keccakPath n (y, (2 * x + 3 * y) % 5)

/-- A 64-bit lane turned left. -/
def turn64 (n v : Nat) : Nat := v * 2 ^ (n % 64) % 2 ^ 64 + v / 2 ^ (64 - n % 64)

/-- Where each lane comes from under ρ and π, and by how much it turns: the t-th move of the path turns (t + 1)(t + 2)/2. -/
def keccakMoves : List (Nat × Nat × Nat) :=
  let steps := (keccakPath 24 (1, 0)).zip ((keccakPath 25 (1, 0)).drop 1)
  (0, 0, 0) :: (steps.zip (List.range 24)).map fun ((src, dst), t) => (dst.1 + 5 * dst.2, src.1 + 5 * src.2, (t + 1) * (t + 2) / 2)

/-- A row of five lanes under χ. -/
def keccakChi : List Nat → List Nat
  | [a, b, c, d, e] =>
    let m := fun (p q r : Nat) => p ^^^ ((2 ^ 64 - 1 - q) &&& r)
    [m a b c, m b c d, m c d e, m d e a, m e a b]
  | r => r

/-- The list cut into rows of five. -/
def rowsOfFive : Nat → List Nat → List (List Nat)
  | 0, _ => []
  | n + 1, l => l.take 5 :: rowsOfFive n (l.drop 5)

/-- One round of Keccak-f[1600] on 25 lanes: θ by column parities, ρ and π by the moves, χ by rows, and ι. -/
def keccakRound (lanes : List Nat) (rc : Nat) : List Nat :=
  let parity := (rowsOfFive 5 lanes).foldl (fun p r => (p.zip r).map fun (u, v) => u ^^^ v) [0, 0, 0, 0, 0]
  let mix := match parity with
    | [p, q, r, s, t] => [t ^^^ turn64 1 q, p ^^^ turn64 1 r, q ^^^ turn64 1 s, r ^^^ turn64 1 t, s ^^^ turn64 1 p]
    | l => l
  let mixed := (rowsOfFive 5 lanes).flatMap fun r => (r.zip mix).map fun (u, v) => u ^^^ v
  let moved := (List.range 25).map fun i =>
    match keccakMoves.find? (·.1 == i) with
    | some (_, src, n) => turn64 n ((mixed[src]?).getD 0)
    | none => 0
  match (rowsOfFive 5 moved).flatMap keccakChi with
  | a :: l => (a ^^^ rc) :: l
  | [] => []

/-- Keccak-f[1600]. -/
def keccakF (lanes : List Nat) : List Nat := keccakRc.foldl keccakRound lanes

/-- A block of the rate, 17 lanes, taken in. -/
def keccakTake (lanes : List Nat) (block : List Byte) : List Nat :=
  keccakF (((List.range 25).zip lanes).map fun (i, v) => v ^^^ leNat ((block.drop (8 * i)).take 8))

/-- The 136-byte blocks of a message, `n` of them. -/
def rateBlocks (n : Nat) (bs : List Byte) : List (List Byte) := (List.range n).map fun i => (bs.drop (136 * i)).take 136

/-- SHA3-256 (FIPS 202). -/
def sha3 (m : List Byte) : List Byte :=
  let blocks := m.length / 136 + 1
  let last := 136 * blocks - 1
  let filled := if m.length = last then m ++ [0x86] else m ++ 0x06 :: List.replicate (last - m.length - 1) 0 ++ [0x80]
  (((rateBlocks blocks filled).foldl keccakTake (List.replicate 25 0)).take 4).flatMap (toLe 8)

/-- Bytes 0–7 of a digest as a little-endian number (R328, R350). -/
def digest8 (m : List Byte) : Nat := leNat ((sha3 m).take 8)

/-! AES-256. -/

/-- Multiplication by x in the field of AES. -/
def aesTwice (a : Nat) : Nat := if a < 128 then 2 * a else (2 * a) % 256 ^^^ 0x1B

/-- Multiplication in the field of AES. -/
def aesMul (a b : Nat) : Nat :=
  ((List.range 8).foldl (fun (st : Nat × Nat) i => (if b.testBit i then st.1 ^^^ st.2 else st.1, aesTwice st.2)) (0, a)).1

/-- The inverse in the field of AES: the 254th power. -/
def aesInv (a : Nat) : Nat :=
  let sq := fun (x : Nat) => aesMul x x
  let a2 := sq a
  let a4 := sq a2
  let a8 := sq a4
  let a16 := sq a8
  let a32 := sq a16
  let a64 := sq a32
  let a128 := sq a64
  aesMul a128 (aesMul a64 (aesMul a32 (aesMul a16 (aesMul a8 (aesMul a4 a2)))))

/-- The S-box of AES. -/
def aesSub (a : Nat) : Nat :=
  let b := aesInv a
  let rot := fun (k : Nat) => (b * 2 ^ k) % 256 + b / 2 ^ (8 - k)
  b ^^^ rot 1 ^^^ rot 2 ^^^ rot 3 ^^^ rot 4 ^^^ 0x63

/-- The bytes of the key schedule of AES-256, as they grow by words of four bytes. -/
def aesSchedule (key : List Nat) : List Nat :=
  ((List.range 52).foldl (fun (st : List Nat × Nat) i =>
    let w := i + 8
    let prev := st.1.drop (4 * (w - 1))
    let old := (st.1.drop (4 * (w - 8))).take 4
    let t := if w % 8 = 0 then
        (match (prev.drop 1).take 3 ++ prev.take 1 with
        | x :: r => (aesSub x ^^^ st.2) :: r.map aesSub
        | [] => [])
      else if w % 8 = 4 then (prev.take 4).map aesSub
      else prev.take 4
    (st.1 ++ (old.zip t).map (fun p => p.1 ^^^ p.2), if w % 8 = 0 then aesTwice st.2 else st.2)) (key, 1)).1

/-- One AES-256 block encryption (FIPS 197) of 16 bytes. -/
def aesBlock (schedule : List Nat) (block : List Nat) : List Nat :=
  let addKey := fun (r : Nat) (s : List Nat) => (s.zip ((schedule.drop (16 * r)).take 16)).map fun p => p.1 ^^^ p.2
  let shift := fun (s : List Nat) => (List.range 16).map fun i => s[(i + 4 * (i % 4)) % 16]?.getD 0
  let mix := fun (s : List Nat) => (List.range 16).map fun i =>
    let at_ := fun (k : Nat) => s[i / 4 * 4 + (i + k) % 4]?.getD 0
    aesTwice (at_ 0) ^^^ (aesTwice (at_ 1) ^^^ at_ 1) ^^^ at_ 2 ^^^ at_ 3
  let s13 := (List.range 13).foldl (fun s r => addKey (r + 1) (mix (shift (s.map aesSub)))) (addKey 0 block)
  addKey 14 (shift (s13.map aesSub))

/-! GCM. Blocks are 128-bit numbers, most significant byte first. -/

/-- A block as a number. -/
def beNat (bs : List Byte) : Nat := bs.foldl (fun a b => a * 256 + b.toNat) 0

/-- A number as `n` big-endian bytes. -/
def toBe (n x : Nat) : List Byte := (toLe n x).reverse

/-- Multiplication in the field of GHASH (SP 800-38D). -/
def gcmMul (x y : Nat) : Nat :=
  ((List.range 128).foldl (fun (st : Nat × Nat) i =>
    (if x.testBit (127 - i) then st.1 ^^^ st.2 else st.1,
     if st.2 % 2 = 1 then st.2 / 2 ^^^ (0xE1 * 2 ^ 120) else st.2 / 2)) (0, y)).1

/-- The 16-byte blocks of a byte list, the last padded with zeros; `fuel` bounds their number. -/
def blocks16 : Nat → List Byte → List Nat
  | 0, _ => []
  | fuel + 1, bs =>
    if bs.isEmpty then [] else beNat (bs.take 16 ++ List.replicate (16 - bs.length) 0) :: blocks16 fuel (bs.drop 16)

/-- The blocks of a byte list. -/
def gcmBlocks (bs : List Byte) : List Nat := blocks16 (bs.length / 16 + 1) bs

/-- The key stream of GCM from counter block `j`. -/
def gcmStream (schedule : List Nat) (j n : Nat) : List Byte :=
  (List.range n).flatMap fun i =>
    let ctr := j / 2 ^ 32 * 2 ^ 32 + (j + i) % 2 ^ 32
    (aesBlock schedule ((toBe 16 ctr).map (·.toNat))).map fun x => BitVec.ofNat 8 x

/-- AES-256-GCM with a 96-bit nonce: the ciphertext (or plaintext) and the tag over `cipher`. -/
def gcmTag (key nonce aad cipher : List Byte) : List Byte :=
  let sch := aesSchedule (key.map (·.toNat))
  let h := beNat ((gcmStream sch 0 1))
  let lens := aad.length * 8 * 2 ^ 64 + cipher.length * 8
  let g := (gcmBlocks aad ++ gcmBlocks cipher ++ [lens]).foldl (fun y x => gcmMul (y ^^^ x) h) 0
  let j0 := beNat nonce * 2 ^ 32 + 1
  toBe 16 (g ^^^ beNat (gcmStream sch j0 1))

/-- The key stream of GCM applied to data. -/
def gcmCrypt (key nonce data : List Byte) : List Byte :=
  let sch := aesSchedule (key.map (·.toNat))
  let ks := gcmStream sch (beNat nonce * 2 ^ 32 + 2) (ceilDiv data.length 16)
  (data.zip ks).map fun p => p.1 ^^^ p.2

/-- Sealed data: ciphertext and tag. -/
def gcmSeal (key nonce aad plain : List Byte) : List Byte × List Byte :=
  let c := gcmCrypt key nonce plain
  (c, gcmTag key nonce aad c)

/-- Opened data: the plaintext when the tag verifies. -/
def gcmOpen (key nonce aad cipher tag : List Byte) : Option (List Byte) :=
  if gcmTag key nonce aad cipher = tag then some (gcmCrypt key nonce cipher) else none

end Sys2Proof
end

