-- ==== Sys2Proof/Machine/Ports.lean ====
section
/-! DEFINITION. Lanug ports: the arbiter (R293), messages and flits (R307–R311), the replay buffer and retries (R313, R314), port
choice (R318), encrypted flits (R319), and the sending of messages. -/

namespace Sys2Proof.Machine

/-! The arbiter (R293). -/

/-- The winner among requesters that are not masked: the highest-numbered forced one, else the highest-numbered. -/
def arbiterWinner (reqs : List Nat) (wait limit : Nat → Nat) : Option Nat :=
  let forced := reqs.filter fun i => decide (limit i ≤ wait i)
  let pool := if forced.isEmpty then reqs else forced
  match pool with
  | [] => none
  | x :: t => some (t.foldl max x)

/-! Messages (Tables 13.2, 13.3). -/

/-- Message types. -/
abbrev M_WRITE : Nat := 1
/-- a read request -/
abbrev M_READ_REQ : Nat := 2
/-- a read response -/
abbrev M_READ_RESP : Nat := 3
/-- an atomic -/
abbrev M_ATOMIC : Nat := 4
/-- an atomic response -/
abbrev M_ATOMIC_RESP : Nat := 5
/-- a write acknowledgement -/
abbrev M_WRITE_ACK : Nat := 6
/-- a control message -/
abbrev M_CONTROL : Nat := 7
/-- a register access -/
abbrev M_REG : Nat := 8
/-- a register response -/
abbrev M_REG_RESP : Nat := 9

/-- The channel of a message type (Table 13.3). -/
def vcOf (mtype : Nat) : Nat :=
  if mtype = M_WRITE then 2 else if mtype = M_READ_REQ ∨ mtype = M_ATOMIC then 0
  else if mtype = M_CONTROL ∨ mtype = M_REG ∨ mtype = M_REG_RESP then 3 else 1

/-- A message's bytes: its header, its data and zeros to a multiple of 16 (R309). -/
def msgBytes (m : Msg) : List Byte :=
  toLe 1 m.mtype ++ toLe 1 m.mflags ++ toLe 2 m.len ++ toLe 2 m.dstEp ++ toLe 2 m.srcEp ++ toLe 4 m.epoch ++ toLe 4 m.msgId
    ++ toLe 8 m.addr ++ toLe 8 m.poisonMap ++ m.data ++ List.replicate (roundUp m.data.length 16 - m.data.length) 0

/-! Ports. -/

/-- A port of the module. -/
def State.port (s : State) (i : Nat) : Port := s.ports[i]?.getD (Port.reset false)

/-- A change of one port. -/
def State.modPort (s : State) (i : Nat) (f : Port → Port) : State := { s with ports := s.ports.modify i f }

/-- The quarter of a port (Table 1.1). -/
def quarterOfPort (i : Nat) : Nat := if i < 16 then i / 4 else i - 16

/-- Whether a port runs Lanug (R17). -/
def State.runsLanug (s : State) (i : Nat) : Bool := decide (i < 16) || (decide (i < 20) && s.board.xLanug)

/-- The payload bytes of a DATA flit (R308, R319). -/
def Port.payload (p : Port) : Nat := if p.keys.isSome then 224 else 240

/-- Events counted in the port's clock domain; what a read returns saturates (R386). -/
def EventCount.hit (e : EventCount) (n : Nat) : EventCount := { e with count := e.count + n }

/-- A retrain begins (R315): the port stops DATA flits and keeps its replay buffer, sequence numbers and credits. -/
def State.beginRetrain (s : State) (i : Nat) : State :=
  s.modPort i fun p => { p with state := .retraining, retrains := p.retrains.hit 1 }

/-- The header of a flit up to its payload: FSEQ, ACK, VC and the credits it returns (Table 13.1). -/
def flitHead (ftype seq ack : Nat) (ackValid : Bool) (vc : Nat) (credit : Option (Nat × Nat)) : List Byte :=
  toLe 2 (seq % 4096 + ftype * 4096) ++ toLe 2 (ack % 4096 + if ackValid then 4096 else 0) ++ toLe 1 vc
    ++ (match credit with
        | some (v, n) => toLe 1 (v + 128) ++ toLe 2 n
        | none => toLe 3 0)

/-- A flit from its first 248 bytes: the CRC and the reserved bytes (R308). -/
def flitSeal (b : List Byte) : List Byte := b ++ toLe 4 (crc32c b) ++ toLe 4 0

/-- A nonce of 96 bits: a salt and a 64-bit number, both big-endian (R319, R434). -/
def nonce96 (salt n : Nat) : List Byte := toBe 4 salt ++ toBe 8 n

/-- The bytes 0x08 to 0xF7 of a DATA flit: the payload, or the sealed payload and its tag (R319). -/
def Port.seal (p : Port) (head payload : List Byte) : List Byte :=
  match p.keys with
  | none => payload ++ List.replicate (240 - payload.length) 0
  | some k =>
    let (c, t) := gcmSeal k.keyTx (nonce96 k.salt k.txExt) head (payload ++ List.replicate (224 - payload.length) 0)
    c ++ t

/-- The credits that the next flit returns: those of the lowest channel that owes any (R308, R311). -/
def Port.creditOwed (p : Port) : Option (Nat × Nat) :=
  ((List.range 4).map fun v => (v, p.owed[v]?.getD 0)).find? fun x => decide (0 < x.2)

/-- What a flit that leaves tells: the credits of a channel and the acknowledgement are owed no longer (R308, R311). -/
def Port.told (p : Port) : Port :=
  { p with ackDue := false, owed := (match p.creditOwed with | some (v, _) => p.owed.set v 0 | none => p.owed) }

/-- A flit without payload: IDLE is type 1, RETRY_REQ type 2 (R308, R313). -/
def Port.bareFlit (p : Port) (ftype : Nat) : List Byte :=
  flitSeal (flitHead ftype 0 p.rxLast p.rxAny 0 p.creditOwed ++ List.replicate 240 0)

/-- One DATA flit sent: it takes the next sequence number, one credit, and stands in the replay buffer (R308, R311, R313). -/
def Port.sendFlit (p : Port) (f : TxFlit) : Port × List Byte :=
  let head := flitHead 0 p.txNext p.rxLast p.rxAny f.vc p.creditOwed
  let bytes := flitSeal (head ++ p.seal head f.payload)
  ({ p.told with
     txNext := (p.txNext + 1) % 4096,
     replay := p.replay ++ [(p.txNext, f, bytes)],
     credits := p.credits.modify f.vc (· - 1),
     keys := p.keys.map fun k => { k with txExt := k.txExt + 1 } }, bytes)

/-- The next `n` bytes of a channel's stream, message after message, with the owners of what they carry and what then waits (R309). A VC3 message has
its flit to itself. -/
def takeStream (vc : Nat) : Nat → List TxMsg → List Byte × List PacketRef × List TxMsg
  | _, [] => ([], [], [])
  | n, m :: ms =>
    if m.vc ≠ vc ∨ n = 0 then
      let (b, os, q) := takeStream vc n ms
      (b, os, m :: q)
    else
      let b := m.bytes.take n
      let rest := m.bytes.drop n
      let (b2, os, q) := takeStream vc (if vc = 3 then 0 else n - b.length) ms
      (b ++ b2, m.owner.toList ++ os, if rest.isEmpty then q else { m with begun := true, bytes := rest } :: q)

/-- The channels that ask for the link: those with a flit waiting and a credit (R311). -/
def Port.requesting (p : Port) : List Nat :=
  (List.range 4).filter fun v => p.txQueue.any (·.vc == v) && decide (0 < p.credits[v]?.getD 0)

/-- The flits that a port can send now, one after the other, by the link egress arbiter (R293, R311, Table 12.3); `fuel` bounds their
number. -/
def Port.pump : Nat → Port → Port × List (List Byte)
  | 0, p => (p, [])
  | fuel + 1, p =>
    if p.state ≠ .up ∨ p.switching.isSome ∨ 128 ≤ p.replay.length then (p, [])
    else
      match arbiterWinner p.requesting (fun v => p.waits[v]?.getD 0) (fun _ => 32) with
      | none => (p, [])
      | some v =>
        let ws := (List.range 4).map fun w =>
          let x := p.waits[w]?.getD 0
          if w = v then 0 else if p.requesting.contains w then min (x + 1) 32 else x
        let (payload, owners, q) := takeStream v p.payload p.txQueue
        let (p1, b) := { p with txQueue := q, waits := ws }.sendFlit ⟨v, owners, payload⟩
        let (p2, bs) := Port.pump fuel p1
        (p2, b :: bs)

/-- A port sends what it can. -/
def State.pumpPort (s : State) (i : Nat) : State :=
  let p := s.port i
  let (p1, bs) := p.pump (p.txQueue.map fun m => ceilDiv m.bytes.length 224).sum
  bs.foldl (fun s b => s.emit (.flit i b)) (s.modPort i fun _ => p1)

/-- An IDLE flit of a port that has credits or an acknowledgement to tell and sent nothing else that could (R308). IDLE flits that repeat what has
been told are left out (DESIGN CHOICE, log entry 100). -/
def State.idlePort (s : State) (i : Nat) : State :=
  let p := s.port i
  if p.state == .up && (p.ackDue || p.creditOwed.isSome) then (s.modPort i Port.told).emit (.flit i (p.bareFlit 1)) else s

/-- A message handed to a port: it joins its channel's stream. A flit that begins before the stream fills it is padded with zeros (R309; DEDUCED, log
entry 20). -/
def State.portSend (s : State) (i : Nat) (owner : Option PacketRef) (m : Msg) : State :=
  let x : TxMsg := ⟨vcOf m.mtype, owner, false, msgBytes m⟩
  ((s.modPort i fun p => { p with txQueue := p.txQueue ++ [x] }).emit (.lanug i (vcOf m.mtype) m)).pumpPort i

/-! Port choice (R318, R433). -/

/-- The half of a port (Table 1.1). -/
def portHalf (i : Nat) : Nat := if i < 16 then i / 8 else (i - 16) / 2

/-- Whether a port may carry messages of a partition: up, and encrypted where the partition is confidential. -/
def State.usable (s : State) (p i : Nat) : Bool :=
  s.runsLanug i && (s.port i).state == .up && !s.halvesDown.contains (portHalf i)
    && (!(s.part p).confidential || (s.port i).keys.isSome)

/-- The port on which a message of a partition goes out (R318): ADDR is the global address that the message carries. -/
def State.choosePort (s : State) (p dst mtype addr : Nat) : Option Nat :=
  let mask := Tbl.get 0 (s.part p).routeMasks dst
  let exempt := decide (mtype = M_REG ∨ mtype = M_REG_RESP)
  let ups := (List.range 20).filter fun i =>
    mask.testBit i && (s.usable p i || (exempt && s.runsLanug i && (s.port i).state == .up && !s.halvesDown.contains (portHalf i)))
  if ups.isEmpty then none
  else if vcOf mtype = 3 then ups[0]?
  else ups[(addr / 4096 + dst) % ups.length]?

/-- A heartbeat's port: any port of the mask that is up, encrypted or not (R433). -/
def State.heartbeatPort (s : State) (p dst : Nat) : Option Nat :=
  (List.range 20).find? fun i =>
    (Tbl.get 0 (s.part p).routeMasks dst).testBit i && s.runsLanug i && (s.port i).state == .up && !s.halvesDown.contains (portHalf i)

/-- A message of a partition as it leaves, with its identifier; `none` when no port of its mask can take it, or the partition is
quarantined (R318, R334). The answer gives the identifier and the port. -/
def State.send (s : State) (p : Nat) (owner : Option PacketRef) (dst mtype mflags addr len poison : Nat) (data : List Byte) :
    State × Option (Nat × Nat) :=
  if (s.part p).quarantined && mtype != M_REG && mtype != M_REG_RESP then (s, none)
  else
    match s.choosePort p dst mtype addr with
    | none => (s, none)
    | some i =>
      let m : Msg := ⟨mtype, mflags, dst, s.endpoint, (s.part p).epoch, s.nextMsgId, addr, len, poison, data⟩
      ({ s with nextMsgId := (s.nextMsgId + 1) % 2 ^ 32 }.portSend i owner m, some (m.msgId, i))

/-- A response to a message, with the identifier it echoes, on a port of the mask of its destination (R310). -/
def State.respond (s : State) (p : Nat) (m : Msg) (mtype poison : Nat) (data : List Byte) : State :=
  if (s.part p).quarantined && mtype != M_REG_RESP then s
  else
    match s.choosePort p m.srcEp mtype m.addr with
    | none => s
    | some i =>
      s.portSend i none ⟨mtype, 0, m.srcEp, s.endpoint, (s.part p).epoch, m.msgId, m.addr, data.length, poison, data⟩

/-! Control messages (Table 14.2). -/

/-- A control payload. -/
structure Control where
  kind : Nat
  dstPart : Nat
  srcPart : Nat
  round : Nat
  opcode : Nat
  ctag : Nat
  srcRank : Nat
  ghash : Nat
  arg0 : Nat
  arg1 : Nat
  arg2 : Nat
  arg3 : Nat
  deriving DecidableEq, Repr

/-- The bytes of a control payload: 48, or 64 where the READY of an ALLTOALL or of a port's key exchange carries more (log entries 21,
28). -/
def Control.bytes (c : Control) : List Byte :=
  toLe 1 c.kind ++ toLe 1 c.dstPart ++ toLe 1 c.srcPart ++ toLe 1 c.round ++ toLe 2 c.opcode ++ toLe 2 0 ++ toLe 4 c.ctag
    ++ toLe 4 c.srcRank ++ toLe 8 c.ghash ++ toLe 8 c.arg0 ++ toLe 8 c.arg1 ++ toLe 8 c.arg2
    ++ (if (c.opcode = 0x0604 ∨ c.opcode = 0x0B02) ∧ c.kind = 1 then toLe 8 c.arg3 ++ toLe 8 0 else [])

/-- A control payload as a message carries it. -/
def Control.parse (b : List Byte) : Control :=
  let f := fun (off w : Nat) => leNat ((b.drop off).take w)
  ⟨f 0 1, f 1 1, f 2 1, f 3 1, f 4 2, f 8 4, f 0xC 4, f 0x10 8, f 0x18 8, f 0x20 8, f 0x28 8, f 0x30 8⟩

/-- A control message sent to an endpoint; whether a port took it. -/
def State.sendControl (s : State) (p : Nat) (owner : Option PacketRef) (dst : Nat) (c : Control) : State × Bool :=
  let b := c.bytes
  if c.kind = 4 then
    match s.heartbeatPort p dst with
    | none => (s, false)
    | some i =>
      ({ s with nextMsgId := (s.nextMsgId + 1) % 2 ^ 32 }.portSend i owner
        ⟨M_CONTROL, 0, dst, s.endpoint, (s.part p).epoch, s.nextMsgId, 0, b.length, 0, b⟩, true)
  else
    let (s1, r) := s.send p owner dst M_CONTROL 0 0 b.length 0 b
    (s1, r.isSome)

end Sys2Proof.Machine
end

