-- ==== Sys2Proof/Machine/Remote.lean ====
section
/-! DEFINITION. Remote packets: groups (R328, R329, R332), landing areas and transfers (R331), lateness and stragglers (R340), and
how a remote packet ends (R339). -/

namespace Sys2Proof.Machine

/-! Groups. -/

/-- The key of a group-list entry (R328): endpoint × 4 + partition. -/
def groupKey (w : Nat) : Nat := w % 2 ^ 15 * 4 + w / 2 ^ 16 % 4

/-- Whether the reserved bits of an entry are zero. -/
def groupClean (w : Nat) : Bool := decide (w = w % 2 ^ 15 + w / 2 ^ 16 % 4 * 2 ^ 16)

/-- The endpoint and the partition of a key. -/
def keyEp (k : Nat) : Nat := k / 4

/-- The partition of a key. -/
def keyPart (k : Nat) : Nat := k % 4

/-- Whether a list ascends strictly. -/
def ascends : List Nat → Bool
  | [] => true
  | [_] => true
  | a :: b :: t => decide (a < b) && ascends (b :: t)

/-- S of a collective head (Table 14.1). -/
def Ctx.ranks (c : Ctx) : Nat := c.u 0xC 2

/-- CTAG of a collective head. -/
def Ctx.ctag (c : Ctx) : Nat := c.u 8 4

/-- The group list as the snapshot read it. -/
def Ctx.groupWords (c : Ctx) : List Nat := (List.range c.ranks).map fun i => fieldAt (c.item 0) (4 * i) 4

/-- The keys of the group. -/
def Ctx.groupKeys (c : Ctx) : List Nat := c.groupWords.map groupKey

/-- The key of this module and partition. -/
def State.ownKey (s : State) (p : Nat) : Nat := s.endpoint * 4 + p

/-- GHASH (R328). -/
def Ctx.ghash (c : Ctx) : Nat := digest8 ((c.item 0).take (4 * c.ranks))

/-- The group list as an item of the snapshot. -/
def Ctx.headItems (c : Ctx) : List Item := [⟨0, c.addr 0, 4 * min c.ranks 32768, 64⟩]

/-- The conditions of a group list (R329). -/
def Part.groupOk (pt : Part) (own : Nat) (ws : List Nat) : Bool :=
  let keys := ws.map groupKey
  ascends keys && ws.all groupClean && decide (keys.count own = 1) && keys.all fun k => pt.members.contains (keyEp k)

/-- Whether another packet of the partition that has not completed has the same opcode, tag and group (R332). -/
def Ctx.tagTaken (c : Ctx) : Bool :=
  (c.s.part c.p).packets.any fun k =>
    k.hdr.opcode == c.pkt.hdr.opcode && !(k.ring == c.pkt.ring && k.idx == c.pkt.idx)
      && (match c.s.ctx c.p k with
          | some d => d.ghash == c.ghash && d.ctag == c.ctag
          | none => false)

/-- The checks of a collective head at step 4 (R329, R332); `engine` tells whether ENGINE is read. -/
def Ctx.headFails (c : Ctx) (engine : Bool) : List Fail :=
  let ok := decide (1 ≤ c.ranks ∧ c.ranks ≤ 32768)
  failIf (!ok) 4 2 ERR_DESCRIPTOR
    ++ (if ok then failIf (!(c.s.part c.p).groupOk (c.s.ownKey c.p) c.groupWords) 4 0 ERR_DESCRIPTOR else [])
    ++ failIf c.tagTaken 4 1 ERR_DESCRIPTOR
    ++ (if engine then c.engineFails 3 0xE else [])

/-! A remote packet's progress. -/

/-- A remote packet at its snapshot. -/
def Remote.start (keys : List Nat) (own ghash : Nat) : Remote :=
  { keys := keys, rank := keys.idxOf own, ghash := ghash, landing := 0, landingLen := 0, landed := [], landPoison := [],
    ready := [], done := [], arrive := [], staged := [], sentTo := [], doneTo := [], unacked := [], round := 0, vec := [],
    finishedUnits := [], received := 0, sent := 0, restarts := 0 }

/-- The ranks of a list of keys whose endpoints are known as lost (R339). -/
def Ctx.lostRanks (c : Ctx) (keys : List Nat) : List Nat :=
  (List.range keys.length).filter fun i => (c.s.part c.p).lost.contains (keyEp (keys[i]?.getD 0))

/-- The remote part of a collective's packet (R328). -/
def Ctx.newRemote (c : Ctx) : Remote := Remote.start c.groupKeys (c.s.ownKey c.p) c.ghash

/-- The rounds of a dissemination over `n` ranks (R342). -/
def rounds (n : Nat) : Nat := ceilLog2 n

/-- The rank that round `k` sends to. -/
def Remote.toRank (r : Remote) (k : Nat) : Nat := (r.rank + 2 ^ k) % r.keys.length

/-- The rank that round `k` receives from. -/
def Remote.fromRank (r : Remote) (k : Nat) : Nat := (r.rank + r.keys.length - 2 ^ k % r.keys.length) % r.keys.length

/-- Every rank but its own. -/
def Remote.others (r : Remote) : List Nat := (List.range r.keys.length).filter (· ≠ r.rank)

/-- The READY held from a rank. -/
def Remote.readyOf (r : Remote) (rank : Nat) : Option ReadyMark := r.ready.find? fun m => m.rank == rank

/-- An early message that matches a packet, taken into it (R331). -/
def Remote.take (r : Remote) (e : EarlyMsg) : Remote :=
  if e.kind = 1 then { r with ready := r.ready ++ [⟨e.srcRank, e.arg0, e.arg1, e.arg2, e.arg3⟩] }
  else if e.kind = 2 then { r with done := r.done ++ [(e.srcRank, e.round)] }
  else { r with arrive := r.arrive ++ [(e.srcRank, e.round)] }

/-- Whether an early message matches an opcode, tag and group (R331). -/
def EarlyMsg.matches (e : EarlyMsg) (opcode ctag ghash : Nat) : Bool :=
  e.opcode == opcode && e.ctag == ctag && e.ghash == ghash

/-! Lateness (R340). -/

/-- The bin of LATE_HIST for a lateness in µs. -/
def lateBin (us : Nat) : Nat := if us = 0 then 0 else min 31 (Nat.log2 us + 1)

/-- The bin of a straggler entry for a lateness (Table 14.6). -/
def stragBin (strag us : Nat) : Nat :=
  if 4 * us < strag then 0 else if 2 * us < strag then 1 else if us < strag then 2 else if us < 2 * strag then 3
  else if us < 4 * strag then 4 else if us < 8 * strag then 5 else if us < 16 * strag then 6 else 7

/-- The late marks in a history. -/
def lateMarks (h : Nat) : Nat := ((List.range 16).filter fun i => h.testBit i).length

/-- A straggler entry with one more lateness. -/
def Straggler.observe (x : Straggler) (strag us : Nat) : Straggler :=
  let h := x.history * 2 % 65536 + (if strag < us then 1 else 0)
  { x with history := h, bins := x.bins.modify (stragBin strag us) fun n => satAdd 65535 n 1, maxUs := max x.maxUs us,
           reported := x.reported && decide (h ≠ 0) }

/-- The lateness of a rank's message measured: the histogram, the straggler table, and the STRAGGLER record (R340). -/
def State.lateness (s : State) (p ep us : Nat) : State :=
  let s1 := s.modPart p fun pt => { pt with lateHist := Tbl.set 0 pt.lateHist (lateBin us) (Tbl.get 0 pt.lateHist (lateBin us) + 1) }
  let pt := s1.part p
  let new : Straggler := (⟨ep, 0, false, List.replicate 8 0, 0⟩ : Straggler).observe pt.stragUs us
  let table :=
    if pt.stragglers.any (·.endpoint == ep) then
      pt.stragglers.map fun x => if x.endpoint == ep then x.observe pt.stragUs us else x
    else if us ≤ pt.stragUs then pt.stragglers
    else if pt.stragglers.length < 64 then pt.stragglers ++ [new]
    else
      let least := pt.stragglers.foldl (fun m x => min m (lateMarks x.history)) 16
      let at_ := pt.stragglers.findIdx fun x => lateMarks x.history == least
      pt.stragglers.set at_ new
  let s2 := s1.modPart p fun pt => { pt with stragglers := table }
  match table.find? (fun x => x.endpoint == ep && !x.reported && decide (8 ≤ lateMarks x.history)) with
  | none => s2
  | some x =>
    (s2.modPart p fun pt =>
      { pt with stragglers := pt.stragglers.map fun y => if y.endpoint == ep then { y with reported := true } else y }).log p
      { mkEvent 0x49 ep (min x.maxUs 0xFFFF) with count := 8 }

/-- Whole µs between two MCLK counts (500 MHz). -/
def usBetween (a b : Nat) : Nat := (b - a) / 500

/-! Sending. -/

/-- A packet's reference. -/
def Packet.ref (k : Packet) (p : Nat) : PacketRef := ⟨p, k.ring, k.idx⟩

/-- A remote packet that ends by a failure of its messages (R339): what it wrote stays. -/
def State.endPacket (s : State) (p : Nat) (k : Packet) (code : Nat) : State :=
  s.setPacket p { k with phase := .finished, res := { k.res with codes := k.res.codes ++ [code] } }

/-- A control message of a packet to a rank (Table 14.2); whether a port took it. -/
def State.controlTo (s : State) (p : Nat) (k : Packet) (r : Remote) (ctag rank kind round a0 a1 a2 a3 : Nat) : State × Bool :=
  let key := r.keys[rank]?.getD 0
  s.sendControl p (some (k.ref p)) (keyEp key)
    ⟨kind, keyPart key, p, round, k.hdr.opcode, ctag, r.rank, r.ghash, a0, a1, a2, a3⟩

/-- A run of bytes cut at the 4 KiB boundaries of its addresses; `fuel` bounds the pieces. -/
def cut4k : Nat → Nat → List Byte → List (Nat × List Byte)
  | 0, _, _ => []
  | _, _, [] => []
  | fuel + 1, a, bs =>
    let n := 4096 - a % 4096
    (a, bs.take n) :: cut4k fuel (a + n) (bs.drop n)

/-- Transfers to a rank sent as WRITE messages (R331, R310), addresses global: the identifiers and ports of the messages that left,
and whether every one did. -/
def State.sendWrites (s : State) (p : Nat) (ref : PacketRef) (dst rank : Nat) (ws : List Write) :
    State × List (Nat × Nat × Nat) × Bool :=
  (ws.flatMap fun w => (cut4k (w.bytes.length / 4096 + 2) w.addr w.bytes).map fun x => (x.1, x.2, w.poison)).foldl
    (fun (acc : State × List (Nat × Nat × Nat) × Bool) x =>
      let (st, ids, ok) := acc
      if !ok then acc
      else
        let (s1, r) := st.send p (some ref) dst M_WRITE 0 x.1 x.2.1.length (if x.2.2 then 2 ^ 64 - 1 else 0) x.2.1
        match r with
        | some (id, port) => (s1, ids ++ [(rank, id, port)], true)
        | none => (s1, ids, false))
    (s, [], true)

/-- The 64 B units of transfers, those that follow one another taken as one. -/
def unitsOf (ws : List Write) : Nat :=
  ((coalesce (ws.map fun w => { w with poison := false })).map fun w => ceilDiv w.bytes.length 64).sum

/-- An interval of addresses cut at the 4 KiB boundaries (R256); `fuel` bounds the pieces. -/
def cutRuns : Nat → Nat → Nat → List (Nat × Nat)
  | 0, _, _ => []
  | fuel + 1, a, len =>
    let n := min len (4096 - a % 4096)
    if len = 0 then [] else (a, n) :: cutRuns fuel (a + n) (len - n)

/-- A run of memory as a transfer at an offset, cut at the 4 KiB boundaries of its source (R256): pieces of 64 B with their poison, joined
where they agree. -/
def State.transfer (s : State) (a len off : Nat) : List Write :=
  (cutRuns (len / 4096 + 2) a len).flatMap fun (b, n) =>
    coalesce ((List.range (ceilDiv n 64)).map fun i =>
      let m := min 64 (n - 64 * i)
      ⟨off + (b - a) + 64 * i, s.read (b + 64 * i) m, s.badIn (b + 64 * i) m⟩)

/-- Offsets from here on lie in the second array that a READY announces: the scales of ALLGATHER and ALLTOALL (R347, R349). -/
def scaleOffset : Nat := 2 ^ 60

/-- Where a transfer lands: in the area that a READY announces, ALLTOALL's at the sender's row (R331, R349). -/
def ReadyMark.place (m : ReadyMark) (opcode own off : Nat) : Nat :=
  let row := fun (st : Nat) => if opcode = 0x0604 then (own : Int) * signed 64 st else 0
  let a : Int := if off < scaleOffset then (m.arg0 : Int) + row m.arg2 + (off : Int)
    else (m.arg1 : Int) + row m.arg3 + ((off - scaleOffset : Nat) : Int)
  unsigned 64 a

/-! Landing areas in the pools (R331, R255). -/

/-- The runs of addresses that a partition's pool of a tier takes (R253), and the piece in which it gives them out: the part of each slice's
reserve above the array's own 1.5 MiB in pieces of 64 KiB, and the tops of the HBM range and of the populated sump range (R255). -/
def State.poolRuns (s : State) (p : Nat) : Tier → Nat × List (Nat × Nat)
  | .scratchpad =>
    (65536, ((List.range (64 * s.quartersPer)).filter fun i => !s.retiredSlices.contains (64 * p + i)).map fun i =>
      let top := scratchBase + (64 * p + i + 1) * sliceBytes
      (top - (s.part p).sliceReserve + 0x180000, top))
  | .hbm => let top := (p + s.quartersPer) * hbmQuarter; (4096, [(top - s.quartersPer * (s.part p).hbmPool, top)])
  | .sump => let top := sumpBase + p * sumpQuarter + s.sumpPopulated p; (4096, [(top - s.quartersPer * (s.part p).sumpPool, top)])

/-- The address at which a landing area in a tier's pool is announced: the lowest run of its length free of the other landing areas. One address
announces the area (R331), so it lies in one run; a tier without such a run has no room for it (DESIGN CHOICE, log entry 22). -/
def State.landingPlace (s : State) (p len : Nat) (t : Tier) : Option Nat :=
  let taken := (s.part p).packets.filterMap fun k => k.remote.bind fun r => if r.landingLen = 0 then none else some (r.landing, r.landingLen)
  let free := fun (a : Nat) => taken.all fun x => decide (a + len ≤ x.1 ∨ x.1 + x.2 ≤ a)
  let (piece, runs) := s.poolRuns p t
  runs.findSome? fun run =>
    let after := (taken.filter fun x => decide (run.1 ≤ x.1 ∧ x.1 < run.2)).map fun x => run.1 + roundUp (x.1 + x.2 - run.1) piece
    (sortBy (· < ·) (run.1 :: after)).find? fun a => decide (a + len ≤ run.2) && free a

/-! The part of a packet's work that is done while it waits for messages. -/

/-- A packet whose own part has run (R331): its reads and writes have their effects, and it goes on as a running remote packet, or is
finished where the memory it works on cannot be reached. -/
def State.begin (s : State) (p : Nat) (k : Packet) (w : WorkOut) (r : Remote) : State :=
  let codes := s.workCodes k w.reads w.writes
  let up := !codes.contains ERR_PEER_UNREACHABLE
  let res := if up then { w.res with codes := w.res.codes ++ codes } else { k.res.kept with codes := codes }
  let k' := { k with phase := if up then .running else .finished, res := res, remote := some r }
  (s.workEffects k k'.status up w).setPacket p k'

/-- A running remote packet with a change of its remote part. -/
def State.setRemote (s : State) (p : Nat) (k : Packet) (r : Remote) : State := s.setPacket p { k with remote := some r }

/-- A control message sent to each of a list of ranks; the packet ends with ERR_PEER_UNREACHABLE when no port takes one (R318). -/
def State.controlAll (s : State) (p : Nat) (ref : PacketRef) (ctag kind : Nat) (args : Nat × Nat × Nat × Nat)
    (ts : List (Nat × Nat)) : State :=
  ts.foldl (fun s t =>
    match s.packet ref with
    | none => s
    | some k =>
      match k.remote with
      | none => s
      | some r =>
        if k.phase ≠ .running then s
        else
          let (s1, ok) := s.controlTo p k r ctag t.1 kind t.2 args.1 args.2.1 args.2.2.1 args.2.2.2
          if ok then s1 else s1.endPacket p k ERR_PEER_UNREACHABLE) s

end Sys2Proof.Machine
end

