-- ==== Sys2Proof/Machine/Exchange.lean ====
section
/-! DEFINITION. The messages of exchanges (R226, R231–R235, R238, R240, R218, R243): how they travel, how they are kept, and the route
buffer and placement object that they name. -/

namespace Sys2Proof.Machine

/-! How an exchange message travels. The manual gives no encoding: this one is the model's (DESIGN CHOICE, log entry 23). -/

/-- The page of a partition's HBM pool to which exchange messages are addressed: the last 4 KiB of its HBM range. -/
def State.exchangePage (s : State) (p : Nat) : Nat := p * hbmQuarter + s.quartersPer * hbmQuarter - 4096

/-- The 64-byte header of an exchange message. -/
def ExchangeMsg.header (m : ExchangeMsg) : List Byte :=
  toLe 2 m.opcode ++ toLe 2 m.obj ++ toLe 4 m.gen ++ toLe 4 m.xtag ++ toLe 1 m.wave ++ toLe 1 m.what ++ toLe 2 m.src ++ toLe 2 m.slot
    ++ toLe 2 0 ++ toLe 4 m.pos ++ toLe 8 m.off ++ toLe 8 m.total ++ List.replicate 24 0

/-- The payload bytes that one message carries. -/
def exchangeCut : Nat := 4032

/-- An exchange message as a WRITE's data and poison map give it. -/
def ExchangeMsg.parse (b : List Byte) (map : Nat) : ExchangeMsg :=
  let f := fun (off w : Nat) => leNat ((b.drop off).take w)
  { opcode := f 0 2, obj := f 2 2, gen := f 4 4, xtag := f 8 4, wave := f 12 1, what := f 13 1, src := f 14 2, slot := f 16 2,
    pos := f 20 4, off := f 24 8, total := f 32 8,
    data := ⟨b.drop 64, (List.range 63).filterMap fun i => if map.testBit (i + 1) then some (f 24 8 / 64 + i) else none⟩ }

/-- A whole message cut into the pieces that travel. -/
def ExchangeMsg.pieces (m : ExchangeMsg) : List ExchangeMsg :=
  let n := max 1 (ceilDiv m.data.bytes.length exchangeCut)
  (List.range n).map fun i =>
    { m with off := exchangeCut * i, total := m.data.bytes.length,
             data := ⟨(m.data.bytes.drop (exchangeCut * i)).take exchangeCut,
                      m.data.bad.filter fun b => decide (exchangeCut / 64 * i ≤ b ∧ b < exchangeCut / 64 * (i + 1))⟩ }

/-- The poison map of a piece. -/
def ExchangeMsg.map (m : ExchangeMsg) : Nat := (m.data.bad.map fun b => 2 ^ (b - m.off / 64 + 1)).sum

/-- A whole message sent to an endpoint: the identifiers and ports of its WRITEs, and whether every piece left. -/
def State.sendExchange (s : State) (p : Nat) (ref : PacketRef) (ep member : Nat) (m : ExchangeMsg) :
    State × List (Nat × Nat × Nat) × Bool :=
  m.pieces.foldl (fun (acc : State × List (Nat × Nat × Nat) × Bool) x =>
    let (st, ids, ok) := acc
    if !ok then acc
    else
      let b := x.header ++ x.data.bytes
      let (s1, r) := st.send p (some ref) ep M_WRITE 0 (globalAddr ep (st.exchangePage p)) b.length x.map b
      match r with
      | some (id, port) => (s1, ids ++ [(member, id, port)], true)
      | none => (s1, ids, false)) (s, [], true)

/-! Exchanges. -/

/-- The identity of an exchange: its opcode, object, generation, tag and wave (R221, R232). -/
structure XKey where
  opcode : Nat
  obj : Nat
  gen : Nat
  xtag : Nat
  wave : Nat
  deriving DecidableEq, Repr

/-- The exchange to which a message belongs. -/
def ExchangeMsg.key (m : ExchangeMsg) : XKey := ⟨m.opcode, m.obj, m.gen, m.xtag, m.wave⟩

/-- A message of an exchange. -/
def XKey.msg (k : XKey) (src what slot pos : Nat) (data : Payload) : ExchangeMsg :=
  { opcode := k.opcode, obj := k.obj, gen := k.gen, xtag := k.xtag, wave := k.wave, src := src, what := what, slot := slot,
    pos := pos, off := 0, total := data.bytes.length, data := data }

/-- Whether two pieces are of one message. -/
def ExchangeMsg.sameWhole (a b : ExchangeMsg) : Bool :=
  a.key == b.key && a.src == b.src && a.what == b.what && a.slot == b.slot && a.pos == b.pos

/-- The whole messages among pieces: those of which every piece has arrived. -/
def wholes (ms : List ExchangeMsg) : List ExchangeMsg :=
  (ms.filter fun m => m.off == 0).filterMap fun m =>
    let ps := sortBy (fun a b => decide (a.off < b.off)) (ms.filter fun x => x.sameWhole m)
    let bytes := ps.flatMap fun x => x.data.bytes
    if bytes.length = m.total then some { m with data := ⟨bytes, ps.flatMap fun x => x.data.bad⟩ } else none

/-- What a message is: a header, a row, totals, a count, a digest, loads, fill data, and the end of the fills. -/
abbrev X_HEADER : Nat := 0
/-- a row -/
abbrev X_ROW : Nat := 1
/-- totals of the last wave -/
abbrev X_TOTALS : Nat := 2
/-- a local wave count -/
abbrev X_COUNT : Nat := 3
/-- a digest -/
abbrev X_DIGEST : Nat := 4
/-- load counts -/
abbrev X_LOADS : Nat := 5
/-- a replica's bytes -/
abbrev X_FILL : Nat := 6
/-- the fills are done -/
abbrev X_DONE : Nat := 7

/-! Rows as payloads. -/

/-- Transfers that follow one another from offset 0, as a payload. -/
def payloadOf (ws : List Write) : Payload :=
  ⟨ws.flatMap (·.bytes),
   ws.flatMap fun w => if w.poison && decide (0 < w.bytes.length) then
     (List.range ((w.addr + w.bytes.length - 1) / 64 - w.addr / 64 + 1)).map (w.addr / 64 + ·) else []⟩

/-- The bytes of a row's elements. -/
def Desc.rowBytes (d : Desc) : Nat := d.e 0 * d.w / 8

/-- The row of a tensor at outer coordinates: its elements, then its scales. -/
def State.rowPayload (s : State) (d : Desc) (c : List Nat) : Payload :=
  payloadOf (s.transfer (d.bitAddr c / 8) d.rowBytes 0
    ++ (if d.isScaled then s.transfer (d.scaleAddr c) (ceilDiv (d.e 0) 32) d.rowBytes else []))

/-- A payload as memory from address 0. -/
def Payload.memory (r : Payload) : State :=
  { State.reset with mem := putBytes [] 0 r.bytes, poison := (r.bad.flatMap fun b => [64 * b, 64 * b + 16, 64 * b + 32, 64 * b + 48]) }

/-- The elements of a payload that holds a row of a tensor's format and length. -/
def Payload.elts (r : Payload) (d : Desc) : List Elt :=
  let st := r.memory
  (List.range (d.e 0)).map fun i => st.eltAt d.fmt (i * d.w) (if d.isScaled then some (d.rowBytes + i / 32) else none)

/-- One outer row of a tensor stored bit for bit through the owned window (R232, R238, R240). -/
def moveRow (d : Desc) (row : Nat) (es : List Elt) : StoreOut :=
  let get := fun (n : Nat) => es[n % d.e 0]?.getD ⟨.fin 0, false, 127, 0⟩
  storeDense d RGroup.rne
    (fun n => if n / d.e 0 = row then
        let e := get n
        some { OutElt.ofNum e.v with raw := some e.code, poison := e.bad }
      else none)
    chooseScale
    (fun n => if d.isScaled then some ((get n).scale, false) else none)

/-- One outer row of the tensor of a field stored as it arrived, or rounded times 2^g where R94 scales what the field writes (DEDUCED, log
entry 97). -/
def Ctx.storeRow (c : Ctx) (f row : Nat) (es : List Elt) : StoreOut :=
  let d := c.loc f
  if (c.g f).isNone then moveRow d row es
  else
    storeDense d RGroup.rne
      (fun n => if n / d.e 0 = row then es[n % d.e 0]?.map (c.moved f d.fmt) else none) chooseScale noMove

/-! The object and the route buffer that a packet names. -/

/-- The placement object of a partition, when it is set. -/
def Part.obj (pt : Part) (n : Nat) : Option PlaceObj := Tbl.get none pt.objects n

/-- The object that a parameter block names, by its opcode. -/
def exchangeObj (opcode : Nat) (b : List Byte) : Nat :=
  match opcode with
  | 0x0501 => fieldAt b 0x20 2
  | 0x0502 => fieldAt b 0x28 2
  | 0x0505 => fieldAt b 0 2
  | _ => fieldAt b 0x30 2

/-- Whether an opcode names a placement object. -/
def namesObject (opcode : Nat) : Bool := decide (0x0501 ≤ opcode ∧ opcode ≤ 0x0505)

/-- The number of the object that a packet names. -/
def Ctx.objNo (c : Ctx) : Nat := exchangeObj c.pkt.hdr.opcode c.snap.params

/-- The object that a packet names. -/
def Ctx.obj (c : Ctx) : Option PlaceObj := (c.s.part c.p).obj c.objNo

/-- An object with nothing in it, where none is set. -/
def PlaceObj.empty : PlaceObj := ⟨[], 0, 0, 1, 0, 1, 0, 0, 0, 0, [], 0, 0, []⟩

/-- The object, or the empty one. What a packet reads of it stays as the packet's snapshot found it while the packet holds it (R220): a
STEP's revision and a RELEASE wait for that. -/
def Ctx.o (c : Ctx) : PlaceObj := c.obj.getD PlaceObj.empty

/-- The rule for an OBJ field: beyond the partition (R218), or not set (R220). -/
def Ctx.objFails (c : Ctx) (field : Nat) : List Fail :=
  if 64 * c.q ≤ c.objNo then [failAt 4 field ERR_PARTITION] else failIf c.obj.isNone 4 field ERR_DESCRIPTOR

/-- A field of the route header (Table 9.5). -/
def Ctx.rh (c : Ctx) (off w : Nat) : Nat := fieldAt (c.item 0) off w

/-- T and K of the route header. -/
def Ctx.routeT (c : Ctx) : Nat := c.rh 0 4

/-- K of the route header. -/
def Ctx.routeK (c : Ctx) : Nat := c.rh 4 1

/-- QUOTA of the route header. -/
def Ctx.quota (c : Ctx) : Nat := c.rh 8 4

/-- The route buffer as an item of the snapshot: its header, and once that is read its records (R227). -/
def Ctx.routeItem (c : Ctx) : Item := ⟨0, c.addr 0, 64 + 16 * c.routeT * c.routeK, 64⟩

/-- A route record (Table 9.6). -/
structure RouteRec where
  weight : Num
  prob : Num
  expert : Nat
  gslot : Nat
  pos : Nat
  wave : Nat
  spoil : Bool
  renormed : Bool
  deriving DecidableEq, Repr

/-- The record of number `i` = t × K + j. -/
def Ctx.choice (c : Ctx) (i : Nat) : RouteRec :=
  let f := fun (off w : Nat) => c.rh (64 + 16 * i + off) w
  ⟨decodeElt 0 (f 0 4), decodeElt 0 (f 4 4), f 8 2, f 10 2, f 12 2, f 14 1, (f 15 1).testBit 0, (f 15 1).testBit 1⟩

/-- The numbers of the records. -/
def Ctx.recNos (c : Ctx) : List Nat := List.range (c.routeT * c.routeK)

/-- The surviving records of a wave. -/
def Ctx.waveRecs (c : Ctx) (wave : Nat) : List (Nat × RouteRec) :=
  (c.recNos.map fun i => (i, c.choice i)).filter fun x => !x.2.spoil && x.2.wave == wave

/-- WAVE of an exchange packet. -/
def Ctx.wave (c : Ctx) : Nat := c.u (if c.pkt.hdr.opcode = 0x0502 then 0x2A else 0x32) 1

/-- WAVES_SLOT of an exchange packet. -/
def Ctx.wavesSlot (c : Ctx) : Nat := c.u (if c.pkt.hdr.opcode = 0x0502 then 0x2E else 0x34) 2

/-- Whether the route was made with DEFER. -/
def Ctx.deferred (c : Ctx) : Bool := (c.rh 5 1).testBit 1

/-- The effective wave count (R231). -/
def Ctx.waveCount (c : Ctx) : Nat := if c.deferred then (c.slot c.wavesSlot).2 else 1

/-- Whether this is the last wave (R234). -/
def Ctx.lastWave (c : Ctx) : Bool := c.wave + 1 == c.waveCount

/-- The exchange of DISPATCH, COMBINE and COMBINE_BWD. -/
def Ctx.waveKey (c : Ctx) : XKey := ⟨c.pkt.hdr.opcode, c.objNo, c.rh 0x14 4, c.rh 0x20 4, c.wave⟩

/-- The exchange of wave counts of a ROUTE (R226). -/
def Ctx.routeKey (c : Ctx) : XKey := ⟨0x0501, c.objNo, c.o.gen, c.u 0x30 4, 0⟩

/-- Whether a message belongs to a packet's exchange: by its whole key, or by the object alone for a PLACE_EXPERTS. -/
def Ctx.hears (c : Ctx) (x : ExchangeMsg) : Bool :=
  c.pkt.hdr.opcode == x.opcode
    && (match x.opcode with
        | 0x0501 => c.routeKey == x.key
        | 0x0505 => c.objNo == x.obj
        | _ => c.waveKey == x.key)

/-- SLOTS and S of the object, and this module's source index. -/
def Ctx.nSlots (c : Ctx) : Nat := c.o.slots

/-- S of the object. -/
def Ctx.nMembers (c : Ctx) : Nat := c.o.members.length

/-- The rows of one local slot in RECV, Y and DYR. -/
def Ctx.slotRows (c : Ctx) : Nat := c.nMembers * c.quota

/-- Whether another packet of the partition has the same object, opcode, tag and wave and still holds the object (R221). -/
def Ctx.exchangeTaken (c : Ctx) : Bool :=
  (c.s.part c.p).packets.any fun k =>
    k.hdr.opcode == c.pkt.hdr.opcode && !(k.ring == c.pkt.ring && k.idx == c.pkt.idx)
      && (match c.s.ctx c.p k with
          | some d =>
            d.objNo == c.objNo
              && (if c.pkt.hdr.opcode = 0x0501 then d.u 0x30 4 == c.u 0x30 4 else d.waveKey.xtag == c.waveKey.xtag && d.wave == c.wave)
          | none => false)

/-- The rule for a named slot (R133); 0xFFFF names none. -/
def Ctx.slotFails (c : Ctx) (n field : Nat) : List Fail := if n = 0xFFFF then [] else failOpt (idStatus c.q 4096 n) 4 field

/-- The checks that DISPATCH, COMBINE and COMBINE_BWD share (R231); `fo` is the field number of OBJ and `fw` of WAVES_SLOT. -/
def Ctx.waveFails (c : Ctx) (fo fw : Nat) : List Fail :=
  c.objFails fo
    ++ failIf (c.rh 0x12 2 != c.objNo || (c.obj.isSome && c.rh 0x14 4 != c.o.gen)) 4 0 ERR_DESCRIPTOR
    ++ failIf (decide (15 < c.wave)) 4 (fo + 1) ERR_DESCRIPTOR
    ++ failIf (c.deferred && c.wavesSlot == 0xFFFF) 4 fw ERR_DESCRIPTOR ++ c.slotFails c.wavesSlot fw
    ++ failIf c.exchangeTaken 4 (fo + 1) ERR_DESCRIPTOR

/-- The slot numbers that a packet reads for its wave count. -/
def wavesSlots (off : Nat) (b : List Byte) : List Nat := if fieldAt b off 2 = 0xFFFF then [] else [fieldAt b off 2]

/-- The remote part of a packet that names an object: its members' keys and its source index. -/
def Ctx.objRemote (c : Ctx) : Remote :=
  let keys := c.o.members.map fun e => e * 4 + c.p
  { Remote.start keys (c.s.ownKey c.p) 0 with finishedUnits := c.lostRanks keys }

/-- The whole messages held for an exchange. -/
def State.held (s : State) (p : Nat) (k : XKey) : List ExchangeMsg := wholes ((s.part p).exchange.filter fun m => m.key == k)

/-- A message of this module for itself. -/
def State.keepLocal (s : State) (p : Nat) (m : ExchangeMsg) : State := s.modPart p fun pt => { pt with exchange := pt.exchange ++ [m] }

/-- The messages of an exchange forgotten once its packet has ended. -/
def State.dropExchange (s : State) (p : Nat) (k : XKey) : State :=
  s.modPart p fun pt => { pt with exchange := pt.exchange.filter fun m => m.key != k }

/-- The rows that Table 9.8 drops, counted (DESIGN CHOICE, log entry 98). -/
def State.countDrops (s : State) (p n : Nat) : State :=
  s.modPart p fun pt => { pt with rowDrops := satAdd (2 ^ 64 - 1) pt.rowDrops n }

/-- Messages sent to members of an exchange, this module's own kept. A member that no port reaches is given up: nothing more goes to it
(Table 9.8). `count` tells whether a message counts as a row sent. -/
def State.sendMembers (s : State) (p : Nat) (ref : PacketRef) (r : Remote) (ms : List (Nat × ExchangeMsg)) : State × Remote :=
  ms.foldl (fun (acc : State × Remote) x =>
    let (st, r) := acc
    let row := if x.2.what = X_ROW then 1 else 0
    if x.1 = r.rank then (st.keepLocal p x.2, { r with sent := r.sent + row })
    else if r.finishedUnits.contains x.1 then acc
    else
      let (s1, ids, ok) := st.sendExchange p ref (keyEp (r.keys[x.1]?.getD 0)) x.1 x.2
      let r1 := { r with unacked := r.unacked ++ ids }
      if ok then (s1, { r1 with sent := r1.sent + row }) else (s1, { r1 with finishedUnits := setIns r1.finishedUnits x.1 })) (s, r)

/-- The status of members that were given up (Table 9.8). -/
def Remote.lostCodes (r : Remote) : List Nat := if r.finishedUnits.isEmpty then [] else [ERR_PEER_UNREACHABLE]

end Sys2Proof.Machine
end

