-- ==== Sys2Proof/Machine/Func.lean ====
section
/-! DEFINITION. The function operations of Table 5.10 as binary32 values, and the square root and logarithm of other chapters.
Each real function is computed in fixed point with 1,024 fraction bits, far beyond the precision at which a binary32
rounding of it is decided (DEDUCED, log entry 10). -/

namespace Sys2Proof.Machine

/-- The fraction bits of the fixed-point values. -/
def fxBits : Nat := 1024

/-- A rational in fixed point. -/
def fxOf (x : Rat) : Int := (x.num * (2 ^ fxBits : Nat)) / (x.den : Int)

/-- A fixed-point value as a rational. -/
def fxTo (a : Int) : Rat := mkRat a (2 ^ fxBits)

/-- A fixed-point product. -/
def fxMul (a b : Int) : Int := (a * b) / (2 ^ fxBits : Nat)

/-- The partial sums of e^y for a fixed-point `y` below one quarter: from term `n` with value `t`, `k` further terms. -/
def fxExpSeries : Nat → Nat → Int → Int → Int
  | 0, _, _, _ => 0
  | k + 1, n, y, t => t + fxExpSeries k (n + 1) y (fxMul t y / ((n : Int) + 1))

/-- `a` squared `k` times. -/
def fxSquares : Nat → Int → Int
  | 0, a => a
  | k + 1, a => fxSquares k (fxMul a a)

/-- e^x for `0 ≤ x ≤ 1000`. -/
def expNonneg (x : Rat) : Rat := fxTo (fxSquares 12 (fxExpSeries 160 0 (fxOf (x * pow2 (-12))) (2 ^ fxBits : Nat)))

/-- e^x for `|x| ≤ 1000`. -/
def expQ (x : Rat) : Rat := if x < 0 then (expNonneg (-x))⁻¹ else expNonneg x

/-- The partial sums of z + z³/3 + z⁵/5 + … (`sgn` 1) or of its alternating form (`sgn` −1), from power `t` = z^(2n+1). -/
def fxOddSeries (sgn : Int) : Nat → Nat → Int → Int → Int
  | 0, _, _, _ => 0
  | k + 1, n, z2, t => t / (2 * (n : Int) + 1) + fxOddSeries sgn k (n + 1) z2 (sgn * fxMul t z2)

/-- artanh z for `0 ≤ z ≤ 1/3`. -/
def fxArtanh (z : Rat) : Int := fxOddSeries 1 330 0 (fxOf (z * z)) (fxOf z)

/-- arctan z for `0 ≤ z ≤ 1/5`. -/
def fxArctan (z : Rat) : Int := fxOddSeries (-1) 230 0 (fxOf (z * z)) (fxOf z)

/-- ln x for `x > 0`. -/
def lnQ (x : Rat) : Rat :=
  let k := floorLog2 x
  let m := x * pow2 (-k)
  fxTo (k * (2 * fxArtanh (1 / 3)) + 2 * fxArtanh ((m - 1) / (m + 1)))

/-- π in fixed point, by Machin's formula. -/
def fxPi : Int := 16 * fxArctan (1 / 5) - 4 * fxArctan (1 / 239)

/-- The square root of a nonnegative rational, exact to `2^-1024` below. -/
def sqrtQ (x : Rat) : Rat := fxTo (natSqrt ((x.num.natAbs * 2 ^ (2 * fxBits)) / x.den))

/-- √(2/π). -/
def sqrt2OverPi : Rat := sqrtQ (2 / fxTo fxPi)

/-- 1 ÷ (1 + e^−x) for `|x| ≤ 400`. -/
def sigmoidQ (x : Rat) : Rat := (1 + expQ (-x))⁻¹

/-- x ÷ (1 + e^−u), for the SILU and GELU_TANH operations: beyond `|u| = 400` a value that rounds as the exact one does. -/
def gatedQ (x u : Rat) : Rat :=
  if 400 < u then x * (1 - pow2 (-500)) else if u < -400 then -(pow2 (-400)) else x * sigmoidQ u

/-- e^x as a binary32 value (Table 5.10, OP 9). -/
def f32Exp : Num → Num
  | .nan => .nan
  | .inf true => .fin 0
  | .inf false => .inf false
  | .negZero => .fin 1
  | .fin x => fl32 (.fin (if 400 < x then pow2 500 else if x < -400 then pow2 (-500) else expQ x))

/-- ln x as a binary32 value (OP 10). -/
def f32Log : Num → Num
  | .nan => .nan
  | .inf true => .nan
  | .inf false => .inf false
  | .negZero => .inf true
  | .fin x => if x = 0 then .inf true else if x < 0 then .nan else fl32 (.fin (lnQ x))

/-- 1 ÷ √x as a binary32 value (OP 11). -/
def f32Rsqrt : Num → Num
  | .nan => .nan
  | .inf true => .nan
  | .inf false => .fin 0
  | .negZero => .inf true
  | .fin x => if x = 0 then .inf false else if x < 0 then .nan else fl32 (.fin (sqrtQ (x⁻¹)))

/-- √x as a binary32 value; √−0 is −0. -/
def f32Sqrt : Num → Num
  | .nan => .nan
  | .inf true => .nan
  | .inf false => .inf false
  | .negZero => .negZero
  | .fin x => if x < 0 then .nan else fl32 (.fin (sqrtQ x))

/-- 1 ÷ x as a binary32 value (OP 12). -/
def f32Recip : Num → Num
  | .nan => .nan
  | .inf n => if n then .negZero else .fin 0
  | .negZero => .inf true
  | .fin x => if x = 0 then .inf false else fl32 (.fin (x⁻¹))

/-- tanh x as a binary32 value (OP 13). -/
def f32Tanh : Num → Num
  | .nan => .nan
  | .inf n => .fin (if n then -1 else 1)
  | .negZero => .negZero
  | .fin x =>
    if absQ x < pow2 (-160) then fl32 (.fin x)
    else if 400 < x then .fin 1
    else if x < -400 then .fin (-1)
    else fl32 (.fin (1 - 2 * (expQ (2 * x) + 1)⁻¹))

/-- 1 ÷ (1 + e^−x) as a binary32 value (OP 14). -/
def f32Sigmoid : Num → Num
  | .nan => .nan
  | .inf n => .fin (if n then 0 else 1)
  | .negZero => .fin (1 / 2)
  | .fin x => if 400 < x then .fin 1 else if x < -400 then .fin 0 else fl32 (.fin (sigmoidQ x))

/-- x ÷ (1 + e^−x) as a binary32 value (OP 15). -/
def f32Silu : Num → Num
  | .nan => .nan
  | .inf n => if n then .negZero else .inf false
  | .negZero => .negZero
  | .fin x => fl32 (.fin (gatedQ x x))

/-- 0.5x(1 + tanh(√(2/π)(x + 0.044715x³))) as a binary32 value (OP 16). -/
def f32Gelu : Num → Num
  | .nan => .nan
  | .inf n => if n then .negZero else .inf false
  | .negZero => .negZero
  | .fin x => fl32 (.fin (gatedQ x (2 * (sqrt2OverPi * (x + mkRat 44715 1000000 * x * x * x)))))

end Sys2Proof.Machine
end

