-- ==== Sys2Proof/Machine/Layout.lean ====
section
/-! DEFINITION. The layout opcodes DRESS, COPY and WINDOW_EXPAND (R143–R148). -/

namespace Sys2Proof.Machine

/-- The result of a packet whose outputs went through one descriptor: its watch counts, clipped elements and OPFLAGS bit 7
(R87, R142). -/
def Ctx.result (c : Ctx) (f : Nat) (st : StoreOut) (codes : List Nat) (count0 count1 opflags tern : Nat) : Result :=
  { Result.empty with
    codes := codes, count0 := count0, count1 := count1, opflags := opflags + (if st.clipped = 0 then 0 else 128),
    watch := c.watchDelta f st, clipped := st.clipped, ternInvalid := tern }

/-- The classes that may issue layout opcodes: every class but S (Table 2.8). -/
def layoutClasses : List StreamClass := [.F, .B, .U, .I, .C, .M]

/-- PERM[k] of a PERM field (Table 6.4). -/
def permAt (perm k : Nat) : Nat := perm / 2 ^ (3 * k) % 8

/-- The PERM field of the identity. -/
def permIdentity : Nat := 0 + 1 * 8 + 2 * 64 + 3 * 512 + 4 * 4096

/-- The checks that DRESS and COPY share (R145, R146); `permField` is the field a bad permutation names. -/
def Ctx.moveFails (c : Ctx) (perm permField : Nat) : List Fail :=
  let x := c.desc 0
  let d := c.desc 1
  let ks := List.range x.rank
  let isPerm := ks.all fun k => ks.any fun j => permAt perm j == k
  c.descFails 0 false ++ c.descFails 1 true
    ++ failIf (decide (x.kind ≠ 0)) 4 0 ERR_DESCRIPTOR ++ failIf (decide (d.kind ≠ 0)) 4 1 ERR_DESCRIPTOR
    ++ failIf (decide (x.rank ≠ d.rank)) 4 1 ERR_DESCRIPTOR
    ++ failIf (!isPerm) 4 permField ERR_DESCRIPTOR
    ++ failIf (isPerm && !(ks.all fun k => d.e k == x.e (permAt perm k))) 4 1 ERR_DESCRIPTOR
    ++ failIf (fmtIsWide d.fmt && !fmtIsWide x.fmt) 4 1 ERR_DESCRIPTOR
    ++ failIf ((fmtIsGri x.fmt || fmtIsGri d.fmt) && x.fmt != d.fmt) 4 1 ERR_DESCRIPTOR
    ++ failIf ((fmtIsWide x.fmt || fmtIsWide d.fmt) && permAt perm 0 != 0) 4 permField ERR_DESCRIPTOR

/-- D[i_PERM] = X[i], moved bit for bit where R145 says so, else rounded once (R145, R146, R148). -/
def Ctx.permuted (c : Ctx) (perm : Nat) (rg : RGroup) : StoreOut × Nat :=
  let x := c.loc 0
  let d := c.loc 1
  let source := fun (n : Nat) =>
    let dc := d.coords n
    (List.range 5).map fun j =>
      match (List.range x.rank).find? (fun k => permAt perm k == j) with
      | some k => (dc[k]?).getD 0
      | none => 0
  let pure := x.sameFormat d && (permAt perm 0 == 0 || !d.isScaled) && (c.g 1).isNone
  let val := fun (n : Nat) =>
    let el := c.s.elt x (source n)
    some (if pure then el.asMoved else c.scaled 1 (el.asOut x.fmt))
  let moved := fun (n : Nat) =>
    if pure then let el := c.s.elt x (source n); some (el.scale, c.s.badIn (x.scaleAddr (source n)) 1) else none
  (storeDense d rg val chooseScale moved, if pure then 0 else c.s.ternDense x)

/-- The work of a layout packet: elements written and clipped (R148). -/
def Ctx.layoutOut (c : Ctx) (st : StoreOut) (tern : Nat) : WorkOut :=
  { reads := (c.loc 0).spans, writes := st.writes, res := c.result 1 st [] st.written st.clipped 0 tern }

/-- DRESS (R145). -/
def specDress : OpSpec :=
  { code := 0x0401, classes := layoutClasses, len := fun _ => 48, descs := ptrs [(0, 0), (1, 8)] [],
    fails := fun c => c.moveFails (c.u 0x10 2) 2 ++ c.rmodeFails 5 0x18,
    accs := fun c => c.acc 0 false ++ c.acc 1 true,
    clamps := fun c => if (c.desc 1).trimClamped then [1] else [] }

/-- COPY (R146). -/
def specCopy : OpSpec :=
  { code := 0x0403, classes := layoutClasses, len := fun _ => 32, descs := ptrs [(0, 0), (1, 8)] [],
    fails := fun c => c.moveFails permIdentity 1 ++ c.rmodeFails 4 0x10,
    accs := fun c => c.acc 0 false ++ c.acc 1 true,
    clamps := fun c => if (c.desc 1).trimClamped then [1] else [] }

/-- The fields of WINDOW_EXPAND (Table 6.5): offset, clamp bit, range. -/
def windowFields : List (Nat × Nat × Nat × Nat) :=
  [(0x10, 2, 1, 16), (0x11, 3, 1, 64), (0x12, 4, 1, 64), (0x13, 5, 1, 16), (0x14, 6, 1, 64), (0x15, 7, 1, 64),
   (0x16, 8, 1, 16), (0x17, 9, 1, 16), (0x18, 10, 1, 16), (0x19, 11, 0, 15), (0x1A, 12, 0, 63), (0x1B, 13, 0, 63)]

/-- The clamped window parameters of one dimension: window, step, dilation, padding. `k` is 0 for T, 1 for H, 2 for W. -/
def Ctx.windowDim (c : Ctx) (k : Nat) : Nat × Nat × Nat × Nat :=
  let v := fun (j : Nat) =>
    match windowFields[j]? with
    | some (off, _, lo, hi) => clampNat lo hi (c.u off 1)
    | none => 0
  (v k, v (3 + k), v (6 + k), v (9 + k))

/-- An output extent of R147. -/
def windowExtent (i : Nat) (w : Nat × Nat × Nat × Nat) : Nat :=
  let n : Int := (i : Int) + 2 * w.2.2.2 - w.2.2.1 * ((w.1 : Int) - 1) - 1
  if n < 0 then 0 else n.toNat / w.2.1 + 1

/-- The source coordinate of a window position along a dimension, `none` outside X (R147). -/
def windowSource (i o k : Nat) (w : Nat × Nat × Nat × Nat) : Option Nat :=
  let x := o * w.2.1 + k * w.2.2.1
  if x < w.2.2.2 ∨ i ≤ x - w.2.2.2 then none else some (x - w.2.2.2)

/-- WINDOW_EXPAND (R147). -/
def specWindowExpand : OpSpec :=
  { code := 0x0402, classes := layoutClasses, len := fun _ => 32, descs := ptrs [(0, 0), (1, 8)] [],
    fails := fun c =>
      let x := c.desc 0
      let d := c.desc 1
      let wt := c.windowDim 0
      let wh := c.windowDim 1
      let ww := c.windowDim 2
      c.descFails 0 false ++ c.descFails 1 true
        ++ failIf (decide (x.kind ≠ 0)) 4 0 ERR_DESCRIPTOR ++ failIf (decide (d.kind ≠ 0)) 4 1 ERR_DESCRIPTOR
        ++ failIf (!x.sameFormat d) 4 1 ERR_DESCRIPTOR
        ++ failIf (d.e 1 != windowExtent (x.e 1) ww || d.e 2 != windowExtent (x.e 2) wh || d.e 3 != windowExtent (x.e 3) wt
            || d.e 4 != x.e 4) 4 1 ERR_DESCRIPTOR
        ++ failIf (decide (d.e 0 < wt.1 * wh.1 * ww.1 * x.e 0)) 4 1 ERR_DESCRIPTOR
        ++ failIf (x.isScaled && decide (x.e 0 % 32 ≠ 0)) 4 0 ERR_DESCRIPTOR,
    accs := fun c => c.acc 0 false ++ c.acc 1 true,
    clamps := fun c => (windowFields.flatMap fun (off, bit, lo, hi) => clampBit bit lo hi (c.u off 1))
      ++ (if (c.desc 1).trimClamped then [1] else []) }

/-- The outputs of WINDOW_EXPAND (R147, R148). -/
def Ctx.expanded (c : Ctx) : StoreOut × Nat :=
  let x := c.loc 0
  let d := c.loc 1
  let wt := c.windowDim 0
  let wh := c.windowDim 1
  let ww := c.windowDim 2
  let ch := x.e 0
  let source := fun (n : Nat) =>
    let dc := d.coords n
    let i := fun (k : Nat) => (dc[k]?).getD 0
    let j := i 0
    if wt.1 * wh.1 * ww.1 * ch ≤ j then none
    else
      let kw := j / ch % ww.1
      let kh := j / ch / ww.1 % wh.1
      let kt := j / ch / ww.1 / wh.1
      match windowSource (x.e 3) (i 3) kt wt, windowSource (x.e 2) (i 2) kh wh, windowSource (x.e 1) (i 1) kw ww with
      | some t, some h, some w => some [j % ch, w, h, t, i 4]
      | _, _, _ => none
  let pure := (c.g 1).isNone
  let val := fun (n : Nat) =>
    match source n with
    | some xc => some (c.moved 1 x.fmt (c.s.elt x xc))
    | none => some { OutElt.ofNum (.fin 0) with raw := if pure then some 0 else none }
  let moved := fun (n : Nat) =>
    if pure then
      match source n with
      | some xc => some ((c.s.elt x xc).scale, c.s.badIn (x.scaleAddr xc) 1)
      | none => some (0x7F, false)
    else none
  (storeDense d .rne val chooseScale moved, if pure then 0 else c.s.ternDense x)

/-- DRESS runs (R145). -/
def execDress (p : PacketRef) (s : State) : Host.Outcome State Fault Refusal :=
  .next (runOpcode 0x0401 (fun _ => true)
    (fun c => let r := c.permuted (c.u 0x10 2) (c.rgroup 0x18); c.layoutOut r.1 r.2) p s)

/-- COPY runs (R146). -/
def execCopyTensor (p : PacketRef) (s : State) : Host.Outcome State Fault Refusal :=
  .next (runOpcode 0x0403 (fun _ => true)
    (fun c => let r := c.permuted permIdentity (c.rgroup 0x10); c.layoutOut r.1 r.2) p s)

/-- WINDOW_EXPAND runs (R147). -/
def execWindowExpand (p : PacketRef) (s : State) : Host.Outcome State Fault Refusal :=
  .next (runOpcode 0x0402 (fun _ => true) (fun c => let r := c.expanded; c.layoutOut r.1 r.2) p s)

end Sys2Proof.Machine
end

