-- ==== Sys2Proof/Machine/Vector.lean ====
section
/-! DEFINITION. The vector opcodes REDUCE (R122–R124), ELTWISE (R125), QUANTIZE (R126), SOFTMAX_BWD (R195, R196) and NORM_BWD
(R197, R198). -/

namespace Sys2Proof.Machine

/-- The classes that may issue vector opcodes (Table 2.8). -/
def vectorClasses : List StreamClass := [.F, .B, .U, .C]

/-- The checks of a vector operand: DENSE and not a GRI format (R121). -/
def Ctx.vecFails (c : Ctx) (f : Nat) (wr : Bool) : List Fail :=
  let d := c.desc f
  c.descFails f wr ++ (if c.has f then failIf (decide (d.kind ≠ 0) || fmtIsGri d.fmt) 4 f ERR_DESCRIPTOR else [])

/-- The clamp of a written descriptor's trims (R141). -/
def Ctx.trimBit (c : Ctx) (f : Nat) : List Nat := if c.has f && (c.desc f).trimClamped then [f] else []

/-! ELTWISE. -/

/-- The operands that an ELTWISE operation needs (Table 5.10). -/
def eltNeeds (op : Nat) : Nat := if op = 3 then 3 else if op = 1 ∨ op = 2 ∨ op = 4 ∨ op = 5 then 2 else 1

/-- The sign of a value (OP 17). -/
def signOf (x : Num) : Num :=
  match x with
  | .nan => .nan
  | .negZero => .negZero
  | .inf n => .fin (if n then -1 else 1)
  | .fin v => .fin (if v < 0 then -1 else if v = 0 then 0 else 1)

/-- An ELTWISE operation (Table 5.10). -/
def eltOp (op : Nat) (alpha beta x y z : Num) : Num :=
  match op with
  | 1 => (alpha.mul x).add (beta.mul y)
  | 2 => (alpha.mul x).mul y
  | 3 => (x.mul y).add z
  | 4 => x.max y
  | 5 => x.min y
  | 6 => x.abs
  | 7 => if x.isNan then .nan else if x.lt (.fin 0) then .fin 0 else x
  | 8 => x.mul x
  | 9 => f32Exp x
  | 10 => f32Log x
  | 11 => f32Rsqrt x
  | 12 => f32Recip x
  | 13 => f32Tanh x
  | 14 => f32Sigmoid x
  | 15 => f32Silu x
  | 16 => f32Gelu x
  | 17 => signOf x
  | _ => x

/-- An output element scaled by R94, poisoned where an operand is. -/
def Ctx.outNum (c : Ctx) (f : Nat) (v : Num) (bad : Bool) : OutElt := { c.scaled f (OutElt.ofNum v) with poison := bad }

/-- The work of ELTWISE (R125). -/
def Ctx.eltwiseWork (c : Ctx) : WorkOut :=
  let op := c.u 0x28 1
  let d := c.loc 3
  let fs := List.range (eltNeeds op)
  let val := fun (n : Nat) =>
    let x := d.coords n
    let es := fs.map fun f => c.s.elt (c.loc f) x
    let v := fun (k : Nat) => ((es[k]?).map (·.v)).getD (.fin 0)
    some (c.outNum 3 (eltOp op (c.f32 0x20) (c.f32 0x24) (v 0) (v 1) (v 2)) (es.any (·.bad)))
  let st := storeDense d (c.rgroup 0x30) val chooseScale noMove
  { reads := if d.total = 0 then [] else fs.flatMap fun f => (c.loc f).spans, writes := st.writes,
    res := c.result 3 st (lossNote st.cnt.losses) 0 0 0 (fs.map fun f => c.s.ternDense (c.loc f)).sum }

/-- ELTWISE (R125). The descriptor of an operand that is given and that the operation does not need is read and checked; its elements are not
read (DEDUCED, log entry 15). -/
def specEltwise : OpSpec :=
  { code := 0x0301, classes := vectorClasses, len := fun _ => 64, engine := some 0x2A,
    descs := ptrs [(0, 0), (3, 0x18)] [(1, 8), (2, 0x10)],
    fails := fun c =>
      let op := c.u 0x28 1
      let d := c.desc 3
      ((List.range 3).flatMap fun f =>
        failIf (decide (f < eltNeeds op) && !c.has f && c.u (8 * f) 8 == 0 && f != 0) 4 f ERR_DESCRIPTOR ++ c.vecFails f false
          ++ (if c.has f then failIf ((c.desc f).ext != d.ext) 4 f ERR_DESCRIPTOR else []))
        ++ c.vecFails 3 true ++ failIf (decide (17 < op)) 4 6 ERR_DESCRIPTOR ++ c.engineFails 7 0x2A ++ c.rmodeFails 10 0x30,
    accs := fun c => (List.range (eltNeeds (c.u 0x28 1))).flatMap (c.acc · false) ++ c.acc 3 true,
    exempt := [(0, 3), (1, 3), (2, 3)], exact := true, clamps := fun c => c.trimBit 3 }

/-- ELTWISE runs (R125). -/
def execEltwise (p : PacketRef) (s : State) : Host.Outcome State Fault Refusal :=
  .next (runOpcode 0x0301 (fun _ => true) Ctx.eltwiseWork p s)

/-! REDUCE. -/

/-- The winner of an extremum and its index (R124): NaN at its lowest index, else the lowest index of the best value. -/
def extremum (op : Nat) (vs : List Num) : Num × Nat :=
  match (List.range vs.length).find? (fun i => ((vs[i]?).map Num.isNan).getD false) with
  | some i => (.nan, i)
  | none =>
    let better := fun (a b : Num) => if op = 4 then b.abs.lt a.abs else if op = 3 ∨ op = 6 then a.lt b else b.lt a
    let best := ((List.range vs.length).zip vs).foldl (fun (m : Option (Nat × Num)) iv => match m with
      | none => some iv
      | some b => if better iv.2 b.2 then some iv else some b) none
    match best with
    | some (i, v) => (if op = 4 then v.abs else v, i)
    | none => (.fin 0, 0)

/-- The reduced elements of output `n` of REDUCE. -/
def Ctx.reduced (c : Ctx) (n : Nat) : List Elt :=
  let x := c.loc 0
  let dim := c.u 0x19 1
  (List.range (x.e dim)).map fun k => c.s.elt x (((c.loc 1).coords n).set dim k)

/-- A sum as D takes it: its window in WIDE160, else its value (R480). -/
def Ctx.sumElt (c : Ctx) (sp : Spill) : OutElt :=
  c.scaled 1 ⟨sp.w.num, if fmtIsWide (c.desc 1).fmt then some sp.w else none, sp.losses, none, false⟩

/-- The work of REDUCE (R123, R124). -/
def Ctx.reduceWork (c : Ctx) : WorkOut :=
  let op := c.u 0x18 1
  let x := c.loc 0
  let d := c.loc 1
  let empty := decide (x.e (c.u 0x19 1) = 0 ∧ 2 ≤ op)
  let win := fun (n : Nat) =>
    let es := c.reduced n
    let sp := exactSum es.length (es.map fun e => if op = 1 then e.v.mul e.v else e.v)
    (sp, es.any (·.bad))
  let val := fun (n : Nat) =>
    if empty then none
    else if op < 2 then
      let (sp, bad) := win n
      some (if bad then OutElt.bad else c.sumElt sp)
    else
      let es := c.reduced n
      some (c.outNum 1 (extremum op (es.map (·.v))).1 (es.any (·.bad)))
  let st := storeDense d (c.rgroup 0x20) val chooseScale noMove
  let idx := if empty ∨ op < 5 then [] else (List.range d.total).map fun n =>
    let es := c.reduced n
    (⟨c.addr 0x10 + 4 * n, toLe 4 (extremum op (es.map (·.v))).2, es.any (·.bad)⟩ : Write)
  let losses := if op < 2 then ((List.range d.total).map fun n => (win n).1.losses).sum else st.cnt.losses
  { reads := if d.total = 0 then [] else x.spans, writes := st.writes ++ idx,
    res := c.result 1 st (lossNote losses) 0 0 0 (c.s.ternDense x) }

/-- REDUCE (R122–R124). -/
def specReduceDim : OpSpec :=
  { code := 0x0302, classes := vectorClasses, len := fun _ => 48, descs := ptrs [(0, 0), (1, 8)] [], engine := some 0x1A,
    fails := fun c =>
      let x := c.desc 0
      let dim := c.u 0x19 1
      c.vecFails 0 false ++ c.vecFails 1 true
        ++ failIf (decide (dim < x.rank) && (c.desc 1).ext != x.ext.set dim 1) 4 1 ERR_DESCRIPTOR
        ++ failIf (decide (6 < c.u 0x18 1)) 4 3 ERR_DESCRIPTOR ++ failIf (decide (x.rank ≤ dim)) 4 4 ERR_DESCRIPTOR
        ++ c.engineFails 5 0x1A ++ c.rmodeFails 8 0x20,
    accs := fun c => c.acc 0 false ++ c.acc 1 true
      ++ (if c.u 0x18 1 = 5 ∨ c.u 0x18 1 = 6 then accMem 2 true (c.addr 0x10) (4 * (c.desc 1).total) 64 else []),
    clamps := fun c => c.trimBit 1 }

/-- REDUCE runs (R123). -/
def execReduceDim (p : PacketRef) (s : State) : Host.Outcome State Fault Refusal :=
  .next (runOpcode 0x0302 (fun _ => true) Ctx.reduceWork p s)

/-! QUANTIZE. -/

/-- The work of QUANTIZE (R126). -/
def Ctx.quantizeWork (c : Ctx) : WorkOut :=
  let x := c.loc 0
  let d := c.loc 3
  let q := c.u 0x28 1
  let elt := fun (n : Nat) => c.s.elt x (d.coords n)
  let keepAddr := fun (n : Nat) => d.scaleAddr (d.coords n)
  let anyBad := q == 2 && (List.range d.total).any fun n => (elt n).bad
  let val := fun (n : Nat) =>
    let e := elt n
    some (c.outNum 3 e.v (anyBad || e.bad || (q == 1 && c.s.badIn (keepAddr n) 1)))
  let shared : Option (Int × Bool) :=
    if q = 2 then
      let amax := amaxOf ((List.range d.total).map fun n => (c.outNum 3 (elt n).v false).v)
      if amax = 0 then none else some (chooseExp d.fmt amax)
    else none
  let mode := fun (n : Nat) =>
    if q = 1 then ScaleMode.keep (c.s.byte (keepAddr n)).toNat else if q = 2 then .share shared else .choose
  let st := storeDense d (c.rgroup 0x30) val mode noMove
  { reads := if d.total = 0 then [] else x.spans
      ++ (if q = 1 then ((List.range d.outer).map fun o => (d.scaleAddr (d.coords (o * d.e 0)), ceilDiv (d.e 0) 32)) else []),
    writes := st.writes, res := c.result 3 st [] 0 0 0 (c.s.ternDense x) }

/-- QUANTIZE (R126). -/
def specQuantize : OpSpec :=
  { code := 0x0305, classes := vectorClasses, len := fun _ => 64, descs := ptrs [(0, 0), (3, 0x18)] [], engine := some 0x2A,
    fails := fun c =>
      let d := c.desc 3
      c.vecFails 0 false ++ failIf ((c.desc 0).ext != d.ext) 4 0 ERR_DESCRIPTOR ++ c.vecFails 3 true
        ++ failIf (!d.isScaled) 4 3 ERR_DESCRIPTOR ++ failIf (decide (2 < c.u 0x28 1)) 4 6 ERR_DESCRIPTOR
        ++ c.engineFails 7 0x2A ++ c.rmodeFails 10 0x30,
    accs := fun c => c.acc 0 false ++ c.acc 3 true, clamps := fun c => c.trimBit 3 }

/-- QUANTIZE runs (R126). -/
def execQuantize (p : PacketRef) (s : State) : Host.Outcome State Fault Refusal :=
  .next (runOpcode 0x0305 (fun _ => true) Ctx.quantizeWork p s)

/-! SOFTMAX_BWD. -/

/-- ALPHA of SOFTMAX_BWD, an infinity clamped to the largest finite value of its sign (R196). -/
def Ctx.softmaxAlpha (c : Ctx) : Num :=
  match c.f32 0x18 with
  | .inf n => .fin (if n then -FloatFmt.f32.top else FloatFmt.f32.top)
  | v => v

/-- The work of SOFTMAX_BWD (R195, R196). -/
def Ctx.softmaxWork (c : Ctx) : WorkOut :=
  let y := c.loc 0
  let dy := c.loc 1
  let d := c.loc 2
  let log := c.u 0x1C 1 == 1
  let dim := c.u 0x1D 1
  let alpha := c.softmaxAlpha
  let row := fun (x : List Nat) => (List.range (d.e dim)).map fun k => (c.s.elt y (x.set dim k), c.s.elt dy (x.set dim k))
  let sum := fun (x : List Nat) =>
    let r := row x
    exactSum r.length (r.map fun e => if log then e.2.v else e.1.v.mul e.2.v)
  let val := fun (n : Nat) =>
    let x := d.coords n
    let s := (sum x).w.num
    let ye := c.s.elt y x
    let dye := c.s.elt dy x
    let v := if log then alpha.mul (dye.v.sub ((f32Exp ye.v).mul s)) else (alpha.mul ye.v).mul (dye.v.sub s)
    some (c.outNum 2 v ((row x).any fun e => (!log && e.1.bad) || e.2.bad || (log && ye.bad)))
  let st := storeDense d (c.rgroup 0x20) val chooseScale noMove
  let losses := if d.e dim = 0 then 0 else
    (((List.range d.total).filter fun n => (d.coords n)[dim]?.getD 0 == 0).map fun n => (sum (d.coords n)).losses).sum
  { reads := if d.total = 0 then [] else y.spans ++ dy.spans, writes := st.writes,
    res := c.result 2 st (lossNote (losses + st.cnt.losses)) 0 0 0 (c.s.ternDense y + c.s.ternDense dy) }

/-- SOFTMAX_BWD (R196). -/
def specSoftmaxBwd : OpSpec :=
  { code := 0x0303, classes := vectorClasses, len := fun _ => 48, descs := ptrs [(0, 0), (1, 8), (2, 0x10)] [],
    engine := some 0x1E,
    fails := fun c =>
      let y := c.desc 0
      let dy := c.desc 1
      let d := c.desc 2
      let bad := fun (b : Bool) (f : Nat) => failIf b 4 f ERR_DESCRIPTOR
      c.vecFails 0 false ++ bad (fmtIsWide y.fmt) 0 ++ c.vecFails 1 false ++ bad (fmtIsWide dy.fmt || dy.ext != y.ext) 1
        ++ c.vecFails 2 true ++ bad (d.ext != y.ext) 2 ++ bad (c.f32 0x18).isNan 3 ++ bad (decide (1 < c.u 0x1C 1)) 4
        ++ bad (decide (y.rank ≤ c.u 0x1D 1)) 5 ++ c.engineFails 6 0x1E ++ c.rmodeFails 9 0x20,
    accs := fun c => c.acc 0 false ++ c.acc 1 false ++ c.acc 2 true,
    clamps := fun c => (match c.f32 0x18 with | .inf _ => [3] | _ => []) ++ c.trimBit 2 }

/-- SOFTMAX_BWD runs (R196). -/
def execSoftmaxBwd (p : PacketRef) (s : State) : Host.Outcome State Fault Refusal :=
  .next (runOpcode 0x0303 (fun _ => true) Ctx.softmaxWork p s)

/-! NORM_BWD. -/

/-- A row of NORM_BWD: the normalised inputs, the terms γ·dy, the two row figures a and b, ρ, and whether an input is bad; with the
window losses of its sums (R197). -/
structure NormRow where
  xh : List Num
  t : List Num
  dy : List Num
  a : Num
  b : Num
  rho : Num
  bad : Bool
  colBad : List Bool
  dyBad : List Bool
  losses : Nat
  deriving Repr

/-- A row of NORM_BWD (R197). -/
def Ctx.normRow (c : Ctx) (r : Nat) : NormRow :=
  let x := c.loc 0
  let n := x.e 0
  let rms := c.u 0x3A 1 == 1
  let stat := fun (k : Nat) => c.s.elt (c.loc 3) [r, k, 0, 0, 0]
  let mu := stat 0
  let rho := stat 1
  let xs := (List.range n).map fun j => c.s.elt x [j, r, 0, 0, 0]
  let dys := (List.range n).map fun j => c.s.elt (c.loc 1) [j, r, 0, 0, 0]
  let gs := (List.range n).map fun j => if c.has 2 then c.s.elt (c.loc 2) [j, 0, 0, 0, 0] else ⟨.fin 1, false, 127, 0⟩
  let xh := xs.map fun e => (if rms then e.v else e.v.sub mu.v).mul rho.v
  let t := (gs.zip dys).map fun e => e.1.v.mul e.2.v
  let inv := Num.fin (1 / ((n : Int) : Rat))
  let sa := exactSum n t
  let sb := exactSum n ((t.zip xh).map fun e => e.1.mul e.2)
  let statBad := rho.bad || (!rms && mu.bad)
  { xh := xh, t := t, dy := dys.map (·.v), a := if rms then .fin 0 else fl32 (sa.w.num.mul inv), b := fl32 (sb.w.num.mul inv),
    rho := rho.v, bad := statBad || xs.any (·.bad) || dys.any (·.bad) || gs.any (·.bad),
    colBad := (xs.zip dys).map fun e => statBad || e.1.bad || e.2.bad, dyBad := dys.map (·.bad),
    losses := (if rms then 0 else sa.losses) + sb.losses }

/-- ACC_ANCHOR after its clamp (R197). -/
def Ctx.accAnchor (c : Ctx) : Int :=
  let a := signed 16 (c.u 0x38 2)
  if a < -4096 then -4096 else if 4096 < a then 4096 else a

/-- A column sum converted at ACC_ANCHOR, with its window loss (R198). A sum that VALUE cannot hold there is left open. -/
def toAccumulator (anchor : Int) (v : Num) : W160 × Nat :=
  let (k, lost) := windowTerm anchor v.q
  let k' := if k < -(2 ^ 159 : Nat) ∨ ((2 ^ 159 : Nat) : Int) - 1 < k then signed 160 (unsigned 160 (Config.wideOverflow k anchor))
    else k
  (⟨k', anchor, v.cls, lost, lost⟩, if lost then 1 else 0)

/-- An accumulator raised by the column sums of a packet, by memory-side atomic add (R73, R198, R274); a bound gradient slot scales what is
added (R94). -/
def Ctx.accumulate (c : Ctx) (f : Nat) (rows : List NormRow) (term : NormRow → Nat → Num) (needX : Bool) : StoreOut × Nat :=
  if c.has f then
    let d := c.loc f
    let one := fun (j : Nat) =>
      let v := (rows.map fun r => term r j).foldl Num.add (.fin 0)
      let old := c.s.elt d [j, 0, 0, 0, 0]
      let (w, l0) := toAccumulator c.accAnchor (match c.g f with | some g => v.scale g | none => v)
      let (sum, l1) := (W160.ofBits old.code).add w
      let bad := old.bad || rows.any fun r => ((if needX then r.colBad else r.dyBad)[j]?).getD false
      (({ OutElt.ofNum (.fin 0) with raw := some sum.bits, poison := bad } : OutElt), l0 + l1)
    (storeDense d .rne (fun n => some (one n).1) chooseScale noMove, ((List.range d.total).map fun n => (one n).2).sum)
  else (.empty, 0)

/-- The work of NORM_BWD (R197, R198). -/
def Ctx.normWork (c : Ctx) : WorkOut :=
  let x := c.loc 0
  let d := c.loc 4
  let rows := if x.total = 0 then [] else (List.range (x.e 1)).map c.normRow
  let val := fun (n : Nat) =>
    (rows[n / d.e 0]?).map fun r =>
      let j := n % d.e 0
      let g := fun (l : List Num) => (l[j]?).getD (.fin 0)
      c.outNum 4 (r.rho.mul (((g r.t).sub r.a).sub ((g r.xh).mul r.b))) r.bad
  let st := storeDense d (c.rgroup 0x40) val chooseScale noMove
  let dg := if rows.isEmpty then (.empty, 0) else
    c.accumulate 5 rows (fun r j => ((r.dy[j]?).getD (.fin 0)).mul ((r.xh[j]?).getD (.fin 0))) true
  let db := if rows.isEmpty then (.empty, 0) else c.accumulate 6 rows (fun r j => (r.dy[j]?).getD (.fin 0)) false
  let losses := (rows.map (·.losses)).sum + st.cnt.losses + dg.2 + db.2
  let r := c.result 4 st (lossNote losses) losses 0 0
    (c.s.ternDense x + c.s.ternDense (c.loc 1) + (if c.has 2 then c.s.ternDense (c.loc 2) else 0))
  let clipped := st.clipped + dg.1.clipped + db.1.clipped
  { reads := if rows.isEmpty then [] else ([0, 1, 2, 3, 5, 6].filter c.has).flatMap fun f => (c.loc f).spans,
    writes := st.writes ++ dg.1.writes ++ db.1.writes,
    res := { r with
      watch := r.watch ++ (if c.has 5 then c.watchDelta 5 { dg.1 with cnt := { dg.1.cnt with losses := dg.2 } } else [])
        ++ (if c.has 6 then c.watchDelta 6 { db.1 with cnt := { db.1.cnt with losses := db.2 } } else []),
      clipped := clipped, opflags := if clipped = 0 then 0 else 128 } }

/-- NORM_BWD (R197). -/
def specNormBwd : OpSpec :=
  { code := 0x0304, classes := vectorClasses, len := fun _ => 80, engine := some 0x3C,
    descs := ptrs [(0, 0), (1, 8), (3, 0x18), (4, 0x20)] [(2, 0x10), (5, 0x28), (6, 0x30)],
    fails := fun c =>
      let x := c.desc 0
      let bad := fun (b : Bool) (f : Nat) => failIf b 4 f ERR_DESCRIPTOR
      let acc := fun (f : Nat) => if c.has f then
          c.descFails f true ++ bad (decide ((c.desc f).kind ≠ 0) || !fmtIsWide (c.desc f).fmt || (c.desc f).ext != [x.e 0, 1, 1, 1, 1]
            || (c.desc f).rank != 1) f
        else []
      c.vecFails 0 false ++ bad (x.e 2 != 1 || x.e 3 != 1 || x.e 4 != 1) 0 ++ c.vecFails 1 false ++ bad ((c.desc 1).ext != x.ext) 1
        ++ (if c.has 2 then c.vecFails 2 false ++ bad ((c.desc 2).ext != [x.e 0, 1, 1, 1, 1] || (c.desc 2).rank != 1) 2 else [])
        ++ c.vecFails 3 false ++ bad ((c.desc 3).fmt != 0 || (c.desc 3).ext != [x.e 1, 2, 1, 1, 1]) 3
        ++ c.vecFails 4 true ++ bad ((c.desc 4).ext != x.ext) 4 ++ acc 5 ++ acc 6
        ++ bad (decide (c.u 0x30 8 ≠ 0) && c.u 0x3A 1 == 1) 6 ++ bad (decide (1 < c.u 0x3A 1)) 8
        ++ c.engineFails 9 0x3C ++ c.rmodeFails 12 0x40,
    accs := fun c => c.acc 0 false ++ c.acc 1 false ++ c.acc 2 false ++ c.acc 3 false ++ c.acc 4 true ++ c.acc 5 true ++ c.acc 6 true,
    clamps := fun c => (if c.accAnchor = signed 16 (c.u 0x38 2) then [] else [7]) ++ c.trimBit 4 ++ c.trimBit 5 ++ c.trimBit 6 }

/-- NORM_BWD runs (R197). -/
def execNormBwd (p : PacketRef) (s : State) : Host.Outcome State Fault Refusal :=
  .next (runOpcode 0x0304 (fun _ => true) Ctx.normWork p s)

end Sys2Proof.Machine
end

