-- ==== Sys2Proof/Machine/Experts.lean ====
section
/-! DEFINITION. ROUTE (R221–R229) and the exchanges DISPATCH (R231–R235), COMBINE (R238, R239) and COMBINE_BWD (R240, R241). -/

namespace Sys2Proof.Machine

/-- The classes of the expert opcodes (Table 2.8). -/
def expertClasses : List StreamClass := [.F, .B, .U]

/-! ROUTE. -/

/-- TOPK after its clamp (R221). -/
def Ctx.topk (c : Ctx) : Nat := clampNat 1 (min 16 (max 1 c.o.e)) (c.u 0x22 1)

/-- CAPACITY after its clamp. -/
def Ctx.capacity (c : Ctx) : Nat := clampNat 1 65535 (c.u 0x24 4)

/-- MAX_WAVES after its clamp. -/
def Ctx.maxWaves (c : Ctx) : Nat := clampNat 1 16 (c.u 0x29 1)

/-- RENORM and DEFER of a ROUTE. -/
def Ctx.renorm (c : Ctx) : Bool := (c.u 0x28 1).testBit 0

/-- DEFER of a ROUTE. -/
def Ctx.defer (c : Ctx) : Bool := (c.u 0x28 1).testBit 1

/-- WAVES_SLOT of a ROUTE. -/
def Ctx.routeWavesSlot (c : Ctx) : Nat := c.u 0x2A 2

/-- SPOIL_SLOT of a ROUTE. -/
def Ctx.spoilSlot (c : Ctx) : Nat := c.u 0x2C 2

/-- The tokens of a ROUTE. -/
def Ctx.tokens (c : Ctx) : Nat := (c.desc 0).e 1

/-- ROUTE (R221). -/
def specRoute : OpSpec :=
  { code := 0x0501, classes := expertClasses, len := fun _ => 64, descs := ptrs [(0, 0)] [(1, 8)],
    remote := fun c => c.defer,
    produces := fun b => (wavesSlots 0x2A b) ++ (wavesSlots 0x2C b),
    fails := fun c =>
      let x := c.desc 0
      let p := c.desc 1
      c.descFails 0 false ++ c.descFails 1 true
        ++ failIf (c.has 0 && (x.kind != 0 || x.rank != 2 || !(x.fmt == 0 || x.fmt == 1) || (c.obj.isSome && x.e 0 != c.o.e))) 4 0
            ERR_DESCRIPTOR
        ++ failIf (c.has 1 && (p.kind != 0 || p.fmt != 0 || p.ext != x.ext)) 4 1 ERR_DESCRIPTOR
        ++ c.objFails 4 ++ failIf (decide (1 < c.u 0x23 1)) 4 6 ERR_DESCRIPTOR
        ++ c.slotFails c.routeWavesSlot 10 ++ c.slotFails c.spoilSlot 11
        ++ failIf (c.defer && c.routeWavesSlot == 0xFFFF) 4 10 ERR_DESCRIPTOR
        ++ failIf c.exchangeTaken 4 12 ERR_DESCRIPTOR,
    accs := fun c => c.acc 0 false ++ c.acc 1 true ++ accMem 2 true (c.addr 0x10) (64 + 16 * c.tokens * c.topk) 64
      ++ (if c.spoilSlot = 0xFFFF then [] else accMem 3 true (c.addr 0x18) (8 * (c.slot c.spoilSlot).1) 64),
    clamps := fun c => clampBit 5 1 (min 16 (max 1 c.o.e)) (c.u 0x22 1) ++ clampBit 7 1 65535 (c.u 0x24 4)
      ++ (if c.defer then clampBit 9 1 16 (c.u 0x29 1) else []) ++ (if (c.desc 1).trimClamped then [1] else []) }

/-- Whether a token is non-finite (R222). -/
def gateNonfinite (gate : Nat) (xs : List Num) : Bool :=
  xs.any (·.isNan) || (gate == 0 && xs.any (· == .inf false)) || xs.all (· == .inf true)

/-- The probabilities of a finite token (R222). -/
def gateProbs (gate : Nat) (xs : List Num) : List Num :=
  if gate = 1 then xs.map f32Sigmoid
  else
    let m := xs.foldl Num.max (.inf true)
    let zs := xs.map fun x => f32Exp (x.sub m)
    let s := (zs.map (·.q)).sum
    zs.map fun z => fl32 (.fin (z.q / s))

/-- The choices of a token (R223): the experts of largest probability, the lower number first on a tie. -/
def gateChoices (k : Nat) (ps : List Num) : List Nat :=
  ((sortBy (fun (a b : Nat × Num) => b.2.lt a.2) ((List.range ps.length).zip ps)).take k).map (·.1)

/-- A token of a ROUTE: whether it is non-finite, whether a logit of its row reads as bad, its probabilities and its choices. -/
structure Token where
  nonfinite : Bool
  bad : Bool
  probs : List Num
  choices : List Nat
  deriving DecidableEq, Repr

/-- The tokens of a ROUTE with their choices. -/
def Ctx.gate (c : Ctx) : List Token :=
  let x := c.loc 0
  (List.range c.tokens).map fun t =>
    let es := (List.range (x.e 0)).map fun e => c.s.elt x [e, t]
    let xs := es.map (·.v)
    let nf := gateNonfinite (c.u 0x23 1) xs
    let ps := if nf then xs.map fun _ => Num.nan else gateProbs (c.u 0x23 1) xs
    ⟨nf, es.any (·.bad), ps, if nf then (List.range ps.length).take c.topk else gateChoices c.topk ps⟩

/-- What ROUTE decides of one choice: its expert, its global slot, wave and position, or the reason of its spoil. -/
structure Assigned where
  token : Nat
  rank : Nat
  expert : Nat
  gslot : Nat
  wave : Nat
  pos : Nat
  reason : Nat
  deriving DecidableEq, Repr

/-- The loop of R224 over choices, in order, with the slots used so far. -/
def assignChoices (table : List (List Nat)) (quota : Nat) (defer : Bool) (maxWaves : Nat) :
    List (Nat × Nat × Nat × Bool) → Tbl Nat → List Assigned
  | [], _ => []
  | (t, j, e, nf) :: rest, used =>
    let slots := table[e]?.getD []
    let g := slots[t % max 1 slots.length]?.getD 0
    let u := Tbl.get 0 used g
    let w := u / quota
    if nf then ⟨t, j, e, 0xFFFF, 0, 0, 3⟩ :: assignChoices table quota defer maxWaves rest used
    else if (!defer && decide (1 ≤ w)) || (defer && decide (maxWaves ≤ w)) then
      ⟨t, j, e, 0xFFFF, 0, 0, if defer then 2 else 1⟩ :: assignChoices table quota defer maxWaves rest used
    else ⟨t, j, e, g, w, u % quota, 0⟩ :: assignChoices table quota defer maxWaves rest (Tbl.set 0 used g (u + 1))

/-- The quota of a ROUTE (R224). -/
def Ctx.routeQuota (c : Ctx) : Nat := ceilDiv c.capacity (max 1 c.nMembers)

/-- The assignments of a ROUTE. -/
def Ctx.assigned (c : Ctx) (ts : List Token) : List Assigned :=
  assignChoices c.o.table c.routeQuota c.defer c.maxWaves
    (((List.range ts.length).zip ts).flatMap fun (t, tok) =>
      ((List.range tok.choices.length).zip tok.choices).map fun (j, e) => (t, j, e, tok.nonfinite)) []

/-- The weights of a token's choices, and whether it is renormed (R225). -/
def tokenWeights (renorm : Bool) (tok : Token) (as : List Assigned) : List Num × Bool :=
  let p := fun (a : Assigned) => tok.probs[a.expert]?.getD .nan
  let alive := as.filter fun a => a.reason = 0
  let re := renorm && !tok.nonfinite && !alive.isEmpty && decide (alive.length < as.length)
  let s0 := (as.map fun a => (p a).q).sum
  let s1 := (alive.map fun a => (p a).q).sum
  (as.map fun a =>
    if a.reason ≠ 0 then .fin 0
    else if re then
      (if s1 = 0 then decodeElt 0 (Config.renormZero a.token a.rank).toNat else fl32 (.fin ((p a).q * s0 / s1)))
    else p a, re)

/-- The bytes of a route record (Table 9.6). -/
def recordBytes (a : Assigned) (w p : Num) (re : Bool) : List Byte :=
  let spoil := a.reason ≠ 0
  toLe 4 (f32Code w) ++ toLe 4 (f32Code p) ++ toLe 2 a.expert ++ toLe 2 a.gslot
    ++ toLe 2 (if spoil then (Config.spoilPos a.token a.rank).toNat else a.pos)
    ++ toLe 1 (if spoil then (Config.spoilWave a.token a.rank).toNat else a.wave)
    ++ toLe 1 ((if spoil then 1 else 0) + if re then 2 else 0)

/-- The bytes of the route header (Table 9.5), WAVES left at `w`. -/
def Ctx.routeHeader (c : Ctx) (as : List Assigned) (w : Nat) : List Byte :=
  let o := c.o
  toLe 4 c.tokens ++ toLe 1 c.topk ++ toLe 1 ((if c.renorm then 1 else 0) + if c.defer then 2 else 0) ++ toLe 1 w ++ toLe 1 0
    ++ toLe 4 c.routeQuota ++ toLe 2 o.e ++ toLe 2 o.src ++ toLe 2 o.members.length ++ toLe 2 c.objNo ++ toLe 4 o.gen
    ++ toLe 4 (as.filter fun a => a.reason ≠ 0).length ++ toLe 4 (as.filter fun a => 0 < a.wave).length ++ toLe 4 (c.u 0x30 4)
    ++ List.replicate 28 0

/-- The local wave count (R226). -/
def localWaves (as : List Assigned) : Nat := (as.map fun a => if a.reason = 0 then a.wave else 0).foldl max 0 + 1

/-- The work of ROUTE but for the agreed wave count, which `w` stands for (R224–R229). -/
def Ctx.routeWork (c : Ctx) (ts : List Token) (as : List Assigned) (w : Nat) : WorkOut :=
  let per := fun (t : Nat) => as.filter fun a => a.token == t
  let recs : List Write := ((List.range ts.length).zip ts).flatMap fun (t, tok) =>
    let mine := per t
    let (ws, re) := tokenWeights c.renorm tok mine
    (mine.zip ws).map fun (a, x) =>
      ⟨c.addr 0x10 + 64 + 16 * (t * c.topk + a.rank), recordBytes a x (tok.probs[a.expert]?.getD .nan) re, tok.bad⟩
  let spoil := as.filter fun a => a.reason ≠ 0
  let cap := (c.slot c.spoilSlot).1
  let list : List Write := if c.spoilSlot = 0xFFFF then [] else
    ((List.range (min cap spoil.length)).zip spoil).map fun (i, a) =>
      ⟨c.addr 0x18 + 8 * i, toLe 4 a.token ++ toLe 2 a.expert ++ toLe 1 a.rank ++ toLe 1 a.reason, (ts[a.token]?.map (·.bad)).getD false⟩
  let st := if c.has 1 then
      storeDense (c.loc 1) RGroup.rne
        (fun n => let d := c.loc 1
          (ts[n / d.e 0]?).map fun tok => { c.scaled 1 (OutElt.ofNum (tok.probs[n % d.e 0]?.getD .nan)) with poison := tok.bad })
        chooseScale noMove
    else StoreOut.empty
  let finite := as.filter fun a => a.reason ≠ 3
  let loads := (List.range c.o.e).map fun e => (finite.filter fun a => a.expert = e).length
  { reads := (c.loc 0).spans, writes := st.writes,
    res := { Result.empty with
      codes := (if as.any fun a => a.reason == 1 || a.reason == 2 then [OK_SPOIL] else [])
        ++ (if ts.any (·.nonfinite) then [OK_NONFINITE] else []) ++ (if as.any fun a => decide (0 < a.wave) then [OK_DEFERRED] else []),
      count0 := spoil.length, count1 := w, watch := if c.has 1 then c.watchDelta 1 st else [],
      slots := (if c.routeWavesSlot = 0xFFFF then [] else [(c.routeWavesSlot, w)])
        ++ (if c.spoilSlot = 0xFFFF then [] else [(c.spoilSlot, spoil.length)]),
      late := ⟨c.addr 0x10, c.routeHeader as w, false⟩ :: recs ++ list, clipped := st.clipped,
      effects := [Effect.objLoads c.objNo loads, Effect.objMirror c.objNo] } }

/-- A ROUTE that holds a count from every member ends with the largest of them (R226). -/
def State.routeNext (s : State) (p : Nat) (k : Packet) (c : Ctx) (r : Remote) : Option State :=
  if !r.finishedUnits.isEmpty then some (s.endPacket p { k with res := k.res.kept } ERR_PEER_UNREACHABLE)
  else
    let counts := (s.held p c.routeKey).filter fun m => m.what == X_COUNT
    if r.others.all fun i => counts.any fun m => m.src == i then
      let w := (counts.map fun m => leNat m.data.bytes).foldl max (r.vec.headD 1).toNat
      let res := { k.res with
        count1 := w, slots := k.res.slots.map fun x => if x.1 = c.routeWavesSlot then (x.1, w) else x,
        late := k.res.late ++ [⟨c.addr 0x10 + 6, toLe 1 w, false⟩] }
      some ((s.setPacket p { k with phase := .finished, res := res }).dropExchange p c.routeKey)
    else none

/-- ROUTE runs (R224); with DEFER it then awaits the members' wave counts (R226). -/
def execRoute (p : PacketRef) (s : State) : Host.Outcome State Fault Refusal :=
  match s.packet p with
  | none => .next s
  | some k =>
    match s.ctx p.part k with
    | some c =>
      if k.hdr.opcode = 0x0501 ∧ k.phase = .ready ∧ s.fatal = false then
        let ts := c.gate
        let as := c.assigned ts
        if c.defer = false then .next (s.finish p.part k (c.routeWork ts as 1))
        else
          match k.remote with
          | none => .next s
          | some r =>
            let w := localWaves as
            let s1 := s.begin p.part k (c.routeWork ts as w) { r with vec := [(w : Int)] }
            (match s1.packet p with
            | some k1 =>
              if k1.phase ≠ .running then .next s1
              else
                let (s2, r2) := s1.sendMembers p.part p { r with vec := [(w : Int)] }
                  (r.others.map fun i => (i, c.routeKey.msg r.rank X_COUNT 0 0 ⟨toLe 4 w, []⟩))
                let k2 := { k1 with remote := some r2 }
                let s3 := s2.setPacket p.part k2
                .next ((s3.routeNext p.part k2 c r2).getD s3)
            | none => .next s1)
      else .next s
    | none => .next s

/-! DISPATCH. -/

/-- The records of a wave, or of the waves after wave 0 (R233). -/
def Ctx.laterRecs (c : Ctx) : List (Nat × RouteRec) :=
  (c.recNos.map fun i => (i, c.choice i)).filter fun x => !x.2.spoil && decide (0 < x.2.wave)

/-- The bytes of the staging that wave 0 fills (R233, R240). -/
def Ctx.stageBytes (c : Ctx) (d : Desc) : Nat :=
  if c.deferred && c.wave == 0 then c.laterRecs.length * (d.rowBytes + (if d.isScaled then ceilDiv (d.e 0) 32 else 0)) else 0

/-- The buffers of staging. -/
def Ctx.stageBuffers (c : Ctx) (d : Desc) : List Buffer := if c.stageBytes d = 0 then [] else [⟨c.stageBytes d, true⟩]

/-- The entries of PATCH. -/
def Ctx.patchAt (c : Ctx) (l : Nat) : Nat := fieldAt (c.item 4) (8 * l) 8

/-- DISPATCH (R231). -/
def specDispatch : OpSpec :=
  { code := 0x0502, classes := expertClasses, len := fun _ => 64, descs := ptrs [(1, 8), (2, 0x10)] [], remote := fun _ => true,
    slots := wavesSlots 0x2E,
    producesIn := fun pt b => if fieldAt b 0x2C 2 = 0xFFFF then [] else
      (List.range ((pt.obj (fieldAt b 0x28 2)).getD PlaceObj.empty).slots).map (fieldAt b 0x2C 2 + ·),
    items := fun c => [c.routeItem] ++ (if c.addr 0x20 = 0 then [] else [⟨4, c.addr 0x20, 8 * c.nSlots, 64⟩]),
    fails := fun c =>
      let x := c.desc 1
      let d := c.desc 2
      c.waveFails 5 8 ++ c.descFails 1 false ++ c.descFails 2 true
        ++ failIf (c.has 1 && (x.kind != 0 || x.rank != 2 || decide (7 ≤ x.fmt) || x.e 1 != c.routeT)) 4 1 ERR_DESCRIPTOR
        ++ failIf (c.has 2 && (d.kind != 0 || d.rank != 3 || !d.sameFormat x || d.e 0 != x.e 0 || d.e 1 != c.slotRows
            || d.e 2 != c.nSlots)) 4 2 ERR_DESCRIPTOR
        ++ (if c.u 0x2C 2 = 0xFFFF then [] else
          (List.range (max 1 c.nSlots)).flatMap fun l => failOpt (idStatus c.q 4096 (c.u 0x2C 2 + l)) 4 7)
        ++ (if c.addr 0x20 = 0 then [] else
          failIf ((List.range c.nSlots).any fun l => c.patchAt l != 0 && !c.s.inMemory c.p (c.patchAt l) 1) 6 4 ERR_PARTITION),
    accs := fun c => c.acc 1 false ++ c.acc 2 true ++ accMem 3 true (c.addr 0x18) (4 * c.nSlots * (c.nMembers + 1)) 64,
    needsSump := fun c => decide (0 < c.stageBytes (c.desc 1)),
    buffers := fun c => c.stageBuffers (c.desc 1),
    clamps := fun c => if (c.desc 2).trimClamped then [2] else [] }

/-- The numbers of a member's header: this module's records of the wave for each of its local slots (R232). -/
def Ctx.headerCounts (c : Ctx) (m : Nat) : List Nat :=
  (List.range c.nSlots).map fun l => ((c.waveRecs c.wave).filter fun x => x.2.gslot == m * c.nSlots + l).length

/-- The numbers of this module's records over all waves for every global slot (R234). -/
def Ctx.totalCounts (c : Ctx) : List Nat :=
  let rs := (c.recNos.map c.choice).filter fun x => !x.spoil
  (List.range (c.nMembers * c.nSlots)).map fun g => (rs.filter fun x => x.gslot == g).length

/-- Counts as a payload. -/
def countsPayload (ns : List Nat) : Payload := ⟨ns.flatMap (toLe 4), []⟩

/-- A payload as counts. -/
def Payload.count (r : Payload) (i : Nat) : Nat := fieldAt r.bytes (4 * i) 4

/-- A staged row of an exchange. -/
def Part.staged (pt : Part) (k : XKey) (i : Nat) : Option Payload :=
  (pt.staging.find? fun x => x.opcode == k.opcode && x.obj == k.obj && x.gen == k.gen && x.xtag == k.xtag && x.record == i).map (·.row)

/-- The staging of an exchange released (R233). -/
def Part.unstage (pt : Part) (opcode obj gen xtag : Nat) : Part :=
  { pt with
    staging := pt.staging.filter fun x => !(x.opcode == opcode && x.obj == obj && x.gen == gen && x.xtag == xtag),
    stageRoom := pt.stageRoom.filter fun x => !(x.opcode == opcode && x.obj == obj && x.gen == gen && x.xtag == xtag) }

/-- Rows put into staging, which takes over the pool room that a packet of wave 0 reserved for it (R233, R255). -/
def Part.stage (pt : Part) (k : XKey) (pkt : Packet) (rows : List (Nat × Payload)) : Part :=
  let pt1 := pt.unstage k.opcode k.obj k.gen k.xtag
  let room : StagedRoom := ⟨k.opcode, k.obj, k.gen, k.xtag, (pkt.pool.map (·.2)).sum⟩
  { pt1 with
    staging := pt1.staging ++ rows.map fun r => ⟨k.opcode, k.obj, k.gen, k.xtag, r.1, r.2⟩,
    stageRoom := pt1.stageRoom ++ [room],
    packets := pt1.packets.map fun x => if x.ring = pkt.ring ∧ x.idx = pkt.idx then { x with pool := [] } else x }

/-- The header that a member sent, when it is held. -/
def headerOf (ms : List ExchangeMsg) (src : Nat) : Option Payload := (ms.find? fun m => m.what == X_HEADER && m.src == src).map (·.data)

/-- Whether a row of a DISPATCH is one that lands: its slot and POS are in range and within its header's count (R235). -/
def Ctx.rowFits (c : Ctx) (ms : List ExchangeMsg) (m : ExchangeMsg) : Bool :=
  decide (m.slot < c.nSlots ∧ m.src < c.nMembers ∧ m.pos < c.quota)
    && (match headerOf ms m.src with
        | some h => decide (m.pos < h.count m.slot)
        | none => true)

/-- Whether a row lands as it stands: it fits, and its source's header is held, which tells how many rows that source sends (R235). -/
def Ctx.rowLands (c : Ctx) (ms : List ExchangeMsg) (m : ExchangeMsg) : Bool := c.rowFits ms m && (headerOf ms m.src).isSome

/-- The rows that a message lets land: those of a source whose header it is, or the row of which it is a piece. -/
def letLand (ms : List ExchangeMsg) (x : ExchangeMsg) : List ExchangeMsg :=
  (ms.filter fun m => m.what == X_ROW).filter fun w => if x.what = X_HEADER then w.src == x.src else w.sameWhole x

/-- The row of RECV at which an arriving row lands (R232). -/
def Ctx.landingRow (c : Ctx) (m : ExchangeMsg) : Nat := m.slot * c.slotRows + (m.src * c.quota + m.pos)

/-- The rows of a DISPATCH whose headers are held, landed as they arrived. -/
def Ctx.landRows (c : Ctx) (all rows : List ExchangeMsg) : StoreOut :=
  let d := c.loc 2
  ((rows.filter (c.rowLands all)).map fun m => c.storeRow 2 (c.landingRow m) (m.data.elts d)).foldl StoreOut.add .empty

/-- The messages of an exchange that lie in it as rows. -/
def rowsOf (ms : List ExchangeMsg) : List ExchangeMsg := ms.filter fun m => m.what == X_ROW

/-- A packet whose writes land while it goes on. -/
def State.landStore (s : State) (p : Nat) (k : Packet) (r : Remote) (field : Nat) (c : Ctx) (st : StoreOut) : State :=
  s.begin p k { reads := [], writes := st.writes,
                res := { k.res with watch := k.res.watch ++ c.watchDelta field st, clipped := k.res.clipped + st.clipped } } r

/-- A packet of wave 0 whose staging has taken over its pool room. -/
def Packet.staged {α : Type} (k : Packet) (later : List α) : Packet := if later.isEmpty then k else { k with pool := [] }

/-- DISPATCH runs (R232): headers and rows leave, later waves are staged at wave 0 (R233), and the rows already held land. A WAVE at or
beyond the effective wave count ends at once (R231). -/
def execDispatchRows (p : PacketRef) (s : State) : Host.Outcome State Fault Refusal :=
  match s.packet p with
  | none => .next s
  | some k =>
    match s.ctx p.part k, k.remote with
    | some c, some r =>
      if k.hdr.opcode = 0x0502 ∧ k.phase = .ready ∧ s.fatal = false then
        if c.waveCount ≤ c.wave then .next (s.finish p.part k (WorkOut.of Result.empty))
        else
          let x := c.loc 1
          let key := c.waveKey
          let recs := c.waveRecs c.wave
          let rowFor := fun (i : Nat) => ((s.part p.part).staged key i).getD (c.s.rowPayload x [0, i / max 1 c.routeK])
          let later := if c.deferred && c.wave == 0 then c.laterRecs else []
          let spansOf := fun (i : Nat) =>
            let at_ := [0, i / max 1 c.routeK]
            (x.bitAddr at_ / 8, x.rowBytes) :: (if x.isScaled then [(x.scaleAddr at_, ceilDiv (x.e 0) 32)] else [])
          let reads := if c.wave = 0 then (recs ++ later).flatMap fun y => spansOf y.1 else []
          let s1 := s.begin p.part k { reads := reads, writes := [], res := Result.empty } r
          (match s1.packet p with
          | none => .next s1
          | some k1 =>
            if k1.phase ≠ .running then .next s1
            else
              let s2 := if later.isEmpty then s1 else s1.modPart p.part (·.stage key k1 (later.map fun y => (y.1, c.s.rowPayload x [0, y.1 / max 1 c.routeK])))
              let headers := (List.range c.nMembers).map fun m => (m, key.msg r.rank X_HEADER 0 0 (countsPayload (c.headerCounts m)))
              let totals := if c.lastWave then (List.range c.nMembers).map fun m => (m, key.msg r.rank X_TOTALS 0 0 (countsPayload c.totalCounts)) else []
              let rows := recs.map fun y =>
                (y.2.gslot / c.nSlots, key.msg r.rank X_ROW (y.2.gslot % c.nSlots) y.2.pos (rowFor y.1))
              let (s3, r3) := s2.sendMembers p.part p r (headers ++ totals ++ rows)
              let ms := s3.held p.part key
              .next (s3.landStore p.part (k1.staged later) r3 2 c (c.landRows ms (rowsOf ms))))
      else .next s
    | _, _ => .next s

/-- The rows of source `σ` that slot `l` holds, in ascending POS. -/
def Ctx.segment (c : Ctx) (ms : List ExchangeMsg) (l σ : Nat) : List ExchangeMsg :=
  sortBy (fun a b => decide (a.pos < b.pos))
    ((rowsOf ms).filter fun m => m.slot == l && m.src == σ && c.rowFits ms m)

/-- Whether every member still in the exchange has sent its header, the rows that it announces, and at the last wave its totals. -/
def Ctx.dispatchComplete (c : Ctx) (r : Remote) (ms : List ExchangeMsg) : Bool :=
  (List.range c.nMembers).all fun σ =>
    r.finishedUnits.contains σ
      || ((match headerOf ms σ with
           | some h => (List.range c.nSlots).all fun l => decide (min c.quota (h.count l) ≤ (c.segment ms l σ).length)
           | none => false)
          && (!c.lastWave || ms.any fun m => m.what == X_TOTALS && m.src == σ))

/-- The total of an expert over its replicas and waves (R234). -/
def Ctx.expertTotal (c : Ctx) (ms : List ExchangeMsg) (e : Nat) : Nat :=
  ((c.o.table[e]?.getD []).map fun g => ((ms.filter fun m => m.what == X_TOTALS).map fun m => m.data.count g).sum).sum

/-- The expert that a global slot holds. -/
def PlaceObj.expertAt (o : PlaceObj) (g : Nat) : Option Nat :=
  (List.range o.e).find? fun e => (o.table[e]?.getD []).contains g

/-- The patch of DISPATCH (R234): bit 0 set where a slot holds no expert or an untouched one. -/
def Ctx.patchWrites (c : Ctx) (ms : List ExchangeMsg) : List Write :=
  if c.addr 0x20 = 0 ∨ !c.lastWave then []
  else
    (List.range c.nSlots).flatMap fun l =>
      let a := c.patchAt l
      if a = 0 then []
      else
        let idle := match c.o.expertAt (c.o.src * c.nSlots + l) with
          | some e => decide (c.expertTotal ms e = 0)
          | none => true
        let b := (c.s.byte a).toNat
        [⟨a, toLe 1 (b / 2 * 2 + if idle then 1 else 0), false⟩]

/-- The end of a DISPATCH with what has landed (R232, R234, R235): each slot is compacted, SEG and the count slots describe it, and a
packet without an error writes its patch. `codes` are the exchange faults that end it. Rows whose source's header never arrived land here,
those beyond QUOTA apart (DEDUCED, log entry 98). -/
def State.compact (s : State) (p : Nat) (k : Packet) (c : Ctx) (r : Remote) (codes : List Nat) : State :=
  let ms := (s.held p c.waveKey).filter fun m => !(r.finishedUnits.contains m.src)
  let d := c.loc 2
  let segs := (List.range c.nSlots).map fun l => (List.range c.nMembers).map fun σ => c.segment ms l σ
  let counts := segs.map fun ss => ss.map List.length
  let moved := ((List.range segs.length).zip segs).flatMap fun (l, ss) =>
    let rows := ss.flatten
    ((List.range rows.length).zip rows).filterMap fun (i, m) =>
      let row := l * c.slotRows + i
      if row = c.landingRow m ∧ c.rowLands ms m = true then none else some (row, m)
  let stored := fun (xs : List (Nat × ExchangeMsg)) =>
    (xs.map fun (row, m) => c.storeRow 2 row (m.data.elts d)).foldl StoreOut.add .empty
  let st := stored moved
  let first := stored (moved.filter fun x => !c.rowLands ms x.2)
  let prefixes := fun (ns : List Nat) => (List.range (ns.length + 1)).map fun i => (ns.take i).sum
  let seg : Write := ⟨c.addr 0x18, counts.flatMap fun ns => (prefixes ns).flatMap (toLe 4), false⟩
  let totals := counts.map List.sum
  let strays := ((rowsOf ms).filter fun m => !c.rowFits ms m).length
  let all := codes ++ r.lostCodes ++ (if strays = 0 then [] else [ERR_INDEX_RANGE])
  let clean := !(k.res.codes ++ all).any isError
  let w : WorkOut :=
    { reads := [], writes := st.writes ++ [seg],
      res := { k.res with
        codes := k.res.codes ++ all, count0 := totals.sum, count1 := r.sent,
        watch := k.res.watch ++ (if first.written = 0 then [] else c.watchDelta 2 first), clipped := k.res.clipped + first.clipped,
        slots := if c.u 0x2C 2 = 0xFFFF then [] else ((List.range totals.length).zip totals).map fun x => (c.u 0x2C 2 + x.1, x.2),
        late := if clean then c.patchWrites ms else [],
        effects := if c.lastWave then [Effect.unstage c.waveKey.opcode c.waveKey.obj c.waveKey.gen c.waveKey.xtag] else [] } }
  ((s.finish p { k with remote := some r } w).countDrops p strays).dropExchange p c.waveKey

/-- Once every header and announced row has arrived, each local slot is compacted (R232). -/
def execDispatchCompact (p : PacketRef) (s : State) : Host.Outcome State Fault Refusal :=
  match s.packet p with
  | none => .next s
  | some k =>
    match s.ctx p.part k, k.remote with
    | some c, some r =>
      if k.hdr.opcode = 0x0502 ∧ k.phase = .running ∧ s.fatal = false ∧ c.dispatchComplete r (s.held p.part c.waveKey) = true then
        .next (s.compact p.part k c r [])
      else .next s
    | _, _ => .next s

/-! COMBINE. -/

/-- The segment table of a wave as memory holds it: SEG[l][σ] at l × (S + 1) + σ. -/
def Ctx.segTable (c : Ctx) (a : Nat) : List Nat :=
  (List.range (c.nSlots * (c.nMembers + 1))).map fun i => c.s.readNat (a + 4 * i) 4

/-- SEG[l][σ] of a table. -/
def Remote.seg (r : Remote) (members l σ : Nat) : Nat := (r.vec[l * (members + 1) + σ]?.getD 0).toNat

/-- The rows of a segment, those beyond the slot's rows left out. -/
def Ctx.segRows (c : Ctx) (r : Remote) (l σ : Nat) : Nat :=
  let a := r.seg c.nMembers l σ
  min (r.seg c.nMembers l (σ + 1)) c.slotRows - min a c.slotRows

/-- Whether a segment table is malformed: it falls, or runs beyond the slot's rows. -/
def Ctx.segBad (c : Ctx) (r : Remote) : Bool :=
  (List.range c.nSlots).any fun l => (List.range c.nMembers).any fun σ =>
    decide (r.seg c.nMembers l (σ + 1) < r.seg c.nMembers l σ ∨ c.slotRows < r.seg c.nMembers l (σ + 1))

/-- The checks of ADD and OUT of a COMBINE (R238, R111). -/
def Ctx.combineOutFails (c : Ctx) : List Fail :=
  let y := c.desc 1
  let o := c.desc 4
  let a := c.desc 5
  c.descFails 4 true ++ c.descFails 5 false
    ++ (if c.has 4 then failIf (o.kind != 0 || o.rank != 2 || fmtIsGri o.fmt || o.e 0 != y.e 0 || o.e 1 != c.routeT) 4 4 ERR_DESCRIPTOR
        else [])
    ++ (if c.has 5 then
          failIf (a.kind != 0 || fmtIsGri a.fmt || (if c.has 4 then a.rank != o.rank || a.ext != o.ext else a.e 0 != y.e 0 || a.e 1 != c.routeT) || (c.has 4 && fmtIsWide o.fmt && !fmtIsWide a.fmt))
            4 5 ERR_DESCRIPTOR
        else [])

/-- COMBINE (R238). -/
def specCombine : OpSpec :=
  { code := 0x0503, classes := expertClasses, len := fun _ => 80, remote := fun _ => true, slots := wavesSlots 0x34,
    descs := ptrs [(1, 8), (3, 0x18)] [(4, 0x20), (5, 0x28)], items := fun c => [c.routeItem],
    fails := fun c =>
      let y := c.desc 1
      let d := c.desc 3
      c.waveFails 6 9 ++ c.descFails 1 false ++ c.descFails 3 true
        ++ failIf (c.has 1 && (y.kind != 0 || y.rank != 3 || fmtIsGri y.fmt || y.e 1 != c.slotRows || y.e 2 != c.nSlots)) 4 1
            ERR_DESCRIPTOR
        ++ failIf (c.has 3 && (d.kind != 0 || d.rank != 2 || !d.sameFormat y || d.e 0 != y.e 0 || d.e 1 != c.routeT * c.routeK)) 4 3
            ERR_DESCRIPTOR
        ++ c.combineOutFails ++ c.rmodeFails 12 0x40,
    accs := fun c => c.acc 1 false ++ accMem 2 false (c.addr 0x10) (4 * c.nSlots * (c.nMembers + 1)) 64 ++ c.acc 3 true
      ++ c.acc 4 true ++ c.acc 5 false,
    exempt := [(4, 5)],
    clamps := fun c => (if (c.desc 3).trimClamped then [3] else []) ++ (if c.has 4 && (c.desc 4).trimClamped then [4] else []) }

/-- The record that a returned row matches (R238). -/
def Ctx.returnedTo (c : Ctx) (m : ExchangeMsg) : Option Nat :=
  ((c.waveRecs c.wave).find? fun x => x.2.gslot == m.src * c.nSlots + m.slot && x.2.pos == m.pos).map (·.1)

/-- Returned rows landed in RET. -/
def Ctx.landReturned (c : Ctx) (rows : List ExchangeMsg) : StoreOut :=
  let d := c.loc 3
  (rows.filterMap fun m => (c.returnedTo m).map fun i => c.storeRow 3 i (m.data.elts d)).foldl StoreOut.add .empty

/-- Whether every surviving record of the wave has its row, those of given-up members apart. -/
def Ctx.allReturned (c : Ctx) (r : Remote) (ms : List ExchangeMsg) : Bool :=
  (c.waveRecs c.wave).all fun x =>
    r.finishedUnits.contains (x.2.gslot / max 1 c.nSlots) || (rowsOf ms).any fun m => c.returnedTo m == some x.1

/-- The elements of a row of zeros (R238). -/
def zeroRow (d : Desc) : List Elt := (List.range (d.e 0)).map fun _ => ⟨.fin 0, false, 127, 0⟩

/-- OUT of a COMBINE (R239), with the window losses. -/
def Ctx.combineOut (c : Ctx) : StoreOut × Nat :=
  let o := c.loc 4
  let ret := c.loc 3
  let k := c.routeK
  let unweighted := (c.u 0x33 1).testBit 0
  let terms := fun (n : Nat) =>
    let h := n % o.e 0
    let t := n / o.e 0
    let add := if c.has 5 then let e := c.s.elt (c.loc 5) [h, t]; [(e.v, e.bad)] else []
    add ++ (List.range k).map fun j =>
      let x := c.choice (t * k + j)
      let w := if unweighted then (if x.spoil then Num.fin 0 else .fin 1) else x.weight
      let e := c.s.elt ret [h, t * k + j]
      (w.mul e.v, e.bad)
  let out := fun (n : Nat) =>
    let ts := terms n
    let sp := exactSum ts.length (ts.map (·.1))
    if ts.any (·.2) then (OutElt.bad, 0)
    else (c.scaled 4 ⟨sp.w.num, if fmtIsWide o.fmt then some sp.w else none, sp.losses, none, false⟩, sp.losses)
  let st := storeDense o (c.rgroup 0x40) (fun n => some (out n).1) chooseScale noMove
  (st, ((List.range o.total).map fun n => (out n).2).sum)

/-- A COMBINE with what has returned ends (R238): at the last wave the rows of spoiled records are zeroed, and OUT is formed unless an
exchange fault ended it (DESIGN CHOICE, log entry 24). -/
def State.combineEnd (s : State) (p : Nat) (k : Packet) (c : Ctx) (r : Remote) (codes : List Nat) : State :=
  let ms := s.held p c.waveKey
  let d := c.loc 3
  let landed := ((rowsOf ms).filter fun m => (c.returnedTo m).isSome).length
  let spoiled := if c.lastWave then c.recNos.filter fun i => (c.choice i).spoil else []
  let zeros := (spoiled.map fun i => moveRow d i (zeroRow d)).foldl StoreOut.add .empty
  let strays := ((rowsOf ms).filter fun m => (c.returnedTo m).isNone).length
  let faults := codes ++ r.lostCodes
  let s1 := (s.landStore p k r 3 c zeros).countDrops p strays
  match s1.packet (k.ref p) with
  | none => s1
  | some k1 =>
    let all := faults ++ (if strays != 0 || c.segBad r then [ERR_INDEX_RANGE] else [])
    if c.lastWave && c.has 4 && faults.isEmpty && k1.phase == .running then
      let c1 : Ctx := { c with s := s1 }
      let (st, losses) := c1.combineOut
      let reads := (c1.loc 3).spans ++ (if c.has 5 then (c1.loc 5).spans else [])
      (s1.finish p k1
        { reads := reads, writes := st.writes,
          res := { k1.res with
            codes := k1.res.codes ++ all ++ lossNote losses, count0 := landed, count1 := r.sent,
            watch := k1.res.watch ++ c.watchDelta 4 st, clipped := k1.res.clipped + st.clipped,
            ternInvalid := c1.s.ternDense (c1.loc 3) + (if c.has 5 then c1.s.ternDense (c1.loc 5) else 0) } }).dropExchange p c.waveKey
    else
      (s1.finish p k1 (WorkOut.of { k1.res with codes := k1.res.codes ++ all, count0 := landed, count1 := r.sent })).dropExchange p
        c.waveKey

/-- A COMBINE that holds every row of the wave ends. -/
def State.combineNext (s : State) (p : Nat) (k : Packet) (c : Ctx) (r : Remote) : Option State :=
  if c.allReturned r (s.held p c.waveKey) then some (s.combineEnd p k c r []) else none

/-- COMBINE runs (R238): the rows of every segment leave for their sources, and the rows already held land. -/
def execCombineRows (p : PacketRef) (s : State) : Host.Outcome State Fault Refusal :=
  match s.packet p with
  | none => .next s
  | some k =>
    match s.ctx p.part k, k.remote with
    | some c, some r0 =>
      if k.hdr.opcode = 0x0503 ∧ k.phase = .ready ∧ s.fatal = false then
        if c.waveCount ≤ c.wave then .next (s.finish p.part k (WorkOut.of Result.empty))
        else
          let y := c.loc 1
          let key := c.waveKey
          let a := c.shift (c.addr 0x10)
          let r := { r0 with vec := (c.segTable a).map Int.ofNat }
          let rows := (List.range c.nSlots).flatMap fun l => (List.range c.nMembers).flatMap fun σ =>
            (List.range (c.segRows r l σ)).map fun i => (σ, l, i, r.seg c.nMembers l σ + i)
          let reads := (a, 4 * c.nSlots * (c.nMembers + 1)) :: rows.flatMap fun (_, l, _, row) =>
            (y.bitAddr [0, row, l] / 8, y.rowBytes) :: (if y.isScaled then [(y.scaleAddr [0, row, l], ceilDiv (y.e 0) 32)] else [])
          let s1 := s.begin p.part k { reads := reads, writes := [], res := Result.empty } r
          (match s1.packet p with
          | none => .next s1
          | some k1 =>
            if k1.phase ≠ .running then .next s1
            else
              let (s2, r2) := s1.sendMembers p.part p r
                (rows.map fun (σ, l, i, row) => (σ, key.msg r.rank X_ROW l i (c.s.rowPayload y [0, row, l])))
              let s3 := s2.landStore p.part k1 r2 3 c (c.landReturned (rowsOf (s2.held p.part key)))
              (match s3.packet p with
              | none => .next s3
              | some k3 => .next (if k3.phase ≠ .running then s3 else (s3.combineNext p.part k3 { c with s := s3 } r2).getD s3)))
      else .next s
    | _, _ => .next s

/-! COMBINE_BWD. -/

/-- COMBINE_BWD (R240). -/
def specCombineBwd : OpSpec :=
  { code := 0x0504, classes := expertClasses, len := fun _ => 80, remote := fun _ => true, slots := wavesSlots 0x34,
    descs := fun b => [(1, 8)] ++ (if fieldAt b 0x28 8 = 0 then [] else [(2, 0x10)]) ++ [(3, 0x18)]
      ++ (if fieldAt b 0x28 8 = 0 then [] else [(5, 0x28)]),
    items := fun c => [c.routeItem],
    fails := fun c =>
      let g := c.desc 1
      let ret := c.desc 2
      let y := c.desc 3
      let dp := c.desc 5
      c.waveFails 6 8 ++ c.descFails 1 false ++ c.descFails 2 false ++ c.descFails 3 true ++ c.descFails 5 true
        ++ failIf (c.has 1 && (g.kind != 0 || g.rank != 2 || decide (7 ≤ g.fmt) || g.e 1 != c.routeT)) 4 1 ERR_DESCRIPTOR
        ++ failIf (c.has 2 && (ret.kind != 0 || ret.rank != 2 || decide (7 ≤ ret.fmt) || ret.e 0 != g.e 0
            || ret.e 1 != c.routeT * c.routeK)) 4 2 ERR_DESCRIPTOR
        ++ failIf (c.has 3 && (y.kind != 0 || y.rank != 3 || fmtIsGri y.fmt || y.e 0 != g.e 0 || y.e 1 != c.slotRows
            || y.e 2 != c.nSlots)) 4 3 ERR_DESCRIPTOR
        ++ failIf (c.has 5 && (dp.kind != 0 || dp.rank != 2 || dp.fmt != 0 || dp.e 0 != c.rh 0xC 2 || dp.e 1 != c.routeT)) 4 5
            ERR_DESCRIPTOR
        ++ c.rmodeFails 11 0x40,
    accs := fun c => c.acc 1 false ++ c.acc 2 false ++ c.acc 3 true
      ++ accMem 4 false (c.addr 0x20) (4 * c.nSlots * (c.nMembers + 1)) 64 ++ c.acc 5 true,
    needsSump := fun c => decide (0 < c.stageBytes (c.desc 3)),
    buffers := fun c => c.stageBuffers (c.desc 3),
    clamps := fun c => (if (c.desc 3).trimClamped then [3] else []) ++ (if c.has 5 && (c.desc 5).trimClamped then [5] else []) }

/-- What rounding each unit of a row counted: an element, or a block of a scaled format. -/
def unitCounts (d : Desc) (rg : RGroup) (val : Nat → OutElt) : List Counts :=
  let n := d.e 0
  let rnd := fun (h : Nat) => rg.rnd (d.indexBase + h)
  if d.isScaled then
    (List.range (ceilDiv n 32)).map fun b =>
      let hs := (List.range (min 32 (n - 32 * b))).map (32 * b + ·)
      (encodeBlock d.fmt .choose (hs.map rnd) (hs.map val)).2.2
  else (List.range n).map fun h => (encodeUnscaled d.fmt (rnd h) (val h)).2

/-- The counts that travel with a row because its receiver cannot see them in the codes: saturations, underflows and non-finite values of
each unit (DESIGN CHOICE, log entry 23). -/
def countBytes (cs : List Counts) : List Byte := cs.flatMap fun c => toLe 1 c.sats ++ toLe 1 c.unfs ++ toLe 1 c.nonfin

/-- The row that a record sends (R240): weight × DOUT rounded into DYR's format, at the element index of its record, followed by what the
rounding counted. -/
def Ctx.bwdRow (c : Ctx) (i : Nat) : Payload :=
  let g := c.loc 1
  let y := c.desc 3
  let n := y.e 0
  let t := i / max 1 c.routeK
  let w := (c.choice i).weight
  let d : Desc :=
    { y with
      base := 0, rank := 1, ext := [n, 1, 1, 1, 1], stride := [0, 0, 0, 0, 0], scalePtr := y.rowBytes, scaleStride := 0,
      indexBase := (y.indexBase + i * n) % 2 ^ 48, trimLo := [0, 0, 0, 0, 0], trimHi := [0, 0, 0, 0, 0] }
  let val := fun (h : Nat) =>
    let e := c.s.elt g [h, t]
    { c.scaled 3 (OutElt.ofNum (w.mul e.v)) with poison := e.bad }
  let st := storeDense d (c.rgroup 0x40) (fun h => some (val h)) chooseScale noMove
  let len := y.rowBytes + (if y.isScaled then ceilDiv n 32 else 0)
  let m := st.writes.foldl (fun m w => putBytes m w.addr w.bytes) []
  ⟨(List.range len).map (fun a => Tbl.get 0 m a) ++ countBytes (unitCounts d (c.rgroup 0x40) val), (payloadOf (st.writes.filter (·.poison))).bad⟩

/-- A landed row with the counts that came with it, for the units in the owned window (R87). -/
def Desc.countRow (d : Desc) (row : Nat) (m : Payload) (st : StoreOut) : StoreOut :=
  let base := d.rowBytes + (if d.isScaled then ceilDiv (d.e 0) 32 else 0)
  let per := if d.isScaled then 32 else 1
  let us := (List.range (ceilDiv (d.e 0) per)).filter fun u => d.owned (d.coords (row * d.e 0 + per * u))
  let sum := fun (k : Nat) => (us.map fun u => fieldAt m.bytes (base + 3 * u + k) 1).sum
  { st with cnt := { st.cnt with sats := sum 0, unfs := sum 1, nonfin := sum 2 } }

/-- The DYR row at which a row lands, when its POS lies within its segment (R240). -/
def Ctx.bwdPlace (c : Ctx) (r : Remote) (m : ExchangeMsg) : Option Nat :=
  if m.slot < c.nSlots ∧ m.src < c.nMembers ∧ m.pos < c.segRows r m.slot m.src then
    some (m.slot * c.slotRows + r.seg c.nMembers m.slot m.src + m.pos)
  else none

/-- Rows of gradients landed in DYR, as their senders rounded them and with what their rounding counted (R87, R240). -/
def Ctx.landGrads (c : Ctx) (r : Remote) (rows : List ExchangeMsg) : StoreOut :=
  let d := c.loc 3
  (rows.filterMap fun m => (c.bwdPlace r m).map fun i => d.countRow i m.data (moveRow d i (m.data.elts d))).foldl StoreOut.add .empty

/-- Whether every row of every segment has landed, those of given-up members apart. -/
def Ctx.allGrads (c : Ctx) (r : Remote) (ms : List ExchangeMsg) : Bool :=
  (List.range c.nSlots).all fun l => (List.range c.nMembers).all fun σ =>
    r.finishedUnits.contains σ
      || decide (c.segRows r l σ ≤ ((rowsOf ms).filter fun m => m.slot == l && m.src == σ && (c.bwdPlace r m).isSome).length)

/-- The gate gradient of a token (R241): for each rank its expert, its value, and whether it is formed from poison. -/
def Ctx.gateGrad (c : Ctx) (t : Nat) : List (Nat × Num × Bool) :=
  let g := c.loc 1
  let ret := c.loc 2
  let k := c.routeK
  let rs := (List.range k).map fun j => c.choice (t * k + j)
  let row := (List.range (g.e 0)).map fun h => c.s.elt g [h, t]
  let dot := fun (j : Nat) =>
    (((List.range (g.e 0)).zip row).map fun (h, e) => let y := c.s.elt ret [h, t * k + j]; (e.v.mul y.v, e.bad || y.bad)).foldl
      (fun (acc : Num × Bool) x => (acc.1.add x.1, acc.2 || x.2)) (Num.fin 0, false)
  let dots := (List.range k).map dot
  let js := (List.range k).zip (rs.zip dots)
  if rs.any (·.renormed) then
    let s0 := (rs.map fun x => x.prob.q).sum
    let s1 := ((rs.filter fun x => !x.spoil).map fun x => x.prob.q).sum
    let gs := (js.filter fun x => !x.2.1.spoil).foldl (fun (acc : Num) x => acc.add (x.2.2.1.mul x.2.1.prob)) (.fin 0)
    let bad := js.any fun x => !x.2.1.spoil && x.2.2.2
    js.map fun (j, x, d) =>
      (x.expert,
       (if s1 = 0 then decodeElt 0 (Config.gateGradZero t j).toNat
        else if x.spoil then gs.mul (.fin (1 / s1))
        else (d.1.mul (.fin (s0 / s1))).add (gs.mul (.fin ((s1 - s0) / (s1 * s1))))),
       bad || (!x.spoil && d.2))
  else js.map fun (_, x, d) => (x.expert, if x.spoil then .fin 0 else d.1, !x.spoil && d.2)

/-- Whether a token of the route buffer is non-finite: its choices have no probability. -/
def Ctx.tokenNonfinite (c : Ctx) (t : Nat) : Bool := c.routeK != 0 && (c.choice (t * c.routeK)).prob.isNan

/-- DP of a COMBINE_BWD (R241). -/
def Ctx.gateGradOut (c : Ctx) : StoreOut :=
  let d := c.loc 5
  let rows := (List.range c.routeT).map fun t => if c.tokenNonfinite t then [] else c.gateGrad t
  storeDense d RGroup.rne (fun n =>
    match ((rows[n / d.e 0]?).getD []).find? fun x => x.1 == n % d.e 0 with
    | some (_, v, bad) => some { c.scaled 5 (OutElt.ofNum v) with poison := bad }
    | none => some (OutElt.ofNum (.fin 0))) chooseScale noMove

/-- A COMBINE_BWD with what has landed ends (R240): at the last wave DP is written unless an exchange fault ended it (DESIGN CHOICE, log
entry 24). -/
def State.combineBwdEnd (s : State) (p : Nat) (k : Packet) (c : Ctx) (r : Remote) (codes : List Nat) : State :=
  let ms := s.held p c.waveKey
  let landed := ((rowsOf ms).filter fun m => (c.bwdPlace r m).isSome).length
  let strays := ((rowsOf ms).filter fun m => (c.bwdPlace r m).isNone).length
  let faults := codes ++ r.lostCodes
  let dp := c.lastWave && c.has 5 && faults.isEmpty
  let st := if dp then c.gateGradOut else StoreOut.empty
  let w : WorkOut :=
    { reads := if dp then (c.loc 1).spans ++ (c.loc 2).spans else [], writes := st.writes,
      res := { k.res with
        codes := k.res.codes ++ faults ++ (if strays != 0 || c.segBad r then [ERR_INDEX_RANGE] else []), count0 := landed,
        count1 := r.sent, watch := k.res.watch ++ (if dp then c.watchDelta 5 st else []), clipped := k.res.clipped + st.clipped,
        effects := if c.lastWave then [Effect.unstage c.waveKey.opcode c.waveKey.obj c.waveKey.gen c.waveKey.xtag] else [] } }
  ((s.finish p { k with remote := some r } w).countDrops p strays).dropExchange p c.waveKey

/-- A COMBINE_BWD that holds every row of its segments ends. -/
def State.combineBwdNext (s : State) (p : Nat) (k : Packet) (c : Ctx) (r : Remote) : Option State :=
  if c.allGrads r (s.held p c.waveKey) then some (s.combineBwdEnd p k c r []) else none

/-- COMBINE_BWD runs (R240): the weighted gradients leave for the experts, those of later waves staged at wave 0, and the rows already
held land. -/
def execCombineBwd (p : PacketRef) (s : State) : Host.Outcome State Fault Refusal :=
  match s.packet p with
  | none => .next s
  | some k =>
    match s.ctx p.part k, k.remote with
    | some c, some r0 =>
      if k.hdr.opcode = 0x0504 ∧ k.phase = .ready ∧ s.fatal = false then
        if c.waveCount ≤ c.wave then .next (s.finish p.part k (WorkOut.of Result.empty))
        else
          let g := c.loc 1
          let key := c.waveKey
          let a := c.shift (c.addr 0x20)
          let r := { r0 with vec := (c.segTable a).map Int.ofNat }
          let recs := c.waveRecs c.wave
          let later := if c.deferred && c.wave == 0 then c.laterRecs else []
          let rowFor := fun (i : Nat) => ((s.part p.part).staged key i).getD (c.bwdRow i)
          let reads := (a, 4 * c.nSlots * (c.nMembers + 1)) :: (if c.wave = 0 then (recs ++ later).flatMap fun y =>
            let at_ := [0, y.1 / max 1 c.routeK]
            (g.bitAddr at_ / 8, g.rowBytes) :: (if g.isScaled then [(g.scaleAddr at_, ceilDiv (g.e 0) 32)] else []) else [])
          let s1 := s.begin p.part k { reads := reads, writes := [], res := { Result.empty with ternInvalid := if c.wave = 0 then c.s.ternDense g else 0 } } r
          (match s1.packet p with
          | none => .next s1
          | some k1 =>
            if k1.phase ≠ .running then .next s1
            else
              let s2 := if later.isEmpty then s1 else s1.modPart p.part (·.stage key k1 (later.map fun y => (y.1, c.bwdRow y.1)))
              let (s3, r3) := s2.sendMembers p.part p r
                (recs.map fun y => (y.2.gslot / max 1 c.nSlots, key.msg r.rank X_ROW (y.2.gslot % max 1 c.nSlots) y.2.pos (rowFor y.1)))
              let s4 := s3.landStore p.part (k1.staged later) r3 3 c (c.landGrads r3 (rowsOf (s3.held p.part key)))
              (match s4.packet p with
              | none => .next s4
              | some k4 => .next (if k4.phase ≠ .running then s4 else (s4.combineBwdNext p.part k4 { c with s := s4 } r3).getD s4)))
      else .next s
    | _, _ => .next s

end Sys2Proof.Machine
end

