-- ==== Sys2Proof/Machine/Security.lean ====
section
/-! DEFINITION. The Kwadar root's opcodes: ATTEST (R426, R427) and KEY_EXCHANGE for the host bus (R428, R429) and for Lanug ports
(R430). -/

namespace Sys2Proof.Machine

/-- A byte list cut or padded with zeros to a length. -/
def padTo (n : Nat) (bs : List Byte) : List Byte := bs.take n ++ List.replicate (n - bs.length) 0

/-- The ASCII bytes of a text. -/
def asciiBytes (t : String) : List Byte := t.toList.map fun ch => BitVec.ofNat 8 ch.toNat

/-- The next `n` random bytes of the Kwadar root (Config.freeByte). -/
def State.randomBytes (s : State) (n : Nat) : List Byte := (List.range n).map fun i => Config.freeByte (s.draws + i)

/-- Random bytes used up. -/
def State.drew (s : State) (n : Nat) : State := { s with draws := s.draws + n }

/-- A signature of the module by its identity key (R426), cut to its 2,420 bytes. -/
def State.signWith (s : State) (context : String) (msg : List Byte) : List Byte :=
  padTo 2420 (Config.mldsaSign s.identityKey (asciiBytes context) msg (s.randomBytes 32))

/-- The module's serial number as its 16 bytes. -/
def State.serialBytes (s : State) : List Byte := toLe 16 s.serial

/-! ATTEST. -/

/-- NONCE_LEN after its clamp (Table 19.3). -/
def Ctx.nonceLen (c : Ctx) : Nat := clampNat 0 32 (c.u 8 1)

/-- Whether ATTEST reports the identity. -/
def Ctx.withIdentity (c : Ctx) : Bool := (c.u 9 1).testBit 0

/-- The bytes of the report (R427). -/
def Ctx.reportLen (c : Ctx) : Nat := if c.withIdentity then 6464 else 2688

/-- ATTEST (Table 19.3). -/
def specAttest : OpSpec :=
  { code := 0x0B01, classes := [.S], len := fun _ => 64,
    accs := fun c => accMem 0 true (c.addr 0) c.reportLen 64,
    clamps := fun c => clampBit 1 0 32 (c.u 8 1) }

/-- The nonce as the report holds it (R427). -/
def Ctx.nonce (c : Ctx) : List Byte := padTo 32 ((List.range c.nonceLen).map fun i => (c.snap.params[0x10 + i]?).getD 0)

/-- The module's fuse map (R427). -/
def State.fuseImage (s : State) : List Byte := Config.fuseImage s.spares ((s.fuseDone.filter fun f => f.1 != .sump).map fun f => (memCode f.1, f.2.1, f.2.2))

/-- The ports of a partition in encrypted mode (Table 19.4). -/
def State.portsEncrypted (s : State) (p : Nat) : Nat :=
  (((List.range 20).filter fun i => (s.quarters p).contains (quarterOfPort i) && (s.port i).keys.isSome).map fun i => 2 ^ i).sum

/-- Bytes 0x000–0x0FF of the report (Table 19.4). -/
def Ctx.reportHead (c : Ctx) : List Byte :=
  let s := c.s
  let pt := s.part c.p
  let flag := fun (b : Bool) (k : Nat) => if b then 2 ^ k else 0
  let ek := match pt.host.pendingEk with | some e => some e | none => pt.host.acceptedEk
  toLe 4 1 ++ toLe 1 c.p ++ toLe 1 ((s.quarters c.p).map fun q => 2 ^ q).sum
    ++ toLe 1 (flag pt.confidential 0 + flag pt.host.keysSet 1 + flag s.debugUnlocked 2 + flag s.configDefault 3)
    ++ toLe 1 c.nonceLen ++ s.serialBytes ++ toLe 8 (pt.reportCounter + 1) ++ c.nonce ++ padTo 32 s.romMeasure
    ++ padTo 32 s.board.measure ++ sha3 s.fuseImage
    ++ (match ek with | some e => sha3 e | none => List.replicate 32 0)
    ++ toLe 4 (s.portsEncrypted c.p) ++ toLe 4 pt.epoch ++ List.replicate 56 0

/-- The report (R427, Table 19.4). -/
def Ctx.report (c : Ctx) : List Byte :=
  let head := c.reportHead
  head ++ c.s.signWith "CSJ40 attest" head ++ (List.replicate 12 0 : List Byte)
    ++ (if c.withIdentity then padTo 1312 c.s.identityPub ++ padTo 2420 c.s.certificate ++ (List.replicate 44 0 : List Byte) else [])

/-- ATTEST runs (R427): the report, the partition's NONCE item and its report counter. -/
def execAttest (p : PacketRef) (s : State) : Host.Outcome State Fault Refusal :=
  .next (runThen 0x0B01 (fun _ => true)
    (fun c => { reads := [], writes := [⟨c.addr 0, c.report, false⟩], res := Result.of [] c.reportLen 0 0 })
    (fun c s => (s.modPart c.p fun pt => { pt with nonce := c.nonce, reportCounter := pt.reportCounter + 1 }).drew 32) p s)

/-! KEY_EXCHANGE (Table 19.5). -/

/-- OP of a KEY_EXCHANGE. -/
def Ctx.keyOp (c : Ctx) : Nat := c.u 0 1

/-- PORT of a KEY_EXCHANGE. -/
def Ctx.keyPort (c : Ctx) : Nat := c.u 1 1

/-- The keys of the two sides of a port's exchange, ascending (R430, R328). -/
def Ctx.portGroup (c : Ctx) : List Nat :=
  let own := c.s.ownKey c.p
  let peer := c.u 2 2 * 4 + c.u 4 1
  if own < peer then [own, peer] else [peer, own]

/-- The group hash of the two sides. -/
def Ctx.portHash (c : Ctx) : Nat := digest8 (c.portGroup.flatMap fun k => toLe 4 (keyEp k + keyPart k * 2 ^ 16))

/-- Whether another packet of the partition exchanges with the same peer (R332). -/
def Ctx.portExchangeTaken (c : Ctx) : Bool :=
  (c.s.part c.p).packets.any fun k =>
    k.hdr.opcode == 0x0B02 && !(k.ring == c.pkt.ring && k.idx == c.pkt.idx)
      && (match k.remote with | some r => r.ghash == c.portHash | none => false)

/-- Whether a port lies in the partition's quarters and runs Lanug (R430). -/
def State.ownsPort (s : State) (p i : Nat) : Bool :=
  decide (i < 20) && (s.quarters p).contains (quarterOfPort i) && s.runsLanug i

/-- KEY_EXCHANGE (Table 19.5, R428–R430). -/
def specKeyExchange : OpSpec :=
  { code := 0x0B02, classes := [.S], len := fun _ => 32,
    fails := fun c =>
      let op := c.keyOp
      let pt := c.s.part c.p
      failIf (decide (4 < op)) 4 0 ERR_DESCRIPTOR
        ++ failIf ((op == 0 || op == 1 || op == 3) && !pt.confidential) 4 0 ERR_DESCRIPTOR
        ++ failIf (op == 1 && pt.host.pendingDk.isNone) 4 0 ERR_DESCRIPTOR
        ++ failIf ((op == 2 || op == 4) && !c.s.ownsPort c.p c.keyPort) 4 1 ERR_PARTITION
        ++ failIf (op == 2 && (decide (2 ^ 15 ≤ c.u 2 2) || c.portExchangeTaken || decide (c.u 2 2 * 4 + c.u 4 1 = c.s.ownKey c.p))) 4 2
            ERR_DESCRIPTOR
        ++ failIf (op == 2 && decide (3 < c.u 4 1)) 4 3 ERR_DESCRIPTOR,
    accs := fun c =>
      match c.keyOp with
      | 0 => accMem 4 true (c.addr 8) 1184 64
      | 1 => accMem 4 false (c.addr 8) 1088 64 ++ accMem 4 true (c.addr 8 + 1088) 16 16
      | 2 => accMem 4 true (c.addr 8) 64 64
      | _ => [],
    buffers := fun c => if c.keyOp = 2 then [⟨7424, false⟩] else [],
    remote := fun c => c.keyOp == 2 }

/-- HOST_GEN runs (R428): the encapsulation key is written, the pair is pending. -/
def execHostGen (p : PacketRef) (s : State) : Host.Outcome State Fault Refusal :=
  .next (runThen 0x0B02 (fun c => c.keyOp == 0)
    (fun c => { reads := [], writes := [⟨c.addr 8, padTo 1184 (Config.mlkemKeys (c.s.randomBytes 64)).1, false⟩],
                res := Result.empty })
    (fun c s =>
      let (ek, dk) := Config.mlkemKeys (c.s.randomBytes 64)
      (s.modPart c.p fun pt => { pt with host := { pt.host with pendingEk := some (padTo 1184 ek), pendingDk := some dk } }).drew 64) p s)

/-- A key of a derivation (R429): SHA3-256(K ‖ label ‖ th). -/
def deriveKey (secret : List Byte) (label : Nat) (th : List Byte) : List Byte := sha3 (secret ++ toLe 1 label ++ th)

/-- The keys that a HOST_ACCEPT derives: K_IN, K_OUT and SALT (R429). -/
def Ctx.hostKeys (c : Ctx) : List Byte × List Byte × Nat :=
  let h := (c.s.part c.p).host
  let ct := c.s.read (c.addr 8) 1088
  let secret := padTo 32 (Config.mlkemDecaps (h.pendingDk.getD []) ct)
  let th := sha3 (h.pendingEk.getD [] ++ ct)
  (deriveKey secret 1 th, deriveKey secret 2 th, beNat ((deriveKey secret 3 th).take 4))

/-- Whether a HOST_ACCEPT takes its keys: a pair is still pending, and no byte of the ciphertext reads as bad. -/
def Ctx.acceptsKeys (c : Ctx) : Bool := (c.s.part c.p).host.pendingDk.isSome && !c.s.badIn (c.addr 8) 1088

/-- HOST_ACCEPT runs (R429): the confirmation is written, and the keys, counters and indexes are set. -/
def execHostAccept (p : PacketRef) (s : State) : Host.Outcome State Fault Refusal :=
  .next (runThen 0x0B02 (fun c => c.keyOp == 1)
    (fun c =>
      let (_, kOut, salt) := c.hostKeys
      let pending := (c.s.part c.p).host.pendingDk.isSome
      { reads := [(c.addr 8, 1088)],
        writes := if c.acceptsKeys then [⟨c.addr 8 + 0x440, gcmTag kOut (nonce96 salt (2 ^ 64 - 1)) [] [], false⟩] else [],
        res := if pending then Result.empty else { Result.of [ERR_DESCRIPTOR] 0 0 0 with field := 0 } })
    (fun c s =>
      if !c.acceptsKeys then s
      else
        let (kIn, kOut, salt) := c.hostKeys
        s.modPart c.p fun pt =>
          { pt with host := ⟨none, none, pt.host.pendingEk, kIn, kOut, salt, true⟩,
                    bounce := pt.bounce.map fun q => (q.1,
                      { q.2 with inProd := 0, inCons := 0, outProd := 0, outCons := 0, inSeq := 0, outSeq := 0 }) }) p s)

/-- Every bounce queue unbound (R429). -/
def Part.unbindQueues (pt : Part) : Part :=
  { pt with bounce := pt.bounce.map fun q => (q.1, { q.2 with bound := false, stopped := false, named := [], waiting := [] }) }

/-- CLEAR_HOST runs (R429). -/
def execClearHost (p : PacketRef) (s : State) : Host.Outcome State Fault Refusal :=
  .next (runThen 0x0B02 (fun c => c.keyOp == 3) (fun _ => WorkOut.of Result.empty)
    (fun c s => s.modPart c.p fun pt => { pt with host := .none }.unbindQueues) p s)

/-! The exchange over a port (R430; its messages' form is log entry 28). -/

/-- A message of the exchange sent on its own port; whether the port took it. -/
def State.sendOn (s : State) (p : Nat) (ref : PacketRef) (port dst mtype addr : Nat) (data : List Byte) : State × Option Nat :=
  if (s.part p).quarantined || (s.port port).state != .up then (s, none)
  else
    let m : Msg := ⟨mtype, 0, dst, s.endpoint, (s.part p).epoch, s.nextMsgId, addr, data.length, 0, data⟩
    ({ s with nextMsgId := (s.nextMsgId + 1) % 2 ^ 32 }.portSend port (some ref) m, some m.msgId)

/-- A control message of the exchange. -/
def State.keyControl (s : State) (c : Ctx) (r : Remote) (kind round a0 a1 a2 a3 : Nat) : State × Bool :=
  let key := r.keys[1 - r.rank]?.getD 0
  let b := (Control.bytes ⟨kind, keyPart key, c.p, round, 0x0B02, 0, r.rank, r.ghash, a0, a1, a2, a3⟩)
  let (s1, id) := s.sendOn c.p (c.pkt.ref c.p) c.keyPort (keyEp key) M_CONTROL 0 b
  (s1, id.isSome)

/-- A transfer of the exchange, in WRITE messages to the area that the peer announced. -/
def State.keyTransfer (s : State) (c : Ctx) (r : Remote) (a : Nat) (data : List Byte) : State × List (Nat × Nat × Nat) × Bool :=
  let key := r.keys[1 - r.rank]?.getD 0
  (cut4k (data.length / 4096 + 2) a data).foldl (fun (acc : State × List (Nat × Nat × Nat) × Bool) x =>
    if !acc.2.2 then acc
    else
      match acc.1.sendOn c.p (c.pkt.ref c.p) c.keyPort (keyEp key) M_WRITE x.1 x.2 with
      | (s1, some id) => (s1, acc.2.1 ++ [(1 - r.rank, id, c.keyPort)], true)
      | (s1, none) => (s1, acc.2.1, false)) (s, [], true)

/-- The first digest (R430 step 1): `lo` and `hi` give serial, endpoint and port number of the two sides. -/
def keyDigest1 (ek : List Byte) (lo hi : List Byte × Nat × Nat) : List Byte :=
  sha3 (ek ++ lo.1 ++ hi.1 ++ toLe 2 lo.2.1 ++ toLe 2 hi.2.1 ++ toLe 1 lo.2.2 ++ toLe 1 hi.2.2)

/-- The second digest (R430 step 2). -/
def keyDigest2 (ct d1 : List Byte) : List Byte := sha3 (ct ++ d1)

/-- Serial, endpoint and port number of the two sides, the lower first, by the READY held from the peer. -/
def Ctx.keySides (c : Ctx) (r : Remote) : (List Byte × Nat × Nat) × (List Byte × Nat × Nat) :=
  let m := (r.ready[0]?).getD ⟨0, 0, 0, 0, 0⟩
  let own := (c.s.serialBytes, c.s.endpoint, c.keyPort)
  let peer := (toLe 8 m.arg1 ++ toLe 8 m.arg2, keyEp (r.keys[1 - r.rank]?.getD 0), m.arg3)
  if r.rank = 0 then (own, peer) else (peer, own)

/-- What follows the key or ciphertext of a transfer: the sender's public key and certificate, its signature and its ROM measurement. -/
def State.keyTail (s : State) (digest : List Byte) : List Byte :=
  padTo 1312 s.identityPub ++ padTo 2420 s.certificate ++ s.signWith "CSJ40 link" digest ++ padTo 32 s.romMeasure

/-- The two keys and the salt of a port, by the secret and the digests; the lower side sends under label 0x11. -/
def portKeysOf (lower : Bool) (secret d1 d2 : List Byte) : PortKeys :=
  let th := d1 ++ d2
  let up := deriveKey secret 0x11 th
  let down := deriveKey secret 0x12 th
  { keyTx := if lower then up else down, keyRx := if lower then down else up,
    salt := beNat ((deriveKey secret 0x13 th).take 4), txExt := 0, rxExt := 0 }

/-- Whether the peer's certificate and signature verify, in a transfer whose first part has a length (R430). -/
def Ctx.keyVerifies (c : Ctx) (serial msg digest : List Byte) (n : Nat) : Bool :=
  let pub := (msg.drop n).take 1312
  let cert := (msg.drop (n + 1312)).take 2420
  let sig := (msg.drop (n + 3732)).take 2420
  Config.digestVerify c.s.rootKeyDigest [] (serial ++ pub) cert && Config.mldsaVerify pub (asciiBytes "CSJ40 link") digest sig

/-- The 64 bytes that BUF_PTR receives (R430). -/
def keyReport (serial rom : List Byte) (endpoint : Nat) : List Byte :=
  padTo 16 serial ++ padTo 16 rom ++ toLe 2 endpoint ++ List.replicate 30 0

/-- A port that has nothing unacknowledged starts to retrain into its new mode (R430 step 5). -/
def State.settle (s : State) (i : Nat) : State :=
  let p := s.port i
  if p.switching.isSome && p.state == .up && p.replay.isEmpty then s.beginRetrain i else s

/-- The switch of a port into a new mode: it stops sending and waits for its acknowledgements (R430 step 5). -/
def State.switchPort (s : State) (i : Nat) (keys : Option PortKeys) : State :=
  (s.modPort i fun p => { p with switching := some keys }).settle i

/-- An exchange that fails a check ends both packets (R430): the peer learns it by a DONE of round 255. -/
def State.keyFail (s : State) (c : Ctx) (k : Packet) (r : Remote) : State :=
  (s.keyControl c r 2 255 0 0 0 0).1.endPacket c.p k ERR_AUTH

/-- The next action of a running exchange (R430): `none` when it awaits a message. Rounds: 0 the first transfer, 1 the second, 2 the
confirmation that the first side checked the second, 3 the switch. -/
def State.keyNext (s : State) (p : Nat) (k : Packet) (c : Ctx) (r : Remote) : Option State :=
  let peer := 1 - r.rank
  let (lo, hi) := c.keySides r
  let save := fun (st : State) (r1 : Remote) => st.setRemote p k r1
  let landed := s.read r.landing 7368
  let bad := s.badIn r.landing 7368
  if r.done.contains (peer, 255) then some (s.endPacket p k ERR_AUTH)
  else if r.rank = 0 then
    match r.readyOf peer with
    | none => none
    | some m =>
      if r.round = 0 ∧ r.sentTo = [] then
        let (ek, dk) := Config.mlkemKeys (s.randomBytes 64)
        let ek1 := padTo 1184 ek
        let s1 := s.drew 64
        let d1 := keyDigest1 ek1 lo hi
        let (s2, ids, ok) := (s1.drew 32).keyTransfer c r m.arg0 (ek1 ++ s1.keyTail d1)
        let r1 := { r with sentTo := [(peer, 0)], unacked := ids, staged := [(0, ⟨0, ek1, false⟩), (1, ⟨0, dk, false⟩)] }
        if ok then some (save s2 r1) else some (s2.endPacket p k ERR_PEER_UNREACHABLE)
      else if r.round = 0 ∧ r.unacked = [] then
        let (s1, ok) := s.keyControl c r 2 0 0 0 0 0
        if ok then some (save s1 { r with round := 1 }) else some (s1.endPacket p k ERR_PEER_UNREACHABLE)
      else if r.round = 1 ∧ r.done.contains (peer, 1) then
        let part := fun (i : Nat) => ((r.staged.find? fun x => x.1 == i).map fun x => x.2.bytes).getD []
        let d1 := keyDigest1 (part 0) lo hi
        let ct := landed.take 1088
        let d2 := keyDigest2 ct d1
        if bad || !c.keyVerifies hi.1 landed d2 1088 then some (s.keyFail c k r)
        else
          let secret := padTo 32 (Config.mlkemDecaps (part 1) ct)
          let (s1, ok) := s.keyControl c r 2 2 0 0 0 0
          let out : Write := ⟨0, keyReport hi.1 ((landed.drop 7240).take 16) hi.2.1, false⟩
          let r1 := { r with round := 3, staged := [(2, out)] }
          if ok then some ((save s1 r1).switchPort c.keyPort (some (portKeysOf true secret d1 d2)))
          else some (s1.endPacket p k ERR_PEER_UNREACHABLE)
      else none
  else
    match r.readyOf peer with
    | none => none
    | some m =>
      if r.round = 0 ∧ r.done.contains (peer, 0) then
        let ek := landed.take 1184
        let d1 := keyDigest1 ek lo hi
        if bad || !c.keyVerifies lo.1 landed d1 1184 then some (s.keyFail c k r)
        else
          let (ct, secret) := Config.mlkemEncaps ek (s.randomBytes 32)
          let ct1 := padTo 1088 ct
          let d2 := keyDigest2 ct1 d1
          let s1 := s.drew 32
          let (s2, ids, ok) := (s1.drew 32).keyTransfer c r m.arg0 (ct1 ++ s1.keyTail d2)
          let out : Write := ⟨0, keyReport lo.1 ((landed.drop 7336).take 16) lo.2.1, false⟩
          let r1 := { r with round := 1, sentTo := [(peer, 1)], unacked := ids,
                             staged := [(0, ⟨0, d1, false⟩), (1, ⟨0, padTo 32 secret, false⟩), (2, out), (3, ⟨0, d2, false⟩)] }
          if ok then some (save s2 r1) else some (s2.endPacket p k ERR_PEER_UNREACHABLE)
      else if r.round = 1 ∧ r.unacked = [] then
        let (s1, ok) := s.keyControl c r 2 1 0 0 0 0
        if ok then some (save s1 { r with round := 2 }) else some (s1.endPacket p k ERR_PEER_UNREACHABLE)
      else if r.round = 2 ∧ r.done.contains (peer, 2) then
        let part := fun (i : Nat) => ((r.staged.find? fun x => x.1 == i).map fun x => x.2.bytes).getD []
        some ((save s { r with round := 3, staged := r.staged.filter fun x => x.1 == 2 }).switchPort c.keyPort
          (some (portKeysOf false (part 1) (part 0) (part 3))))
      else none

/-- A running exchange goes on as far as it can; `fuel` bounds the actions. -/
def State.keyAdvance : Nat → PacketRef → State → State
  | 0, _, s => s
  | fuel + 1, ref, s =>
    match s.packet ref with
    | none => s
    | some k =>
      match s.ctx ref.part k, k.remote with
      | some c, some r =>
        if k.phase ≠ .running then s
        else
          match s.keyNext ref.part k c r with
          | none => s
          | some s1 => State.keyAdvance fuel ref s1
      | _, _ => s

/-- KEY_EXCHANGE with OP PORT runs (R430): it announces its landing area with its serial number and port, and goes on. -/
def execKeyExchangePort (p : PacketRef) (s : State) : Host.Outcome State Fault Refusal :=
  match s.packet p with
  | none => .next s
  | some k =>
    match s.ctx p.part k, k.remote with
    | some c, some r =>
      if k.hdr.opcode = 0x0B02 ∧ k.phase = .ready ∧ s.fatal = false ∧ c.keyOp = 2 then
        let k1 := { k with phase := .running }
        let (s1, ok) := (s.setPacket p.part k1).keyControl c r 1 0 (globalAddr s.endpoint r.landing) (s.serial % 2 ^ 64)
          (s.serial / 2 ^ 64 % 2 ^ 64) c.keyPort
        if ok then .next (s1.keyAdvance 8 p) else .next (s1.endPacket p.part k1 ERR_PEER_UNREACHABLE)
      else .next s
    | _, _ => .next s

/-- CLEAR_PORT runs (R430): an up port retrains into clear mode; a port that is down simply loses its keys. -/
def execClearPort (p : PacketRef) (s : State) : Host.Outcome State Fault Refusal :=
  match s.packet p with
  | none => .next s
  | some k =>
    match s.ctx p.part k with
    | some c =>
      if k.hdr.opcode = 0x0B02 ∧ k.phase = .ready ∧ s.fatal = false ∧ c.keyOp = 4 then
        if (s.port c.keyPort).state = .down then
          .next ((s.modPort c.keyPort fun x => { x with keys := none, switching := none }).finish p.part k (WorkOut.of Result.empty))
        else .next ((s.setPacket p.part { k with phase := .running }).switchPort c.keyPort none)
      else .next s
    | none => .next s

/-- The packets that wait for a port's new mode end with the end of its training (R430): with what BUF_PTR receives, or with
ERR_PEER_UNREACHABLE where the port does not train. -/
def State.portSwitched (s : State) (i : Nat) (ok : Bool) : State :=
  s.partList.foldl (fun s p =>
    ((s.part p).packets.filter fun k => k.hdr.opcode == 0x0B02 && k.phase == .running).foldl (fun s k =>
      match s.ctx p k with
      | none => s
      | some c =>
        let waits := c.keyPort == i && (c.keyOp == 4 || (match k.remote with | some r => r.round == 3 | none => false))
        if !waits then s
        else if !ok then s.endPacket p k ERR_PEER_UNREACHABLE
        else
          let out := (k.remote.bind fun r => (r.staged.find? fun x => x.1 == 2).map (·.2))
          s.finish p k { reads := [], writes := (match out with | some w => [{ w with addr := c.addr 8 }] | none => []),
                         res := Result.empty }) s) s

end Sys2Proof.Machine
end

