-- ==== Sys2Proof/Machine/Collectives.lean ====
section
/-! DEFINITION. The collectives (R341–R352): SCALE_AGREE, RS_INT, ALLGATHER, ALLTOALL, PERMUTE_SHARDS and BARRIER. -/

namespace Sys2Proof.Machine

/-! Buckets (Table 14.7, R341). -/

/-- BUCKETS as far as the list is read. -/
def Ctx.buckets (c : Ctx) : Nat := min 256 (c.u 0x28 2)

/-- The field that stands for a descriptor of a bucket: 0 X, 1 D. -/
def bucketField (b k : Nat) : Nat := 256 + 4 * b + k

/-- A field of a bucket entry. -/
def Ctx.bucketAt (c : Ctx) (b off w : Nat) : Nat := fieldAt (c.item 4) (32 * b + off) w

/-- The identifier of a bucket. -/
def Ctx.bucketId (c : Ctx) (b : Nat) : Nat := c.bucketAt b 0x10 4

/-- SIG_CTR of a bucket. -/
def Ctx.bucketSig (c : Ctx) (b : Nat) : Nat := c.bucketAt b 0x14 2

/-- The rule for a counter identifier (R33). -/
def counterStatus (q n : Nat) : Option Nat := idStatus q 4096 n

/-- The checks of the bucket list (R341, Table 14.8); `both` tells whether D is read. -/
def Ctx.bucketFails (c : Ctx) : List Fail :=
  let bs := List.range c.buckets
  failIf (decide (c.u 0x28 2 = 0 ∨ 256 < c.u 0x28 2)) 4 7 ERR_DESCRIPTOR
    ++ (bs.flatMap fun b =>
      let x := c.desc (bucketField b 0)
      c.descFails (bucketField b 0) false
        ++ failIf (c.has (bucketField b 0) && (x.kind != 0 || x.rank != 1 || fmtIsGri x.fmt || fmtIsWide x.fmt)) 4 4 ERR_DESCRIPTOR
        ++ failIf ((List.range b).any fun a => c.bucketId a == c.bucketId b) 4 4 ERR_DESCRIPTOR
        ++ (if c.bucketSig b = 0xFFFF then [] else failOpt (counterStatus c.q (c.bucketSig b)) 4 4))

/-- The bucket list as an item. -/
def Ctx.bucketItem (c : Ctx) : Item := ⟨4, c.addr 0x10, 32 * c.buckets, 64⟩

/-- The descriptors of the bucket list. -/
def Ctx.bucketDescs (c : Ctx) (both : Bool) : List (Nat × Nat) :=
  (List.range c.buckets).flatMap fun b =>
    (bucketField b 0, c.bucketAt b 0 8) :: (if both then [(bucketField b 1, c.bucketAt b 8 8)] else [])

/-- The elements of a bucket's X. -/
def Ctx.bucketElts (c : Ctx) (b : Nat) : List Elt :=
  let d := c.loc (bucketField b 0)
  (List.range d.total).map fun i => c.s.elt d [i]

/-- The TERN elements of code 0b10 among the buckets (R59). -/
def Ctx.bucketTern (c : Ctx) : Nat := ((List.range c.buckets).map fun b => c.s.ternDense (c.loc (bucketField b 0))).sum

/-! SCALE_AGREE. -/

/-- The bytes of one round's vector (R342). -/
def Ctx.scaleStep (c : Ctx) : Nat := roundUp (2 * c.buckets) 64

/-- SCALE_AGREE (R342). -/
def specScaleAgree : OpSpec :=
  { code := 0x0601, classes := [.C], len := fun _ => 48, engine := some 0xE, remote := fun _ => true,
    items := fun c => c.headItems ++ [c.bucketItem],
    moreDescs := fun c => c.bucketDescs false,
    fails := fun c => c.headFails true ++ c.bucketFails,
    accs := fun c => ((List.range c.buckets).flatMap fun b => c.acc (bucketField b 0) false)
      ++ accMem 5 true (c.addr 0x18) (2 * c.buckets) 64,
    buffers := fun c => if c.ranks ≤ 1 then [] else [⟨rounds c.ranks * c.scaleStep, false⟩] }

/-- A bucket's local exponent (R342), and whether it is formed from poison. -/
def Ctx.localExp (c : Ctx) (b : Nat) : Int × Bool :=
  (c.bucketElts b).foldl (fun (acc : Int × Bool) e =>
    (if e.v.isFinite && !e.v.isZero && !e.bad then max acc.1 (floorLog2 (absQ e.v.q)) else acc.1, acc.2 || e.bad)) (-32768, false)

/-- A vector of exponents as bytes, by pieces of 64 B with their poison. -/
def expWrites (off : Nat) (v : List Int) (bad : List Nat) : List Write :=
  coalesce ((List.range (ceilDiv v.length 32)).map fun i =>
    ⟨off + 64 * i, ((v.drop (32 * i)).take 32).flatMap fun e => toLe 2 (unsigned 16 e),
     (List.range 32).any fun j => bad.contains (32 * i + j)⟩)

/-- The transfer that round `k` stages for its rank (R342): what the running vector is then. -/
def Remote.stageRound (r : Remote) (step k : Nat) : Remote :=
  if rounds r.keys.length ≤ k then r
  else { r with staged := r.staged ++ (expWrites (k * step) r.vec r.finishedUnits).map fun w => (r.toRank k, w) }

/-- A running vector with the one that a round received; `finishedUnits` names the buckets formed from poison. -/
def Remote.mergeRound (r : Remote) (s : State) (step k : Nat) : Remote :=
  let base := r.landing + k * step
  let got := (List.range r.vec.length).map fun b => (signed 16 (s.readNat (base + 2 * b) 2), s.badIn (base + 2 * b) 2)
  { r with
    vec := (r.vec.zip got).map fun (v, g) => if g.2 then v else max v g.1,
    finishedUnits := ((List.range got.length).zip got).foldl (fun acc x => if x.2.2 then setIns acc x.1 else acc) r.finishedUnits,
    round := k + 1 }

/-! RS_INT. -/

/-- P of R82 by WIRE. -/
def wireP (wire : Nat) : Int := if wire = 1 then 22 else 47

/-- The bytes of a wire integer. -/
def wireBytes (wire : Nat) : Nat := if wire = 1 then 4 else 8

/-- WIRE of an RS_INT. -/
def Ctx.wire (c : Ctx) : Nat := c.u 0x2C 1

/-- The length of a shard (R341). -/
def shardLen (n s : Nat) : Nat := 16 * ceilDiv n (16 * s)

/-- n of a bucket. -/
def Ctx.bucketN (c : Ctx) (b : Nat) : Nat := (c.desc (bucketField b 0)).e 0

/-- L of a bucket. -/
def Ctx.bucketL (c : Ctx) (b : Nat) : Nat := shardLen (c.bucketN b) c.ranks

/-- The bytes of one slot of a bucket (R343). -/
def Ctx.slotBytes (c : Ctx) (b : Nat) : Nat := 64 + c.bucketL b * wireBytes c.wire

/-- The offset of a bucket's slots in the landing area. -/
def Ctx.slotBase (c : Ctx) (b : Nat) : Nat := ((List.range b).map fun a => c.ranks * c.slotBytes a).sum

/-- E of a bucket as the snapshot read it. -/
def Ctx.bucketE (c : Ctx) (b : Nat) : Int := signed 16 (fieldAt (c.item 5) (2 * b) 2)

/-- LAYER of an RS_INT. -/
def Ctx.rsLayer (c : Ctx) : Nat := c.u 0x2A 2

/-- Whether the region at TOT_PTR meets one of the lists that the packet names: GROUP_PTR's, LIST_PTR's, EXP_PTR's (R343). -/
def Ctx.totalsMeet (c : Ctx) : Bool :=
  (regionOf (c.addr 0x20) 32).any fun t =>
    [(c.addr 0, 4 * c.ranks), (c.addr 0x10, 32 * c.buckets), (c.addr 0x18, 2 * c.buckets)].any fun x =>
      (regionOf x.1 x.2).any (Region.meets t)

/-- RS_INT (R343). -/
def specRsInt : OpSpec :=
  { code := 0x0602, classes := [.C], len := fun _ => 48, engine := some 0xE, remote := fun _ => true,
    items := fun c => c.headItems ++ [c.bucketItem, ⟨5, c.addr 0x18, 2 * c.buckets, 64⟩],
    moreDescs := fun c => c.bucketDescs true,
    fails := fun c =>
      c.headFails true ++ c.bucketFails
        ++ ((List.range c.buckets).flatMap fun b =>
          let d := c.desc (bucketField b 1)
          c.descFails (bucketField b 1) true
            ++ failIf (c.has (bucketField b 1) && (d.kind != 0 || d.rank != 1 || d.e 0 != c.bucketL b
                || !(d.fmt == 0 || d.fmt == (if c.wire = 1 then 7 else 8)))) 4 4 ERR_DESCRIPTOR)
        ++ failIf (decide (c.rsLayer ≠ 0xFFFF ∧ 1024 * c.q ≤ c.rsLayer)) 4 8 ERR_PARTITION
        ++ failIf (decide (1 < c.wire)) 4 9 ERR_DESCRIPTOR ++ failIf (decide (c.wire = 1 ∧ 256 < c.ranks)) 4 9 ERR_DESCRIPTOR
        ++ (if c.addr 0x20 = 0 then [] else failIf c.totalsMeet 8 6 ERR_WRITE_ALIAS),
    accs := fun c => ((List.range c.buckets).flatMap fun b => c.acc (bucketField b 0) false ++ c.acc (bucketField b 1) true)
      ++ (if c.addr 0x20 = 0 then [] else accMem 6 true (c.addr 0x20) 32 64),
    buffers := fun c => [⟨c.slotBase c.buckets, false⟩],
    clamps := fun c => if (List.range c.buckets).any fun b => (c.desc (bucketField b 1)).trimClamped then [4] else [] }

/-- A contribution on the wire's grid (R83). -/
def wireInt (p e : Int) (v : Num) : Int :=
  match v with
  | .fin x =>
    let t := x * pow2 (p - e)
    let m := floorAbs t
    let r := absQ t - (m : Rat)
    let n := if r < 1 / 2 then m else if 1 / 2 < r then m + 1 else if m % 2 = 0 then m else m + 1
    let k := min n (2 ^ (p.toNat + 1) - 1)
    if x < 0 then -(k : Int) else (k : Int)
  | _ => 0

/-- The header of a slot (Table 14.9). -/
def slotHeader (id : Nat) (e : Int) (nonfinite elements sats unfs : Nat) : List Byte :=
  toLe 4 id ++ toLe 2 (unsigned 16 e) ++ toLe 2 0 ++ toLe 8 nonfinite ++ toLe 8 elements ++ toLe 8 sats ++ toLe 8 unfs
    ++ List.replicate 24 0

/-- The transfer of a bucket's shard `j` at an offset: the header, then the integers by pieces of 64 B with their poison (R344, R345). -/
def Ctx.shardWrites (c : Ctx) (elts : List Elt) (b j off : Nat) (counts : Nat × Nat × Nat) : List Write :=
  let wb := wireBytes c.wire
  let len := c.bucketL b
  let nonfin := (elts.filter fun e => !e.v.isFinite).length
  let per := 64 / wb
  let piece := fun (i : Nat) =>
    let es := ((elts.drop (j * len)).take len).drop (i * per) |>.take per
    let bs := es.flatMap fun e => toLe wb (unsigned (8 * wb) (wireInt (wireP c.wire) (c.bucketE b) e.v))
    (⟨off + 64 + 64 * i, bs ++ List.replicate (64 - bs.length) 0, es.any (·.bad)⟩ : Write)
  coalesce (⟨off, slotHeader (c.bucketId b) (c.bucketE b) nonfin counts.1 counts.2.1 counts.2.2, false⟩
    :: (List.range (len * wb / 64)).map piece)

/-- The layer's gradient-slot counts that go into the headers of the first bucket (R346). -/
def Remote.layerCounts (r : Remote) (b : Nat) : Nat × Nat × Nat :=
  if b = 0 then ((r.vec[0]?.getD 0).toNat, (r.vec[1]?.getD 0).toNat, (r.vec[2]?.getD 0).toNat) else (0, 0, 0)

/-- What an RS_INT takes from its layer at its snapshot (R346): the counts of a bound entry's slot with scope REDUCED, cleared. -/
def State.takeLayerCounts (s : State) (p layer : Nat) : State × List Int :=
  let l := (s.part p).layer layer
  match layer, l.slot with
  | 0xFFFF, _ => (s, [])
  | _, some slot =>
    if l.scope = .reduced then
      let w := (s.part p).watchSlot slot
      (s.modPart p (·.modWatch slot WatchSlot.clear), [(w.elements : Int), (w.saturations : Int), (w.underflows : Int)])
    else (s, [])
  | _, none => (s, [])

/-- The slot of rank `j` in a landed bucket, as its owner reads it (R344): nothing where its header differs, with the counts. -/
structure SlotRead where
  ok : Bool
  bad : Bool
  ints : List (Int × Bool)
  counts : List Nat
  deriving DecidableEq, Repr

/-- A slot read from the landing area. -/
def Ctx.slotRead (c : Ctx) (r : Remote) (b j : Nat) : SlotRead :=
  let a := r.landing + c.slotBase b + j * c.slotBytes b
  let wb := wireBytes c.wire
  let f := fun (off w : Nat) => c.s.readNat (a + off) w
  let bad := c.s.badIn a 64
  let ok := f 0 4 == c.bucketId b && signed 16 (f 4 2) == c.bucketE b
  { ok := ok, bad := bad,
    ints := (List.range (c.bucketL b)).map fun i =>
      let x := a + 64 + wb * i
      (if ok then signed (8 * wb) (c.s.readNat x wb) else 0, bad || (ok && c.s.badIn x wb)),
    counts := if ok then [f 0x10 8, f 0x18 8, f 0x20 8, f 8 8] else [0, 0, 0, 0] }

/-- The work of reducing a bucket (R344, R345): D, its counts, and the bucket totals ELEMENTS, SATURATIONS, UNDERFLOWS, NONFINITE. -/
def Ctx.bucketReduceWork (c : Ctx) (r : Remote) (b : Nat) : WorkOut × List Nat :=
  let slots := (List.range c.ranks).map (c.slotRead r b)
  let d := c.loc (bucketField b 1)
  let len := c.bucketL b
  let out := fun (i : Nat) =>
    let n := r.rank * len + i
    if c.bucketN b ≤ n then some (if d.fmt = 0 then OutElt.ofNum (.fin 0) else { OutElt.ofNum (.fin 0) with raw := some 0 })
    else
      let xs := slots.map fun sl => (sl.ints)[i]?.getD (0, false)
      let sum : Int := (xs.map (·.1)).sum
      let o := if d.fmt = 0 then OutElt.ofNum (.fin ((sum : Rat) * pow2 (c.bucketE b - wireP c.wire)))
        else { OutElt.ofNum (.fin 0) with raw := some (unsigned d.w sum) }
      some { o with poison := xs.any (·.2) }
  let st := storeDense d RGroup.rne out chooseScale noMove
  let totals := (List.range 4).map fun k => (slots.map fun sl => sl.counts[k]?.getD 0).sum
  ({ reads := [(r.landing + c.slotBase b, c.ranks * c.slotBytes b)], writes := st.writes,
     res := { Result.empty with
       codes := (if slots.all (·.ok) then [] else [ERR_INDEX_RANGE]) ++ (if 0 < totals[3]?.getD 0 then [OK_NONFINITE] else []),
       count1 := totals[3]?.getD 0, watch := c.watchDelta (bucketField b 1) st, clipped := st.clipped } }, totals)

/-- Bucket totals added into a layer's reduced totals (R346). -/
def Layer.addTotals (l : Layer) (t : List Nat) : Layer :=
  { l with totElements := l.totElements + t[0]?.getD 0, totSaturations := l.totSaturations + t[1]?.getD 0,
           totUnderflows := l.totUnderflows + t[2]?.getD 0, totNonfinite := l.totNonfinite + t[3]?.getD 0 }

/-! ALLGATHER and ALLTOALL. -/

/-- The classes of ALLGATHER and ALLTOALL (Table 2.8). -/
def gatherClasses : List StreamClass := [.C, .F, .B, .U]

/-- ALLGATHER (R347). -/
def specAllgather : OpSpec :=
  { code := 0x0603, classes := gatherClasses, len := fun _ => 32, remote := fun _ => true,
    items := Ctx.headItems, descs := ptrs [(4, 0x10), (5, 0x18)] [],
    fails := fun c =>
      let x := c.desc 4
      let d := c.desc 5
      c.headFails false ++ c.descFails 4 false ++ c.descFails 5 true
        ++ failIf (c.has 4 && (x.kind != 0 || x.rank != 1 || (x.isScaled && x.e 0 % 32 != 0))) 4 4 ERR_DESCRIPTOR
        ++ failIf (c.has 5 && (d.kind != 0 || d.rank != 1 || !d.sameFormat x || d.e 0 != c.ranks * x.e 0)) 4 5 ERR_DESCRIPTOR,
    accs := fun c => c.acc 4 false ++ c.acc 5 true,
    clamps := fun c => if (c.desc 5).trimClamped then [5] else [] }

/-- ALLTOALL (R349). -/
def specAlltoall : OpSpec :=
  { code := 0x0604, classes := gatherClasses, len := fun _ => 32, remote := fun _ => true,
    items := Ctx.headItems, descs := ptrs [(4, 0x10), (5, 0x18)] [],
    fails := fun c =>
      let x := c.desc 4
      let d := c.desc 5
      c.headFails false ++ c.descFails 4 false ++ c.descFails 5 true
        ++ failIf (c.has 4 && (x.kind != 0 || x.rank != 2 || x.e 1 != c.ranks)) 4 4 ERR_DESCRIPTOR
        ++ failIf (c.has 5 && (d.kind != 0 || d.rank != 2 || !d.sameFormat x || d.e 0 != x.e 0 || d.e 1 != c.ranks || !d.nested))
            4 5 ERR_DESCRIPTOR,
    accs := fun c => c.acc 4 false ++ c.acc 5 true,
    clamps := fun c => if (c.desc 5).trimClamped then [5] else [] }

/-- Whether a packet is an ALLGATHER, whose X is one row. -/
def Ctx.isGather (c : Ctx) : Bool := c.pkt.hdr.opcode == 0x0603

/-- The coordinates in X of element `i` of the row that goes to rank `j`. -/
def Ctx.gatherFrom (c : Ctx) (j i : Nat) : List Nat := if c.isGather then [i] else [i, j]

/-- The row of X that goes to rank `j`, as a transfer (R347, R349). -/
def Ctx.gatherTransfer (c : Ctx) (own j : Nat) : List Write :=
  let x := c.loc 4
  let len := x.e 0
  let eb := len * x.w / 8
  let sb := ceilDiv len 32
  let at_ := c.gatherFrom j 0
  if len = 0 then [⟨0, [], false⟩]
  else
    c.s.transfer (x.bitAddr at_ / 8) eb (if c.isGather then own * eb else 0)
      ++ (if x.isScaled then c.s.transfer (x.scaleAddr at_) sb (scaleOffset + if c.isGather then own * sb else 0) else [])

/-- One row of D stored from what a reader of its elements gives (R347): the bits move unchanged through D's owned window, but where R94 scales
what D's field writes (DEDUCED, log entry 97). -/
def Ctx.gatherStore (c : Ctx) (row : Nat) (get : Nat → Elt) : StoreOut :=
  let d := c.loc 5
  let len := (c.desc 4).e 0
  let pure := (c.g 5).isNone
  storeDense d RGroup.rne (fun n => if n / len = row then some (c.moved 5 d.fmt (get n)) else none) chooseScale
    (fun n => if d.isScaled && pure then some ((get n).scale, false) else none)

/-- The row of D that is this rank's own, from X. -/
def Ctx.gatherOwn (c : Ctx) (own : Nat) : StoreOut :=
  let x := c.loc 4
  c.gatherStore own fun n => c.s.elt x (c.gatherFrom own (n % x.e 0))

/-- The row of D that a rank sent, from what has landed. -/
def Ctx.gatherLanded (c : Ctx) (r : Remote) (rank : Nat) : StoreOut :=
  let d := c.loc 5
  let st : State := { c.s with mem := r.landed.foldl (fun m x => Tbl.set 0 m x.1 x.2) c.s.mem, poison := r.landPoison, faults := [] }
  c.gatherStore rank fun n => st.elt d (d.coords n)

/-- The 64 B units of one row. -/
def Ctx.gatherUnits (c : Ctx) : Nat :=
  let x := c.desc 4
  ceilDiv (x.e 0 * x.w / 8) 64 + (if x.isScaled then ceilDiv (ceilDiv (x.e 0) 32) 64 else 0)

/-! PERMUTE_SHARDS. -/

/-- A move of PERMUTE_SHARDS. -/
structure Move where
  src : Nat
  dst : Nat
  srcOff : Nat
  dstOff : Nat
  len : Nat
  deriving DecidableEq, Repr

/-- The moves as the snapshot read them. -/
def Ctx.moves (c : Ctx) : List Move :=
  (List.range (min 65536 (c.u 0x18 4))).map fun i =>
    let f := fun (off w : Nat) => fieldAt (c.item 4) (32 * i + off) w
    ⟨f 0 2, f 2 2, f 8 8, f 0x10 8, f 0x18 8⟩

/-- MHASH (R350). -/
def Ctx.mhash (c : Ctx) : Nat := digest8 (c.item 4 ++ toLe 8 (c.u 0x28 8))

/-- Whether intervals, in ascending order, are disjoint. -/
def disjointSorted : List (Nat × Nat) → Bool
  | [] => true
  | [_] => true
  | a :: b :: t => decide (a.1 + a.2 ≤ b.1) && disjointSorted (b :: t)

/-- Whether two moves to one rank meet (R350). -/
def movesMeet (ms : List Move) : Bool :=
  let live := (ms.filter fun m => decide (0 < m.len)).map fun m => (m.dst * 2 ^ 64 + m.dstOff, m.len)
  !disjointSorted (sortBy (fun a b => decide (a.1 < b.1)) live)

/-- PERMUTE_SHARDS (R350). -/
def specPermute : OpSpec :=
  { code := 0x0605, classes := [.C, .U], len := fun _ => 48, remote := fun _ => true, needsSump := fun _ => true,
    items := fun c => c.headItems ++ [⟨4, c.addr 0x10, 32 * min 65536 (c.u 0x18 4), 64⟩],
    fails := fun c =>
      let ms := c.moves
      let len := c.u 0x28 8
      let un := fun (x : Nat) => decide (x % 64 ≠ 0)
      c.headFails false
        ++ failIf (decide (c.u 0x18 4 = 0 ∨ 65536 < c.u 0x18 4)) 4 5 ERR_DESCRIPTOR
        ++ failIf (ms.any fun m => decide (c.ranks ≤ m.src ∨ c.ranks ≤ m.dst)) 4 4 ERR_DESCRIPTOR
        ++ failIf (ms.any fun m => decide (len < m.srcOff + m.len ∨ len < m.dstOff + m.len)) 4 4 ERR_DESCRIPTOR
        ++ failIf (ms.any fun m => un m.srcOff || un m.dstOff || un m.len) 7 4 ERR_ALIGN
        ++ failIf (un len) 7 7 ERR_ALIGN
        ++ failIf (movesMeet ms) 8 4 ERR_WRITE_ALIAS,
    accs := fun c => accMem 6 true (c.addr 0x20) (c.u 0x28 8) 64,
    buffers := fun c =>
      let own := c.groupKeys.idxOf (c.s.ownKey c.p)
      [⟨((c.moves.filter fun m => m.src == own).map (·.len)).sum, true⟩] }

/-- The bytes of a move, staged at its source, as a transfer (R351). -/
def Ctx.moveTransfer (c : Ctx) (m : Move) : List Write := c.s.transfer (c.shift (c.addr 0x20) + m.srcOff) m.len m.dstOff

/-! BARRIER. -/

/-- BARRIER (R352). -/
def specBarrier : OpSpec :=
  { code := 0x0606, classes := allClasses, len := fun _ => 16, items := Ctx.headItems, remote := fun _ => true,
    fails := fun c => c.headFails false }

/-! The progress of a running collective. -/

/-- The ranks and rounds whose DONE a packet awaits in all (R331). -/
def Ctx.sources (c : Ctx) (r : Remote) : List (Nat × Nat) :=
  match c.pkt.hdr.opcode with
  | 0x0601 => (List.range (rounds r.keys.length)).map fun k => (r.fromRank k, k)
  | 0x0605 => (r.others.filter fun x => c.moves.any fun m => m.src == x && m.dst == r.rank).map fun x => (x, 0)
  | 0x0602 | 0x0603 | 0x0604 | 0x0804 => r.others.map fun x => (x, 0)
  | _ => []

/-- The ranks and rounds to which a packet sends so far. -/
def Ctx.targets (c : Ctx) (r : Remote) : List (Nat × Nat) :=
  match c.pkt.hdr.opcode with
  | 0x0601 => ((List.range (rounds r.keys.length)).filter fun k => decide (k ≤ r.round)).map fun k => (r.toRank k, k)
  | 0x0605 => (r.others.filter fun x => c.moves.any fun m => m.src == r.rank && m.dst == x).map fun x => (x, 0)
  | 0x0602 | 0x0603 | 0x0604 | 0x0804 => r.others.map fun x => (x, 0)
  | _ => []

/-- Whether a packet has nothing more to send: every target has its DONE. -/
def Ctx.allSent (c : Ctx) (r : Remote) : Bool := (c.targets r).all fun t => r.doneTo.contains t

/-- Whether every DONE has arrived. -/
def Ctx.allLanded (c : Ctx) (r : Remote) : Bool := (c.sources r).all fun t => r.done.contains t

/-- A running packet that ends as its opcode states once all has been sent and has landed. -/
def State.endRunning (s : State) (p : Nat) (k : Packet) (w : WorkOut) : State :=
  let res := { k.res with
    codes := k.res.codes ++ w.res.codes, clamps := k.res.clamps ++ w.res.clamps, count0 := w.res.count0,
    count1 := w.res.count1, watch := k.res.watch ++ w.res.watch, opflags := w.res.opflags,
    slots := k.res.slots ++ w.res.slots, effects := k.res.effects ++ w.res.effects }
  s.finish p k { w with res := res }

/-- How a collective ends (R342, R344, R347, R351, R352). -/
def Ctx.collectiveEnd (c : Ctx) (r : Remote) : WorkOut :=
  match c.pkt.hdr.opcode with
  | 0x0601 =>
    { reads := [], writes := expWrites (c.addr 0x18) (r.vec.map fun v => if v = -32768 then -127 else v) r.finishedUnits,
      res := Result.of [] c.buckets (r.vec.filter (· = -32768)).length 0 }
  | 0x0602 => WorkOut.of (Result.of [] c.buckets (c.pkt.res.count1 % 2 ^ 32) 0)
  | 0x0606 => WorkOut.of (Result.of [] (rounds r.keys.length) 0 0)
  | _ => WorkOut.of (Result.of [] r.received r.sent 0)

/-- A sealed generation marked COMMITTED (R402). -/
def Part.commitGen (pt : Part) (gen : Nat) : Part :=
  { pt with catalogue := pt.catalogue.map fun g => if g.gen = gen ∧ g.state = .sealed then { g with state := .committed } else g }

/-- A transfer to a rank whose READY is held (R331); a packet whose message no port takes ends with ERR_PEER_UNREACHABLE. -/
def State.sendTransfer (s : State) (p : Nat) (k : Packet) (r : Remote) (t : Nat × Nat) (m : ReadyMark) : State :=
  let ws := (r.staged.filter fun x => x.1 == t.1).map fun x => { x.2 with addr := m.place k.hdr.opcode r.rank x.2.addr }
  let (s1, ids, ok) := s.sendWrites p (k.ref p) (keyEp (r.keys[t.1]?.getD 0)) t.1 ws
  let r1 := { r with sentTo := r.sentTo ++ [t], unacked := r.unacked ++ ids, sent := r.sent + unitsOf ws }
  if ok then s1.setRemote p k r1 else s1.endPacket p { k with remote := some r1 } ERR_PEER_UNREACHABLE

/-- One DONE or ARRIVE of a packet, marked as sent. -/
def State.sendMark (s : State) (p : Nat) (c : Ctx) (k : Packet) (r : Remote) (kind : Nat) (t : Nat × Nat) : State :=
  let (s1, ok) := s.controlTo p k r c.ctag t.1 kind t.2 0 0 0 0
  let r1 := { r with doneTo := r.doneTo ++ [t] }
  if ok then s1.setRemote p k r1 else s1.endPacket p { k with remote := some r1 } ERR_PEER_UNREACHABLE

/-- The next action of a running collective: a transfer whose READY is held, a DONE whose writes are acknowledged, a round that has
arrived, or the end. -/
def State.collectiveNext (s : State) (p : Nat) (k : Packet) (c : Ctx) (r : Remote) : Option State :=
  let op := k.hdr.opcode
  if op = 0x0605 ∧ r.ready.any (fun m => (m.arg1 : Int) ≠ r.vec.headD 0) then some (s.endPacket p k ERR_DESCRIPTOR)
  else if op = 0x0606 then
    let n := rounds r.keys.length
    if r.round < n ∧ !r.doneTo.contains (r.toRank r.round, r.round) then some (s.sendMark p c k r 3 (r.toRank r.round, r.round))
    else if r.round < n ∧ r.arrive.contains (r.fromRank r.round, r.round) then some (s.setRemote p k { r with round := r.round + 1 })
    else if n ≤ r.round then some (s.endRunning p k (c.collectiveEnd r))
    else none
  else
    match (c.targets r).find? fun t => !r.sentTo.contains t && (op == 0x0804 || (r.readyOf t.1).isSome) with
    | some t =>
      (match r.readyOf t.1 with
      | some m => some (s.sendTransfer p k r t m)
      | none => some (s.setRemote p k { r with sentTo := r.sentTo ++ [t] }))
    | none =>
      match r.sentTo.find? fun t => !r.doneTo.contains t && !(r.unacked.any fun u => u.1 == t.1) with
      | some t => some (s.sendMark p c k r 2 t)
      | none =>
        if op = 0x0601 ∧ r.round < rounds r.keys.length ∧ r.done.contains (r.fromRank r.round, r.round) then
          let r1 := (r.mergeRound s c.scaleStep r.round).stageRound c.scaleStep (r.round + 1)
          some (s.begin p k { reads := [(r.landing + r.round * c.scaleStep, 2 * c.buckets)], writes := [], res := k.res } r1)
        else if c.allSent r && c.allLanded r && (op != 0x0602 || decide (r.finishedUnits.length = c.buckets)) then
          (if op = 0x0804 then some ((s.modPart p (·.commitGen (c.u 0x10 4))).endRunning p k (WorkOut.of Result.empty))
           else some (s.endRunning p k (c.collectiveEnd r)))
        else none

/-- A running collective goes on as far as the messages it holds let it; `fuel` bounds its actions. -/
def State.advance : Nat → PacketRef → State → State
  | 0, _, s => s
  | fuel + 1, ref, s =>
    match s.packet ref with
    | none => s
    | some k =>
      match s.ctx ref.part k, k.remote with
      | some c, some r =>
        if k.phase ≠ .running ∨ s.fatal then s
        else
          match s.collectiveNext ref.part k c r with
          | none => s
          | some s1 => State.advance fuel ref s1
      | _, _ => s

/-- The actions that can follow one another in a group of `n` ranks. -/
def advanceFuel (n : Nat) : Nat := 3 * n + 64

/-- A collective's own part runs (R331): `own` gives its work and its remote part, `args` the arguments of the READYs it then sends. -/
def startRemote (code : Nat) (own : Ctx → Remote → WorkOut × Remote) (args : Ctx → Remote → Nat × Nat × Nat × Nat) (p : PacketRef)
    (s : State) : State :=
  match s.packet p with
  | none => s
  | some k =>
    match s.ctx p.part k, k.remote with
    | some c, some r =>
      if k.hdr.opcode = code ∧ k.phase = .ready ∧ s.fatal = false then
        let (w, r1) := own c r
        let s1 := s.begin p.part k w r1
        let s2 := s1.controlAll p.part p c.ctag 1 (args c r1) (c.sources r1)
        s2.advance (advanceFuel r.keys.length) p
      else s
    | _, _ => s

/-- The READY arguments of a landing area in the pools. -/
def poolArgs (c : Ctx) (r : Remote) : Nat × Nat × Nat × Nat := (globalAddr c.s.endpoint r.landing, 0, 0, 0)

/-- SCALE_AGREE runs (R342). -/
def execScaleAgree (p : PacketRef) (s : State) : Host.Outcome State Fault Refusal :=
  .next (startRemote 0x0601
    (fun c r =>
      let es : List (Int × Bool) := (List.range c.buckets).map c.localExp
      let bad := ((List.range es.length).zip es).filterMap fun (x : Nat × Int × Bool) => if x.2.2 then some x.1 else none
      ({ reads := (List.range c.buckets).flatMap fun b => (c.loc (bucketField b 0)).spans, writes := [],
         res := { Result.empty with ternInvalid := c.bucketTern } },
       Remote.stageRound { r with vec := es.map (·.1), finishedUnits := bad } c.scaleStep 0))
    poolArgs p s)

/-- RS_INT runs (R344): its contributions are formed and its READYs sent; each bucket is reduced by BUCKET_REDUCE. -/
def execRsInt (p : PacketRef) (s : State) : Host.Outcome State Fault Refusal :=
  .next (startRemote 0x0602
    (fun c r =>
      let bs := (List.range c.buckets).map fun b => (b, c.bucketElts b)
      let shard := fun (j : Nat) => bs.flatMap fun (b, es) =>
        c.shardWrites es b j (c.slotBase b + r.rank * c.slotBytes b) (r.layerCounts b)
      ({ reads := (List.range c.buckets).flatMap fun b => (c.loc (bucketField b 0)).spans,
         writes := (shard r.rank).map fun w => { w with addr := w.addr + r.landing },
         res := { Result.empty with ternInvalid := c.bucketTern } },
       { r with staged := r.others.flatMap fun j => (shard j).map fun w => (j, w) }))
    poolArgs p s)

/-- A bucket whose slots have all landed is reduced by its owner (R344): D is written, the totals are added (R346), and its counter rises. Where D, the
landing area or the totals cannot be reached, the packet ends and nothing is added (R252). -/
def execBucketReduce (p : PacketRef) (bucket : Nat) (s : State) : Host.Outcome State Fault Refusal :=
  match s.packet p with
  | none => .next s
  | some k =>
    match s.ctx p.part k, k.remote with
    | some c, some r =>
      if k.hdr.opcode = 0x0602 ∧ k.phase = .running ∧ s.fatal = false ∧ bucket < c.buckets ∧ !r.finishedUnits.contains bucket
          ∧ c.allLanded r = true then
        let (w, totals) := c.bucketReduceWork r bucket
        let res := { k.res with codes := k.res.codes ++ w.res.codes, count1 := k.res.count1 + w.res.count1,
                                watch := k.res.watch ++ w.res.watch, clipped := k.res.clipped + w.res.clipped }
        let tot := c.shift (c.addr 0x20)
        let r1 := { r with finishedUnits := setIns r.finishedUnits bucket }
        if c.addr 0x20 ≠ 0 ∧ s.reachable tot 32 = false then .next (s.endPacket p.part k ERR_PEER_UNREACHABLE)
        else
          let s1 := s.begin p.part k { w with res := res } r1
          if (s1.packet p).any fun k1 => k1.phase == .running then
            let s2 := if c.addr 0x20 = 0 then s1 else s1.addQuads tot totals
            let s3 := s2.modPart p.part fun pt =>
              let pt1 := if c.rsLayer ≠ 0xFFFF ∧ (pt.layer c.rsLayer).slot.isSome ∧ (pt.layer c.rsLayer).scope = .reduced then
                pt.setLayer c.rsLayer ((pt.layer c.rsLayer).addTotals totals) else pt
              if c.bucketSig bucket = 0xFFFF then pt1 else pt1.raise (c.bucketSig bucket) 1
            .next (s3.advance (advanceFuel r.keys.length) p)
          else .next s1
      else .next s
    | _, _ => .next s

/-- The own part of ALLGATHER and ALLTOALL; a move of bits counts no TERN code (R59). -/
def Ctx.gatherWork (c : Ctx) (r : Remote) : WorkOut × Remote :=
  let x := c.loc 4
  let st := c.gatherOwn r.rank
  ({ reads := x.spans, writes := st.writes,
     res := { Result.empty with watch := c.watchDelta 5 st, clipped := st.clipped } },
   { r with staged := r.others.flatMap fun j => (c.gatherTransfer r.rank j).map fun w => (j, w) })

/-- The READY arguments of ALLGATHER and ALLTOALL (R347, R349, log entry 21). -/
def gatherArgs (c : Ctx) (_ : Remote) : Nat × Nat × Nat × Nat :=
  let d := c.loc 5
  let g := globalAddr c.s.endpoint
  if c.isGather then (g d.base, if d.isScaled then g d.scalePtr else 0, 0, 0)
  else (g d.base, if d.isScaled then g d.scalePtr else 0, unsigned 64 (d.st 1), d.scaleStride)

/-- ALLGATHER runs (R347). -/
def execAllgather (p : PacketRef) (s : State) : Host.Outcome State Fault Refusal :=
  .next (startRemote 0x0603 Ctx.gatherWork gatherArgs p s)

/-- ALLTOALL runs (R349). -/
def execAlltoall (p : PacketRef) (s : State) : Host.Outcome State Fault Refusal :=
  .next (startRemote 0x0604 Ctx.gatherWork gatherArgs p s)

/-- PERMUTE_SHARDS runs (R351): every source byte is staged before a READY leaves. -/
def execPermuteShards (p : PacketRef) (s : State) : Host.Outcome State Fault Refusal :=
  .next (startRemote 0x0605
    (fun c r =>
      let mine := c.moves.filter fun m => m.src == r.rank
      let base := c.shift (c.addr 0x20)
      let here := mine.filter fun m => m.dst == r.rank
      ({ reads := mine.map fun m => (base + m.srcOff, m.len),
         writes := here.flatMap fun m => (c.moveTransfer m).map fun w => { w with addr := w.addr + base },
         res := Result.empty },
       { r with vec := [(c.mhash : Int)], received := (here.map fun m => m.len / 64).sum,
                staged := (mine.filter fun m => m.dst != r.rank).flatMap fun m => (c.moveTransfer m).map fun w => (m.dst, w) }))
    (fun c r => (globalAddr c.s.endpoint (c.shift (c.addr 0x20)), (r.vec.headD 0).toNat, 0, 0)) p s)

/-- BARRIER runs (R352). -/
def execBarrier (p : PacketRef) (s : State) : Host.Outcome State Fault Refusal :=
  .next (startRemote 0x0606 (fun _ r => (WorkOut.of Result.empty, r)) (fun _ _ => (0, 0, 0, 0)) p s)

/-! EPOCH_SET. -/

/-- The list of an EPOCH_SET as the snapshot read it. -/
def Ctx.epochList (c : Ctx) : List Nat := (List.range (min 32768 (c.u 0xC 2))).map fun i => fieldAt (c.item 0) (2 * i) 2

/-- EPOCH_SET (R335). -/
def specEpochSet : OpSpec :=
  { code := 0x0607, classes := [.S], len := fun _ => 16,
    items := fun c => [⟨0, c.addr 0, 2 * min 32768 (c.u 0xC 2), 64⟩],
    fails := fun c =>
      let pt := c.s.part c.p
      let l := c.epochList
      let mode := c.u 0xE 1
      let ok := decide (1 ≤ c.u 0xC 2 ∧ c.u 0xC 2 ≤ 32768)
      failIf (!ok) 4 2 ERR_DESCRIPTOR ++ failIf (decide (1 < mode)) 4 3 ERR_DESCRIPTOR
        ++ failIf (ok && !(ascends l && l.contains c.s.endpoint && l.all fun e => decide (e < 32768))) 4 0 ERR_DESCRIPTOR
        ++ failIf (mode == 0 && decide (c.u 8 4 ≤ pt.epoch)) 4 1 ERR_DESCRIPTOR
        ++ failIf (mode == 0 && pt.quarantined) 4 3 ERR_DESCRIPTOR
        ++ failIf (mode == 1 && ((pt.objects.any fun o => o.2.isSome)
            || pt.packets.any fun k => k.cls == .F || k.cls == .B || k.cls == .U || k.cls == .C)) 4 3 ERR_DESCRIPTOR }

/-- EPOCH_SET runs; it acts at its completion (R335). -/
def epochSetStep (mode : Nat) (p : PacketRef) (s : State) : State :=
  runOpcode 0x0607 (fun c => c.u 0xE 1 == mode)
    (fun c => WorkOut.of { Result.of [] 0 c.epochList.length 0 with effects := [Effect.epochSet (c.u 8 4) c.epochList (mode == 1)] }) p s

/-- EPOCH_SET with MODE ADVANCE runs (R335). -/
def execEpochSetAdvance (p : PacketRef) (s : State) : Host.Outcome State Fault Refusal := .next (epochSetStep 0 p s)

/-- EPOCH_SET with MODE JOIN runs (R335). -/
def execEpochSetJoin (p : PacketRef) (s : State) : Host.Outcome State Fault Refusal := .next (epochSetStep 1 p s)

/-- What a rank's DONE makes land (R331): the row of an ALLGATHER or ALLTOALL is stored, a PERMUTE_SHARDS counts what was written. -/
def State.landDone (s : State) (p : PacketRef) (rank round : Nat) : State :=
  match s.packet p with
  | none => s
  | some k =>
    match s.ctx p.part k, k.remote with
    | some c, some r =>
      let r1 := { r with done := r.done ++ [(rank, round)] }
      if k.phase ≠ .running then s.setRemote p.part k r1
      else
        match k.hdr.opcode with
        | 0x0603 | 0x0604 =>
          let st := c.gatherLanded r rank
          let res := { k.res with watch := k.res.watch ++ c.watchDelta 5 st, clipped := k.res.clipped + st.clipped }
          s.begin p.part k { reads := [], writes := st.writes, res := res } { r1 with received := r.received + c.gatherUnits }
        | 0x0605 =>
          let n := ((c.moves.filter fun m => m.src == rank && m.dst == r.rank).map fun m => m.len / 64).sum
          s.setRemote p.part k { r1 with received := r.received + n }
        | _ => s.setRemote p.part k r1
    | _, _ => s

end Sys2Proof.Machine
end

