-- ==== Sys2Proof/Machine/Placement.lean ====
section
/-! DEFINITION. PLACE_EXPERTS (R217–R220) and the revision of a placement (R243, R244). -/

namespace Sys2Proof.Machine

/-! The parameter block and the object that a SET makes. -/

/-- OP of a PLACE_EXPERTS. -/
def Ctx.placeOp (c : Ctx) : Nat := c.u 2 1

/-- S of a SET. -/
def Ctx.setS (c : Ctx) : Nat := c.u 0xA 2

/-- E of a SET. -/
def Ctx.setE (c : Ctx) : Nat := c.u 8 2

/-- SLOTS of a SET. -/
def Ctx.setSlots (c : Ctx) : Nat := c.u 6 1

/-- PERIOD after its clamp (R218). -/
def Ctx.setPeriod (c : Ctx) : Nat := clampNat 1 65535 (c.u 4 2)

/-- Whether the fields that fix the layout of a SET are legal (R218). -/
def Ctx.setShapeOk (c : Ctx) : Bool :=
  decide (1 ≤ c.setSlots ∧ c.setSlots ≤ 64 ∧ 1 ≤ c.setE ∧ c.setE ≤ 4096 ∧ 1 ≤ c.setS ∧ c.setS ≤ 1024)

/-- The bytes of the member list and the initial table. -/
def Ctx.initLen (c : Ctx) : Nat := roundUp (2 * c.setS) 64 + 64 * c.setE

/-- The member list and the initial table as an item of the snapshot. -/
def Ctx.placeItems (c : Ctx) : List Item := if c.placeOp = 0 ∧ c.setShapeOk then [⟨9, c.addr 0x18, c.initLen, 64⟩] else []

/-- The members of a SET. -/
def Ctx.setMembers (c : Ctx) : List Nat := (List.range c.setS).map fun i => fieldAt (c.item 9) (2 * i) 2

/-- R and the replicas of the table entries of a SET (Table 9.3). -/
def Ctx.setEntries (c : Ctx) : List (Nat × List Nat) :=
  (List.range c.setE).map fun e =>
    let a := roundUp (2 * c.setS) 64 + 64 * e
    let r := fieldAt (c.item 9) a 1
    (r, (List.range (min r 16)).map fun i => fieldAt (c.item 9) (a + 16 + 2 * i) 2)

/-- Whether the table of a SET is legal (R219). -/
def Ctx.setTableOk (c : Ctx) : Bool :=
  let es := c.setEntries
  let all := es.flatMap (·.2)
  es.all (fun x => decide (1 ≤ x.1 ∧ x.1 ≤ 16)) && all.all (fun g => decide (g < c.setS * c.setSlots))
    && decide ((dedupNat all).length = all.length)

/-- The object that a SET makes (R217, R218). -/
def Ctx.setObj (c : Ctx) : PlaceObj :=
  { members := c.setMembers, src := c.u 0xC 2, e := c.setE, slots := c.setSlots, pmode := c.u 3 1, period := c.setPeriod,
    mirror := c.addr 0x10, slotBase := c.addr 0x20, slotStride := c.u 0x28 8, slotBytes := c.u 0x30 8,
    table := c.setEntries.map (·.2), gen := 0, steps := 0, loads := List.replicate c.setE 0 }

/-- The address of a local slot's region. -/
def PlaceObj.slotAddr (o : PlaceObj) (l : Nat) : Nat := o.slotBase + l * o.slotStride

/-- The bytes of a mirror (Table 9.2). -/
def PlaceObj.mirrorLen (o : PlaceObj) : Nat := 64 + 72 * o.e + roundUp (2 * o.members.length) 64

/-- Whether a STEP revises the placement (R243). -/
def PlaceObj.due (o : PlaceObj) : Bool := o.pmode == 1 && (o.steps + 1) % max 1 o.period == 0

/-- PLACE_EXPERTS (R217, R218). -/
def specPlaceExperts : OpSpec :=
  { code := 0x0505, classes := [.F, .B, .U], len := fun _ => 64, items := Ctx.placeItems,
    remote := fun c => c.placeOp == 0 || (c.placeOp == 1 && c.o.due),
    fails := fun c =>
      let o := c.setObj
      let range := if 64 * c.q ≤ c.objNo then [failAt 4 0 ERR_PARTITION] else []
      failIf (decide (2 < c.placeOp)) 4 1 ERR_DESCRIPTOR
        ++ (if c.placeOp ≠ 0 then c.objFails 0
          else
            range ++ failIf c.obj.isSome 4 0 ERR_DESCRIPTOR ++ failIf (decide (1 < c.u 3 1)) 4 2 ERR_DESCRIPTOR
              ++ failIf (decide (c.setSlots = 0 ∨ 64 < c.setSlots ∨ c.setS * c.setSlots < c.setE ∨ 65535 < c.setS * c.setSlots)) 4 4
                  ERR_DESCRIPTOR
              ++ failIf (decide (c.setE = 0 ∨ 4096 < c.setE)) 4 5 ERR_DESCRIPTOR
              ++ failIf (decide (c.setS = 0 ∨ 1024 < c.setS)) 4 6 ERR_DESCRIPTOR
              ++ failIf (decide (c.setS ≤ c.u 0xC 2)) 4 7 ERR_DESCRIPTOR
              ++ failIf (c.setShapeOk
                  && !(ascends c.setMembers && c.setMembers[o.src]? == some c.s.endpoint && c.setTableOk)) 4 9 ERR_DESCRIPTOR
              ++ (if c.setShapeOk then
                    failIf ((List.range o.slots).any fun l => (regionOf (o.slotAddr l) o.slotBytes).any fun r => !c.regionIn r) 6 10
                      ERR_PARTITION
                  else [])
              ++ failIf (decide (o.slotBase % 64 ≠ 0)) 7 10 ERR_ALIGN ++ failIf (decide (o.slotStride % 64 ≠ 0)) 7 11 ERR_ALIGN
              ++ failIf (decide (o.slotBytes % 64 ≠ 0)) 7 12 ERR_ALIGN
              ++ failIf (decide (o.slotStride < o.slotBytes)) 8 11 ERR_WRITE_ALIAS),
    accs := fun c => if c.placeOp = 0 ∧ c.setShapeOk then accMem 8 true (c.addr 0x10) c.setObj.mirrorLen 64 else [],
    clamps := fun c => if c.placeOp = 0 then clampBit 3 1 65535 (c.u 4 2) else [] }

/-- The bytes of an object's mirror (Tables 9.2, 9.3). -/
def PlaceObj.mirrorBytes (o : PlaceObj) : List Byte :=
  let zeros := fun (n : Nat) => (List.replicate n 0 : List Byte)
  let entry : Nat → List Nat → List Byte := fun e slots =>
    let one := fun (i : Nat) => match slots[i]? with | some g => g | none => (Config.mirrorSpare e i).toNat
    toLe 1 slots.length ++ zeros 15 ++ ((List.range 16).flatMap fun i => toLe 2 (one i)) ++ zeros 16
  let members : List Byte := o.members.flatMap (toLe 2)
  toLe 4 o.gen ++ toLe 4 o.steps ++ toLe 2 o.e ++ toLe 2 o.members.length ++ toLe 2 o.src ++ toLe 1 o.slots ++ toLe 1 o.pmode
    ++ toLe 2 o.period ++ zeros 46 ++ (((List.range o.table.length).zip o.table).flatMap fun x => entry x.1 x.2)
    ++ o.loads.flatMap (toLe 8) ++ members ++ zeros (roundUp members.length 64 - members.length)

/-- The digest by which the members of a SET agree (R218); its input's encoding is the model's (log entry 23). -/
def Ctx.setDigest (c : Ctx) : List Byte :=
  sha3 (toLe 2 c.setS ++ toLe 2 c.setE ++ toLe 1 c.setSlots ++ toLe 1 (c.u 3 1) ++ toLe 2 c.setPeriod ++ (c.item 9).take (2 * c.setS)
    ++ (c.item 9).drop (roundUp (2 * c.setS) 64))

/-- The exchange of a PLACE_EXPERTS. -/
def Ctx.placeKey (c : Ctx) : XKey := if c.placeOp = 0 then ⟨0x0505, c.objNo, 0, 0, 0⟩ else ⟨0x0505, c.objNo, c.o.gen, c.o.steps % 2 ^ 32, 1⟩

/-- The remote part of a PLACE_EXPERTS. -/
def Ctx.placeRemote (c : Ctx) : Remote :=
  let keys := c.setMembers.map fun e => e * 4 + c.p
  if c.placeOp = 0 then { Remote.start keys (c.s.ownKey c.p) 0 with finishedUnits := c.lostRanks keys } else c.objRemote

/-! Holding an object (R220, R243). -/

/-- Whether a packet has taken its snapshot and not completed. -/
def Packet.live (k : Packet) : Bool := k.snap.isSome

/-- Whether another packet of the partition holds an object (R220). -/
def Part.objHeld (pt : Part) (obj : Nat) : Bool :=
  pt.packets.any fun k =>
    decide (0x0501 ≤ k.hdr.opcode ∧ k.hdr.opcode ≤ 0x0504) && k.live
      && (match k.snap with
          | some sn => exchangeObj k.hdr.opcode sn.params == obj
          | none => false)

/-- Whether an effect takes a new table for an object, or leaves it unset. -/
def Effect.closes (obj : Nat) : Effect → Bool
  | .objRevise n _ => n == obj
  | .objUnset n => n == obj
  | _ => false

/-- Whether new packets that name an object hold: a RELEASE of it waits, or a revision of it runs, until the object is as it leaves it (R220,
R243). -/
def Part.objClosed (pt : Part) (obj : Nat) : Bool :=
  pt.packets.any fun k =>
    k.hdr.opcode == 0x0505
      && (k.phase == .refWait || k.phase == .running || (k.phase == .finished && k.res.effects.any (Effect.closes obj)))
      && (match k.snap with
          | some sn => exchangeObj 0x0505 sn.params == obj && fieldAt sn.params 2 1 != 0
          | none => false)

/-! The revision (R243). -/

/-- The expert that takes the next free slot: the largest load by replica, the lowest number first. -/
def reviseBest (load r : List Nat) : Option Nat :=
  (List.range r.length).foldl (fun best e =>
    let l := fun (i : Nat) => load[i]?.getD 0
    let n := fun (i : Nat) => r[i]?.getD 1
    if n e < 16 ∧ 0 < l e then
      match best with
      | none => some e
      | some b => if l b * n e < l e * n b then some e else best
    else best) none

/-- Free slots given out one by one. -/
def reviseCounts (load : List Nat) : Nat → List Nat → List Nat
  | 0, r => r
  | free + 1, r =>
    match reviseBest load r with
    | none => r
    | some b => reviseCounts load free (r.modify b (· + 1))

/-- The lowest global slot that no expert holds. -/
def lowestFree (table : List (List Nat)) (total : Nat) : Nat :=
  let held := table.flatten
  ((List.range total).find? fun g => !held.contains g).getD 0

/-- The new table of a revision over `total` global slots (R243). -/
def revise (load : List Nat) (old : List (List Nat)) (total : Nat) : List (List Nat) :=
  let r := reviseCounts load (total - old.length) (old.map fun _ => 1)
  let kept := (old.zip r).map fun x => x.1.take x.2
  (List.range old.length).foldl (fun t e =>
    (List.range ((r[e]?.getD 0) - (t[e]?.getD []).length)).foldl (fun t _ => t.modify e (· ++ [lowestFree t total])) t) kept

/-- The replicas that a revision adds: expert and global slot. -/
def addedReplicas (old new : List (List Nat)) : List (Nat × Nat) :=
  ((List.range new.length).zip new).flatMap fun x => (x.2.drop ((old[x.1]?.getD []).length)).map fun g => (x.1, g)

/-- The totals of the members' load counts, once all are held. -/
def Ctx.totalLoads (c : Ctx) (ms : List ExchangeMsg) : List Nat :=
  let loads := (ms.filter fun m => m.what == X_LOADS).map (·.data)
  (List.range c.o.e).map fun e => ((c.o.loads[e]?.getD 0) + (loads.map fun d => fieldAt d.bytes (8 * e) 8).sum) % 2 ^ 64

/-- The table of a revision by the totals in the packet's remote part. -/
def Ctx.revised (c : Ctx) (r : Remote) : List (List Nat) :=
  revise (r.vec.map Int.toNat) c.o.table (c.nMembers * c.nSlots)

/-- The local slots that a revision fills. -/
def Ctx.localFills (c : Ctx) (r : Remote) : List Nat :=
  ((addedReplicas c.o.table (c.revised r)).filter fun x => x.2 / max 1 c.nSlots == c.o.src).map fun x => x.2 % max 1 c.nSlots

/-- The version entries whose primary regions begin in a local slot: the offset in the slot, the entry, and its VER. -/
def Ctx.slotEntries (c : Ctx) (l : Nat) : List (Nat × Nat × Nat) :=
  let a := c.o.slotAddr l
  ((c.s.part c.p).validEntries.filter fun e => decide (a ≤ e.2.pri0 ∧ e.2.pri0 < a + c.o.slotBytes)).map fun e =>
    (e.2.pri0 - a, e.1, e.2.ver)

/-- Whether a version entry with a region in a local slot holds references (R244). -/
def Ctx.slotReferenced (c : Ctx) (l : Nat) : Bool :=
  let slot := regionOf (c.o.slotAddr l) c.o.slotBytes
  (c.s.part c.p).validEntries.any fun e =>
    decide (0 < e.2.refCur + e.2.refOld) && (e.2.primary ++ e.2.alternate).any fun x => slot.any (Region.meets x)

/-- What a new replica's slot receives: the bytes of the source slot, then offset and VER of each version entry in it (R244). -/
def Ctx.fillPayload (c : Ctx) (l : Nat) : Payload :=
  let p := payloadOf (c.s.transfer (c.o.slotAddr l) c.o.slotBytes 0)
  { p with bytes := p.bytes ++ (c.slotEntries l).flatMap fun x => toLe 8 x.1 ++ toLe 4 x.2.2 }

/-- The versions that come with a fill. -/
def Ctx.fillVersions (c : Ctx) (l : Nat) (d : Payload) : List Effect :=
  let n := (d.bytes.length - c.o.slotBytes) / 12
  let got := (List.range n).map fun i => (fieldAt d.bytes (c.o.slotBytes + 12 * i) 8, fieldAt d.bytes (c.o.slotBytes + 12 * i + 8) 4)
  (c.slotEntries l).filterMap fun x => (got.find? fun g => g.1 == x.1).map fun g => Effect.versionSet x.2.1 g.2

/-- The writes of a fill. -/
def Ctx.fillWrites (c : Ctx) (l : Nat) (d : Payload) : List Write :=
  coalesce ((List.range (c.o.slotBytes / 64)).map fun i =>
    ⟨c.o.slotAddr l + 64 * i, (d.bytes.drop (64 * i)).take 64, d.bad.contains i⟩)

/-- The fill that a local slot receives, when it is held whole. -/
def fillOf (ms : List ExchangeMsg) (l : Nat) : Option Payload := (ms.find? fun m => m.what == X_FILL && m.slot == l).map (·.data)

/-- Whether a message of a kind is held from every other member. -/
def heardAll (r : Remote) (ms : List ExchangeMsg) (what : Nat) : Bool := r.others.all fun i => ms.any fun m => m.what == what && m.src == i

/-- The next action of a PLACE_EXPERTS that exchanges: a SET whose digests agree or differ; a revision that has the loads, its fills, or
every member's confirmation. -/
def State.placeNext (s : State) (p : Nat) (k : Packet) (c : Ctx) (r : Remote) : Option State :=
  let key := c.placeKey
  let ms := s.held p key
  let stop := fun (code : Nat) => some ((s.endPacket p { k with res := Result.empty } code).dropExchange p key)
  if !r.finishedUnits.isEmpty then stop ERR_PEER_UNREACHABLE
  else if c.placeOp = 0 then
    if ms.any fun m => m.what == X_DIGEST && m.data.bytes != c.setDigest then stop ERR_DESCRIPTOR
    else if heardAll r ms X_DIGEST then
      some ((s.finish p k (WorkOut.of { Result.empty with
        effects := [Effect.objSet c.objNo c.setObj, Effect.objMirror c.objNo] })).dropExchange p key)
    else none
  else
    match r.round with
    | 0 =>
      if heardAll r ms X_LOADS then
        let r1 := { r with vec := (c.totalLoads ms).map Int.ofNat, round := 1 }
        let added := addedReplicas c.o.table (c.revised r1)
        let source := fun (e : Nat) => ((c.o.table[e]?.getD []).headD 0)
        let mine := added.filter fun x => source x.1 / max 1 c.nSlots == c.o.src
        if !(c.localFills r1 ++ mine.map (·.1)).isEmpty && !s.hasSump p then stop ERR_PEER_UNREACHABLE
        else
          let s1 := s.begin p k
            { reads := mine.map fun x => (c.o.slotAddr (source x.1 % max 1 c.nSlots), c.o.slotBytes), writes := [], res := k.res } r1
          (match s1.packet (k.ref p) with
          | none => some s1
          | some k1 =>
            if k1.phase ≠ .running then some (s1.dropExchange p key)
            else
              let (s2, r2) := s1.sendMembers p (k.ref p) r1 (mine.map fun x =>
                (x.2 / max 1 c.nSlots,
                 key.msg r.rank X_FILL (x.2 % max 1 c.nSlots) 0 (c.fillPayload (source x.1 % max 1 c.nSlots))))
              some (s2.setRemote p k1 r2))
      else none
    | 1 =>
      let fills := c.localFills r
      if fills.all fun l => (fillOf ms l).isSome && !c.slotReferenced l then
        let got := fills.filterMap fun l => (fillOf ms l).map fun d => (l, d)
        let res := { k.res with effects := got.flatMap fun x => c.fillVersions x.1 x.2 }
        let s1 := s.begin p k { reads := [], writes := got.flatMap fun x => c.fillWrites x.1 x.2, res := res } { r with round := 2 }
        (match s1.packet (k.ref p) with
        | none => some s1
        | some k1 =>
          if k1.phase ≠ .running then some (s1.dropExchange p key)
          else
            let (s2, r2) := s1.sendMembers p (k.ref p) { r with round := 2 }
              (r.others.map fun i => (i, key.msg r.rank X_DONE 0 0 ⟨[], []⟩))
            some (s2.setRemote p k1 r2))
      else none
    | _ =>
      if heardAll r ms X_DONE then
        let new := c.revised r
        some ((s.finish p k (WorkOut.of { k.res with
          count0 := (c.localFills r).length, count1 := (addedReplicas c.o.table new).length, opflags := 1,
          effects := [Effect.objStep c.objNo, Effect.objRevise c.objNo new] ++ k.res.effects ++ [Effect.objMirror c.objNo] })).dropExchange
            p key)
      else none

/-- A running PLACE_EXPERTS goes on as far as what it holds lets it; `fuel` bounds its actions. -/
def State.placeAdvance : Nat → PacketRef → State → State
  | 0, _, s => s
  | fuel + 1, ref, s =>
    match s.packet ref with
    | none => s
    | some k =>
      match s.ctx ref.part k, k.remote with
      | some c, some r =>
        if k.hdr.opcode ≠ 0x0505 ∨ k.phase ≠ .running ∨ s.fatal then s
        else
          match s.placeNext ref.part k c r with
          | none => s
          | some s1 => State.placeAdvance fuel ref s1
      | _, _ => s

/-- A PLACE_EXPERTS that begins to exchange: its messages leave and it goes on. -/
def State.placeStart (s : State) (p : PacketRef) (k : Packet) (c : Ctx) (r : Remote) (what : Nat) (data : Payload) : State :=
  let s1 := s.begin p.part k (WorkOut.of Result.empty) r
  match s1.packet p with
  | none => s1
  | some k1 =>
    if k1.phase ≠ .running then s1
    else
      let (s2, r2) := s1.sendMembers p.part p r (r.others.map fun i => (i, c.placeKey.msg r.rank what 0 0 data))
      (s2.setRemote p.part k1 r2).placeAdvance 4 p

/-- PLACE_EXPERTS with OP SET runs (R218). -/
def execPlaceExpertsSet (p : PacketRef) (s : State) : Host.Outcome State Fault Refusal :=
  match s.packet p with
  | none => .next s
  | some k =>
    match s.ctx p.part k, k.remote with
    | some c, some r =>
      if k.hdr.opcode = 0x0505 ∧ k.phase = .ready ∧ s.fatal = false ∧ c.placeOp = 0 then
        .next (s.placeStart p k c r X_DIGEST ⟨c.setDigest, []⟩)
      else .next s
    | _, _ => .next s

/-- PLACE_EXPERTS with OP STEP runs (R243): the step count rises, or a revision begins and new packets that name the object hold. A STEP that is due
only by the time it runs meets then what a remote packet meets after validation. -/
def execPlaceExpertsStep (p : PacketRef) (s : State) : Host.Outcome State Fault Refusal :=
  match s.packet p with
  | none => .next s
  | some k =>
    match s.ctx p.part k with
    | some c =>
      if k.hdr.opcode = 0x0505 ∧ k.phase = .ready ∧ s.fatal = false ∧ c.placeOp = 1 then
        let pt := s.part p.part
        if c.o.due then
          if k.remote.isNone ∧ (pt.members.isEmpty ∨ pt.quarantined) then
            .next (s.endPacket p.part k (if pt.members.isEmpty then ERR_PEER_UNREACHABLE else ERR_EPOCH))
          else .next (s.setPacket p.part { k with phase := .refWait, remote := some (k.remote.getD c.placeRemote) })
        else .next (s.finish p.part k (WorkOut.of { Result.empty with effects := [Effect.objStep c.objNo, Effect.objMirror c.objNo] }))
      else .next s
    | none => .next s

/-- A revision goes on (R243): once no other packet holds the object it sends its loads, and once its fills are held and their version
entries hold no references it fills its slots. -/
def execPlacementRevision (p : PacketRef) (s : State) : Host.Outcome State Fault Refusal :=
  match s.packet p with
  | none => .next s
  | some k =>
    match s.ctx p.part k, k.remote with
    | some c, some r =>
      if k.hdr.opcode = 0x0505 ∧ s.fatal = false ∧ c.placeOp = 1 then
        if k.phase = .refWait ∧ (s.part p.part).objHeld c.objNo = false then
          .next (s.placeStart p k c r X_LOADS ⟨c.o.loads.flatMap (toLe 8), []⟩)
        else .next (s.placeAdvance 4 p)
      else .next s
    | _, _ => .next s

/-- PLACE_EXPERTS with OP RELEASE runs (R220): it waits until no other packet holds the object, and leaves it unset. -/
def execPlaceExpertsRelease (p : PacketRef) (s : State) : Host.Outcome State Fault Refusal :=
  match s.packet p with
  | none => .next s
  | some k =>
    match s.ctx p.part k with
    | some c =>
      if k.hdr.opcode = 0x0505 ∧ (k.phase = .ready ∨ k.phase = .refWait) ∧ s.fatal = false ∧ c.placeOp = 2 then
        if (s.part p.part).objHeld c.objNo then .next (s.setPacket p.part { k with phase := .refWait })
        else .next (s.finish p.part k (WorkOut.of { Result.empty with effects := [Effect.objMirror c.objNo, Effect.objUnset c.objNo] }))
      else .next s
    | none => .next s

end Sys2Proof.Machine
end

