-- ==== Sys2Proof/Machine/Snapshots.lean ====
section
/-! DEFINITION. Snapshots, parity groups and recovery (R391–R407). -/

namespace Sys2Proof.Machine

/-! The store (R391, R392). -/

/-- The bytes of a unit of the store. -/
def unitBytes : Nat := 2 ^ 22

/-- The units of a partition's share (R391): 4 TB for each quarter. -/
def storeUnits (q : Nat) : Nat := q * (4 * 10 ^ 12) / unitBytes

/-- The units of an extent. -/
def Extent.units (e : Extent) : Nat := ceilDiv e.len unitBytes

/-- The units of a generation's extents. -/
def Generation.extentUnits (g : Generation) : Nat := (g.extents.map Extent.units).sum

/-- The units that a generation holds. -/
def Generation.held (g : Generation) : Nat :=
  g.extentUnits + (if g.manifest.isEmpty then 0 else 1) + g.parity.length + g.rebuilt.length

/-- The free units of a partition's share. -/
def State.freeUnits (s : State) (p : Nat) : Nat := storeUnits s.quartersPer - ((s.part p).catalogue.map Generation.held).sum

/-- The generation of a number, free entries apart. -/
def Part.generation (pt : Part) (gen : Nat) : Option Generation := pt.catalogue.find? fun g => g.state != .free && g.gen == gen

/-- A partition with one generation changed. -/
def Part.modGen (pt : Part) (gen : Nat) (f : Generation → Generation) : Part :=
  { pt with catalogue := pt.catalogue.map fun g => if g.state != .free && g.gen == gen then f g else g }

/-- GEN of a snapshot packet, by its opcode. -/
def snapGen (opcode : Nat) (b : List Byte) : Nat :=
  match opcode with
  | 0x0801 => fieldAt b 0 4
  | 0x0805 => fieldAt b 8 4
  | _ => fieldAt b 0x10 4

/-- GEN of a packet. -/
def Ctx.gen (c : Ctx) : Nat := snapGen c.pkt.hdr.opcode c.snap.params

/-- The generation that a packet names. -/
def Ctx.genEntry (c : Ctx) : Option Generation := (c.s.part c.p).generation c.gen

/-- Whether a packet other than a given one uses a generation (R395). -/
def Part.genUsed (pt : Part) (gen : Nat) (ring idx : Nat) : Bool :=
  pt.packets.any fun k =>
    decide (0x0802 ≤ k.hdr.opcode ∧ k.hdr.opcode ≤ 0x0806) && !(k.ring == ring && k.idx == idx) && k.live
      && (match k.snap with
          | some sn => snapGen k.hdr.opcode sn.params == gen
          | none => false)

/-- Whether new packets that name a generation hold because a DISCARD of it waits (R395). -/
def Part.genClosed (pt : Part) (gen : Nat) : Bool :=
  pt.packets.any fun k =>
    k.hdr.opcode == 0x0801 && k.phase == .refWait
      && (match k.snap with
          | some sn => fieldAt sn.params 4 1 == 1 && fieldAt sn.params 0 4 == gen
          | none => false)

/-- Whether a SNAP_WRITE of a generation has issued and not completed (R401). -/
def Part.genWriting (pt : Part) (gen : Nat) : Bool :=
  pt.packets.any fun k =>
    k.hdr.opcode == 0x0802 && k.live
      && (match k.snap with
          | some sn => fieldAt sn.params 0x10 4 == gen
          | none => false)

/-! SNAP_BEGIN. -/

/-- The class of the snapshot opcodes. -/
def snapClasses : List StreamClass := [.M]

/-- The conditions under which BEGIN fails (R395). -/
def Part.beginFails (pt : Part) (gen : Nat) : Bool :=
  !(pt.catalogue.any fun g => g.state == .free)
    || pt.catalogue.any fun g => g.state == .opened || g.state == .sealed || g.state == .filling || (g.state != .free && decide (gen ≤ g.gen))

/-- SNAP_BEGIN (R395). -/
def specSnapBegin : OpSpec :=
  { code := 0x0801, classes := snapClasses, len := fun _ => 16,
    fails := fun c =>
      failIf (decide (1 < c.u 4 1)) 4 1 ERR_DESCRIPTOR
        ++ failIf (c.u 4 1 == 0 && (c.s.part c.p).beginFails c.gen) 4 0 ERR_DESCRIPTOR
        ++ failIf (c.u 4 1 == 1 && c.genEntry.isNone) 4 0 ERR_DESCRIPTOR }

/-- The lowest FREE entry taken as OPEN (R395). -/
def Part.openGen (pt : Part) (gen : Nat) (noParity : Bool) : Part :=
  let g := { Generation.free with state := .opened, gen := gen, noParity := noParity }
  { pt with catalogue := pt.catalogue.set (pt.catalogue.findIdx fun x => x.state == .free) g }

/-- SNAP_BEGIN with OP BEGIN runs (R395); an entry that another BEGIN opened since its validation fails it. -/
def execSnapBegin (p : PacketRef) (s : State) : Host.Outcome State Fault Refusal :=
  match s.packet p with
  | none => .next s
  | some k =>
    match s.ctx p.part k with
    | some c =>
      if k.hdr.opcode = 0x0801 ∧ k.phase = .ready ∧ s.fatal = false ∧ c.u 4 1 = 0 then
        if (s.part p.part).beginFails c.gen then
          .next (s.finish p.part k (WorkOut.of { Result.of [ERR_DESCRIPTOR] 0 0 0 with field := 0 }))
        else .next ((s.finish p.part k (WorkOut.of Result.empty)).modPart p.part (·.openGen c.gen ((c.u 5 1).testBit 0)))
      else .next s
    | none => .next s

/-- SNAP_BEGIN with OP DISCARD runs (R395): once no other packet uses the generation, its entry and its units are free. -/
def execSnapDiscard (p : PacketRef) (s : State) : Host.Outcome State Fault Refusal :=
  match s.packet p with
  | none => .next s
  | some k =>
    match s.ctx p.part k with
    | some c =>
      if k.hdr.opcode = 0x0801 ∧ (k.phase = .ready ∨ k.phase = .refWait) ∧ s.fatal = false ∧ c.u 4 1 = 1 then
        if (s.part p.part).genUsed c.gen k.ring k.idx then .next (s.setPacket p.part { k with phase := .refWait })
        else .next ((s.finish p.part k (WorkOut.of Result.empty)).modPart p.part (·.modGen c.gen fun _ => Generation.free))
      else .next s
    | none => .next s

/-! The schedule state (R399), as the model lays it out in an extent (DESIGN CHOICE, log entry 27). -/

/-- A layer entry in a schedule. -/
def Layer.bytes (n : Nat) (l : Layer) : List Byte :=
  toLe 4 n ++ toLe 1 (unsigned 8 l.g) ++ toLe 1 (if l.mode = .auto then 1 else 0) ++ toLe 4 (l.slot.getD 0xFFFFFFFF)
    ++ toLe 1 (if l.scope = .reduced then 1 else 0) ++ toLe 5 l.clean ++ toLe 16 l.totElements ++ toLe 16 l.totSaturations
    ++ toLe 16 l.totUnderflows ++ toLe 16 l.totNonfinite

/-- The bytes of one layer entry of a schedule. -/
def layerBytes : Nat := 80

/-- A placement object in a schedule. -/
def PlaceObj.bytes (n : Nat) (o : PlaceObj) : List Byte :=
  toLe 4 n ++ toLe 4 o.gen ++ toLe 8 o.steps ++ toLe 2 o.e ++ toLe 2 o.members.length ++ toLe 4 o.slots ++ o.loads.flatMap (toLe 8)
    ++ o.table.flatMap fun r => toLe 2 r.length ++ r.flatMap (toLe 2) ++ List.replicate (32 - 2 * r.length) 0

/-- The bytes of the object of a schedule with `e` experts. -/
def objectBytes (e : Nat) : Nat := 24 + 42 * e

/-- The schedule state of a partition (Table 17.4). -/
def Part.schedule (pt : Part) : List Byte :=
  let objs := pt.objects.filterMap fun x => x.2.map fun o => (x.1, o)
  toLe 4 pt.layers.length ++ toLe 4 pt.validEntries.length ++ toLe 4 objs.length ++ toLe 4 0
    ++ (pt.layers.flatMap fun x => x.2.bytes x.1) ++ (pt.validEntries.flatMap fun x => toLe 8 x.2.pri0 ++ toLe 8 x.2.ver)
    ++ objs.flatMap fun x => x.2.bytes x.1

/-- A list of bytes as a sparse table from offset 0. -/
def sparseOf (bs : List Byte) : Tbl Byte := putBytes [] 0 bs

/-- A little-endian field of sparse bytes. -/
def sparseAt (t : Tbl Byte) (off w : Nat) : Nat := leNat ((List.range w).map fun i => Tbl.get 0 t (off + i))

/-- The layers that a schedule holds. -/
def scheduleLayers (t : Tbl Byte) : List (Nat × Layer) :=
  (List.range (sparseAt t 0 4)).map fun i =>
    let f := fun (off w : Nat) => sparseAt t (16 + layerBytes * i + off) w
    (f 0 4,
     { g := signed 8 (f 4 1), mode := if f 5 1 = 1 then .auto else .pinned,
       slot := if f 6 4 = 0xFFFFFFFF then none else some (f 6 4), scope := if f 10 1 = 1 then .reduced else .localScope,
       clean := f 11 5, totElements := f 16 16, totSaturations := f 32 16, totUnderflows := f 48 16, totNonfinite := f 64 16 })

/-- The versions that a schedule holds: PRI0 and VER. -/
def scheduleVersions (t : Tbl Byte) : List (Nat × Nat) :=
  let base := 16 + layerBytes * sparseAt t 0 4
  (List.range (sparseAt t 4 4)).map fun i => (sparseAt t (base + 16 * i) 8, sparseAt t (base + 16 * i + 8) 8)

/-- What a schedule holds of a placement object (Table 17.4). -/
structure SavedObj where
  obj : Nat
  gen : Nat
  steps : Nat
  e : Nat
  s : Nat
  slots : Nat
  loads : List Nat
  table : List (List Nat)
  deriving DecidableEq, Repr

/-- The objects of a schedule from an offset on. -/
def savedObjects (t : Tbl Byte) : Nat → Nat → List SavedObj
  | 0, _ => []
  | n + 1, at_ =>
    let f := fun (off w : Nat) => sparseAt t (at_ + off) w
    let e := f 16 2
    { obj := f 0 4, gen := f 4 4, steps := f 8 8, e := e, s := f 18 2, slots := f 20 4,
      loads := (List.range e).map fun i => f (24 + 8 * i) 8,
      table := (List.range e).map fun i =>
        let a := 24 + 8 * e + 34 * i
        (List.range (f a 2)).map fun j => f (a + 2 + 2 * j) 2 } :: savedObjects t n (at_ + objectBytes e)

/-- The objects that a schedule holds. -/
def scheduleObjects (t : Tbl Byte) : List SavedObj :=
  savedObjects t (sparseAt t 8 4) (16 + layerBytes * sparseAt t 0 4 + 16 * sparseAt t 4 4)

/-- The layer entries of a schedule put back, replacing every entry (Table 17.4). -/
def Part.putLayers (pt : Part) (ls : List (Nat × Layer)) : Part :=
  let cleared := pt.layers.foldl (fun pt x => pt.layerUnbind x.1) pt
  ls.foldl (fun pt x =>
    let pt1 := match x.2.slot with
      | some slot => pt.modWatch slot (·.bind x.1)
      | none => pt
    pt1.setLayer x.1 x.2) cleared

/-- A schedule put back (R404, Table 17.4), with the items that found no target. -/
def Part.putSchedule (pt : Part) (t : Tbl Byte) : Part × Nat :=
  let pt1 := pt.putLayers (scheduleLayers t)
  let (pt2, n2) := (scheduleVersions t).foldl (fun (acc : Part × Nat) x =>
    match acc.1.validEntries.find? fun e => e.2.pri0 == x.1 && e.2.refCur + e.2.refOld == 0 with
    | some e => (acc.1.modVersion e.1 fun v => { v with ver := x.2 }, acc.2)
    | none => (acc.1, acc.2 + 1)) (pt1, 0)
  (scheduleObjects t).foldl (fun (acc : Part × Nat) x =>
    match acc.1.obj x.obj with
    | some o =>
      if o.e = x.e ∧ o.members.length = x.s ∧ o.slots = x.slots ∧ acc.1.objHeld x.obj = false then
        let o1 := { o with gen := x.gen, steps := x.steps, loads := x.loads, table := x.table }
        ({ acc.1 with objects := Tbl.put acc.1.objects x.obj (some o1) }, acc.2)
      else (acc.1, acc.2 + 1)
    | none => (acc.1, acc.2 + 1)) (pt2, n2)

/-! SNAP_WRITE. -/

/-- Whether a SNAP_WRITE writes a schedule. -/
def Ctx.writesSchedule (c : Ctx) : Bool := c.u 0x18 1 == 1

/-- LEN of the extent of a SNAP_WRITE (R398). -/
def Ctx.extentLen (c : Ctx) : Nat :=
  if c.writesSchedule then let n := (c.s.part c.p).schedule.length; n + Config.schedulePad n else c.u 8 8

/-- SNAP_WRITE (R396). -/
def specSnapWrite : OpSpec :=
  { code := 0x0802, classes := snapClasses, len := fun _ => 32,
    fails := fun c =>
      let len := c.u 8 8
      let region := c.u 0x18 1 == 0
      (match c.genEntry with
        | none => [failAt 4 2 ERR_DESCRIPTOR]
        | some g => failIf (g.state != .opened || g.sealedWrites || decide (65535 ≤ g.extents.length)) 4 2 ERR_DESCRIPTOR)
        ++ failIf (decide (1 < c.u 0x18 1)) 4 4 ERR_DESCRIPTOR
        ++ failIf (region && decide (len < 64 ∨ 2 ^ 40 < len)) 4 1 ERR_DESCRIPTOR
        ++ failIf (region && decide (len % 64 ≠ 0)) 7 1 ERR_ALIGN
        ++ failIf (decide (c.s.freeUnits c.p < ceilDiv c.extentLen unitBytes)) 4 1 ERR_DESCRIPTOR,
    accs := fun c => if c.u 0x18 1 = 0 then accMem 0 false (c.addr 0) (c.u 8 8) 64 else [] }

/-- The bytes of an interval of memory that are not zero, by their offset in it. -/
def State.sparse (s : State) (a len : Nat) : Tbl Byte :=
  let plain := (s.mem.filter fun x => decide (a ≤ x.1 ∧ x.1 < a + len)).map fun x => (x.1 - a, x.2)
  (s.faults.flatMap fun f => (List.range (if inSump f.addr then 4 else 16)).map (f.addr + ·)).foldl (fun t x =>
    if a ≤ x ∧ x < a + len then Tbl.set 0 t (x - a) (s.byte x) else t) plain

/-- The units of 4 MiB of an interval in which a byte reads as bad. -/
def State.badUnits (s : State) (a len : Nat) : List Nat :=
  let at_ := s.poison ++ s.faults.map (·.addr)
  (List.range (ceilDiv len unitBytes)).filter fun i =>
    let lo := a + unitBytes * i
    let hi := min (a + len) (lo + unitBytes)
    at_.any (fun x => decide (lo < x + 64 ∧ x < hi)) && s.badIn lo (hi - lo)

/-- What the admission of a snapshot packet does to its generation: a SNAP_WRITE takes its extent number, and a schedule is captured
(R396, R399); a SNAP_PARITY seals the generation against writes (R401). -/
def Ctx.snapAdmit (c : Ctx) (s : State) : State × List Int :=
  if c.pkt.hdr.opcode = 0x0802 then
    let pt := s.part c.p
    let entry := c.snap.versions.head?
    let e : Extent :=
      { etag := c.u 0x14 4, kind := c.u 0x18 1, void := false, entry := if c.writesSchedule then none else entry.map (·.1),
        src := if c.writesSchedule then 0 else c.addr 0, len := c.extentLen,
        ver := if c.writesSchedule then 0 else (entry.map (·.2)).getD 0,
        data := if c.writesSchedule then sparseOf pt.schedule else [], poisonUnits := [], writing := true }
    (s.modPart c.p (·.modGen c.gen fun g => { g with extents := g.extents ++ [e] }),
     [(((c.genEntry.map fun g => g.extents.length).getD 0 : Nat) : Int)])
  else if c.pkt.hdr.opcode = 0x0803 ∨ c.pkt.hdr.opcode = 0x0804 then
    (s.modPart c.p (·.modGen c.gen fun g => { g with sealedWrites := true }), [])
  else (s, [])

/-- An extent of a generation changed. -/
def Part.modExtent (pt : Part) (gen n : Nat) (f : Extent → Extent) : Part :=
  pt.modGen gen fun g => { g with extents := g.extents.modify n f }

/-- What the end of a SNAP_WRITE leaves of its extent (R397): void when the packet ends ABORTED or with an error other than poison. -/
def Part.extentEnd (pt : Part) (k : Packet) : Part :=
  match k.snap, k.work with
  | some sn, n :: _ =>
    if k.hdr.opcode = 0x0802 then
      pt.modExtent (fieldAt sn.params 0x10 4) n.toNat fun e =>
        { e with writing := false,
                 void := e.void || k.aborted || k.codes.any fun x => isError x && x != ERR_POISON && x != ERR_UNCORRECTABLE }
    else pt
  | _, _ => pt

/-- SNAP_WRITE runs (R397). -/
def execSnapWrite (p : PacketRef) (s : State) : Host.Outcome State Fault Refusal :=
  match s.packet p with
  | none => .next s
  | some k =>
    match s.ctx p.part k with
    | some c =>
      if k.hdr.opcode = 0x0802 ∧ k.phase = .ready ∧ s.fatal = false then
        let n := (k.work.headD 0).toNat
        let len := c.extentLen
        let count1 := min (len / 4096) 0xFFFFFFFF
        if c.writesSchedule then
          let l := (c.genEntry.bind fun g => g.extents[n]?).map (·.len)
          .next (s.finish p.part k (WorkOut.of (Result.of [] n (min (l.getD 0 / 4096) 0xFFFFFFFF) 0)))
        else
          let a := c.shift (c.addr 0)
          let bad := s.badUnits a len
          let s1 := s.finish p.part k { reads := [(a, len)], writes := [], res := Result.of [] n count1 0 }
          let data := s.sparse a len
          .next (s1.modPart p.part fun pt =>
            (pt.modExtent c.gen n fun e => { e with data := data, poisonUnits := bad }).modGen c.gen fun g =>
              { g with poisoned := g.poisoned || !bad.isEmpty })
      else .next s
    | none => .next s

/-! Streams and parity (R398, R400). -/

/-- The manifest of a generation (R398). -/
def Generation.manifestBytes (g : Generation) (ghash : Nat) : List Byte :=
  let bit := fun (b : Bool) (n : Nat) => if b then 2 ^ n else 0
  toLe 4 g.gen ++ toLe 4 g.extents.length ++ toLe 8 ghash ++ List.replicate 48 0
    ++ g.extents.flatMap fun e =>
      toLe 4 e.etag ++ toLe 1 e.kind ++ toLe 1 (bit e.void 0 + bit (!e.poisonUnits.isEmpty) 1) ++ toLe 2 (e.entry.getD 0xFFFF)
        ++ toLe 8 e.src ++ toLe 8 e.len ++ toLe 4 e.ver ++ List.replicate 4 0

/-- A unit of stored bytes, sparse, and whether it is poisoned. -/
abbrev StoredUnit := Tbl Byte × Bool

/-- The part of sparse bytes that lies in unit `i`. -/
def sparseUnit (t : Tbl Byte) (i : Nat) : Tbl Byte :=
  (t.filter fun x => decide (x.1 / unitBytes = i)).map fun x => (x.1 % unitBytes, x.2)

/-- Unit `j` of the extents from some extent on; none when they end before. -/
def unitOfExtents : List Extent → Nat → Option StoredUnit
  | [], _ => none
  | e :: es, j => if j < e.units then some (sparseUnit e.data j, e.poisonUnits.contains j) else unitOfExtents es (j - e.units)

/-- Data unit `j` of a generation's stream: its extents, then the manifest (R398); none beyond it. -/
def Generation.dataUnit (g : Generation) (j : Nat) : StoredUnit :=
  match unitOfExtents g.extents j with
  | some u => u
  | none => if j = g.extentUnits then (sparseOf g.manifest, false) else ([], false)

/-- Parity unit `i` of a generation. -/
def Generation.parityUnit (g : Generation) (i : Nat) : StoredUnit := (g.parity.lookup i).getD ([], false)

/-- The stripes of a group whose longest stream has `nmax` units (R400). -/
def stripesOf (g nmax : Nat) : Nat := g * ceilDiv nmax (g - 1)

/-- The unit that rank `m` has in stripe `s`, when it does not hold the stripe's parity (R400). -/
def unitInStripe (g m s : Nat) : Nat := s - (s + g - 1 - m) / g

/-- The place of rank `m` among the ranks that do not hold a stripe (R401). -/
def placeInStripe (holder m : Nat) : Nat := if m < holder then m else m - 1

/-- The XOR of sparse bytes. -/
def xorSparse (a b : Tbl Byte) : Tbl Byte := b.foldl (fun t x => Tbl.set 0 t x.1 (Tbl.get 0 t x.1 ^^^ x.2)) a

/-- A unit as the bytes of a transfer to an address (R401). -/
def StoredUnit.write (u : StoredUnit) (a : Nat) : Write := ⟨a, (List.range unitBytes).map fun i => Tbl.get 0 u.1 i, u.2⟩

/-- The address of unit `i` of landing buffer `b`. -/
def Remote.bufferAt (r : Remote) (perBuffer b i : Nat) : Nat := r.landing + (b * perBuffer + i) * unitBytes

/-- The XOR of the units in a landing buffer, poisoned where one is. -/
def State.xorBuffer (s : State) (a n : Nat) : StoredUnit :=
  ((List.range n).foldl (fun t i => xorSparse t (s.sparse (a + unitBytes * i) unitBytes)) [],
   (List.range n).any fun i => !(s.badUnits (a + unitBytes * i) unitBytes).isEmpty)

/-! SNAP_PARITY. -/

/-- SNAP_PARITY (R401). -/
def specSnapParity : OpSpec :=
  { code := 0x0803, classes := snapClasses, len := fun _ => 32, items := Ctx.headItems, remote := fun _ => true,
    fails := fun c =>
      c.headFails false ++ failIf (decide (c.ranks < 2 ∨ 16 < c.ranks)) 4 2 ERR_DESCRIPTOR
        ++ failIf (match c.genEntry with | some g => g.state != .opened || g.sealedWrites || g.noParity | none => true) 4 4 ERR_DESCRIPTOR,
    buffers := fun c => [⟨2 * (c.ranks - 1) * unitBytes, false⟩] }

/-- The n_m that a SNAP_PARITY holds from another rank: a READY that announces no buffer (R401). -/
def Remote.countOf (r : Remote) (rank : Nat) : Option Nat := (r.ready.find? fun m => m.rank == rank && m.arg0 == 0).map (·.arg1)

/-- The stripes of a SNAP_PARITY, once every rank's n_m is known. -/
def Remote.stripes (r : Remote) (own : Nat) : Option Nat :=
  let ns := (List.range r.keys.length).map fun m => if m = r.rank then some own else r.countOf m
  if ns.all Option.isSome then some (stripesOf r.keys.length ((ns.map (·.getD 0)).foldl max 0)) else none

/-- Bytes sent into a landing buffer that a READY announced (R401). -/
def State.sendBuffer (s : State) (p : Nat) (k : Packet) (r : Remote) (m : ReadyMark) (round : Nat) (w : Write) : State :=
  let r0 := { r with ready := r.ready.filter fun x => !(x.rank == m.rank && x.arg0 == m.arg0 && x.arg1 == m.arg1) }
  let (s1, ids, ok) := s.sendWrites p (k.ref p) (keyEp (r.keys[m.rank]?.getD 0)) m.rank [w]
  let r1 := { r0 with sentTo := r0.sentTo ++ [(m.rank, round)], unacked := r0.unacked ++ ids, sent := r0.sent + 1 }
  if ok then s1.setRemote p k r1 else s1.endPacket p { k with remote := some r1 } ERR_PEER_UNREACHABLE

/-- A unit sent into a landing buffer (R401). -/
def State.sendUnit (s : State) (p : Nat) (k : Packet) (r : Remote) (m : ReadyMark) (place round : Nat) (u : StoredUnit) : State :=
  s.sendBuffer p k r m round (StoredUnit.write u (m.arg0 + place * unitBytes))

/-- A generation that a SNAP_PARITY has sealed (R401). -/
def Generation.sealWith (g : Generation) (ranks rank ghash stripes : Nat) : Generation :=
  { g with state := .sealed, g := ranks, rank := rank, ghash := ghash, stripes := stripes }

/-- The next action of a running SNAP_PARITY: a landing buffer announced, a unit sent, a DONE, or the end (R401). -/
def State.parityNext (s : State) (p : Nat) (k : Packet) (c : Ctx) (r : Remote) : Option State :=
  match c.genEntry with
  | none => some (s.endPacket p k ERR_PEER_UNREACHABLE)
  | some g =>
    match r.stripes g.units with
    | none => none
    | some t =>
      let n := r.keys.length
      let mine := t / n
      if s.freeUnits p + g.parity.length < mine then
        some (s.setPacket p { k with phase := .finished, res := { k.res with codes := k.res.codes ++ [ERR_DESCRIPTOR], field := 0xFF } })
      else if (r.vec.headD 0).toNat < mine ∧ (r.vec.headD 0).toNat < r.round + 2 then
        let i := (r.vec.headD 0).toNat
        let s1 := s.setRemote p k { r with vec := [((i + 1 : Nat) : Int)] }
        some (s1.controlAll p (k.ref p) c.ctag 1 (globalAddr s.endpoint (r.bufferAt (n - 1) (i % 2) 0), i * n + r.rank, 0, 0)
          (r.others.map fun x => (x, (i + 1) % 256)))
      else
        match r.ready.find? fun m => m.arg0 != 0 with
        | some m =>
          some (s.sendUnit p k r m (placeInStripe m.rank r.rank) (m.arg1 / n % 256) (g.dataUnit (unitInStripe n r.rank m.arg1)))
        | none =>
          match r.sentTo.find? fun t => !r.unacked.any fun u => u.1 == t.1 with
          | some t => some (s.sendMark p c k { r with sentTo := r.sentTo.filter (· ≠ t) } 2 t)
          | none =>
            if r.round = mine ∧ r.sent = t - mine ∧ r.sentTo.isEmpty then
              some ((s.modPart p (·.modGen c.gen fun g => g.sealWith n r.rank r.ghash t)).endRunning p k
                (WorkOut.of (Result.of [] mine r.sent 0)))
            else none

/-- A running SNAP_PARITY goes on as far as what it holds lets it; `fuel` bounds its actions. -/
def State.parityAdvance : Nat → PacketRef → State → State
  | 0, _, s => s
  | fuel + 1, ref, s =>
    match s.packet ref with
    | none => s
    | some k =>
      match s.ctx ref.part k, k.remote with
      | some c, some r =>
        if k.hdr.opcode ≠ 0x0803 ∨ k.phase ≠ .running ∨ s.fatal then s
        else
          match s.parityNext ref.part k c r with
          | none => s
          | some s1 => State.parityAdvance fuel ref s1
      | _, _ => s

/-- A generation that is sealed: its manifest is written and its stream has its length (R398). -/
def Generation.close (g : Generation) (ghash : Nat) : Generation :=
  { g with manifest := g.manifestBytes ghash, units := g.extentUnits + 1, sealedWrites := true }

/-- SNAP_PARITY runs (R401): it writes the manifest and tells every other rank its n_m. -/
def execSnapParity (p : PacketRef) (s : State) : Host.Outcome State Fault Refusal :=
  match s.packet p with
  | none => .next s
  | some k =>
    match s.ctx p.part k, k.remote with
    | some c, some r =>
      if k.hdr.opcode = 0x0803 ∧ k.phase = .ready ∧ s.fatal = false then
        let s1 := (s.begin p.part k (WorkOut.of Result.empty) { r with vec := [0] }).modPart p.part
          (·.modGen c.gen fun g => g.close r.ghash)
        let n := (((s1.part p.part).generation c.gen).map (·.units)).getD 0
        let s2 := s1.controlAll p.part p c.ctag 1 (0, n, 0, 0) (r.others.map fun x => (x, 0))
        .next (s2.parityAdvance (advanceFuel (8 * r.keys.length)) p)
      else .next s
    | _, _ => .next s

/-- The hold of a SNAP_PARITY ends once no SNAP_WRITE of its generation is under way (R401). The packet then issues afresh. -/
def Ctx.parityHolds (c : Ctx) : Bool := (c.s.part c.p).genWriting c.gen

/-- With every DONE for a landing buffer, the holder writes one parity unit (R401). -/
def execParityUnitXor (p : PacketRef) (unit : Nat) (s : State) : Host.Outcome State Fault Refusal :=
  match s.packet p with
  | none => .next s
  | some k =>
    match s.ctx p.part k, k.remote with
    | some c, some r =>
      let n := r.keys.length
      let from_ := r.others.map fun x => (x, unit % 256)
      if k.hdr.opcode = 0x0803 ∧ k.phase = .running ∧ s.fatal = false ∧ unit = r.round ∧ (unit : Int) < r.vec.headD 0
          ∧ (from_.all fun t => r.done.contains t) = true then
        let a := r.bufferAt (n - 1) (unit % 2) 0
        let u := s.xorBuffer a (n - 1)
        let r1 := { r with round := unit + 1, done := r.done.filter fun t => !from_.contains t }
        let s1 := s.begin p.part k { reads := [(a, (n - 1) * unitBytes)], writes := [], res := k.res } r1
        let s2 := s1.modPart p.part (·.modGen c.gen fun g =>
          { g with parity := g.parity ++ [(unit, u)], poisoned := g.poisoned || u.2 })
        .next (s2.parityAdvance (advanceFuel (8 * n)) p)
      else .next s
    | _, _ => .next s

/-! SNAP_COMMIT. -/

/-- SNAP_COMMIT (R402). -/
def specSnapCommit : OpSpec :=
  { code := 0x0804, classes := snapClasses, len := fun _ => 32, items := Ctx.headItems,
    remote := fun c => !((c.genEntry.map (·.noParity)).getD false),
    fails := fun c =>
      c.headFails false
        ++ (match c.genEntry with
            | none => [failAt 4 4 ERR_DESCRIPTOR]
            | some g =>
              if g.noParity then failIf (c.ranks != 1) 4 2 ERR_DESCRIPTOR ++ failIf (g.state != .opened) 4 4 ERR_DESCRIPTOR
              else failIf (g.state != .sealed) 4 4 ERR_DESCRIPTOR
                ++ failIf (g.state == .sealed && c.ranks != g.g) 4 2 ERR_DESCRIPTOR
                ++ failIf (g.state == .sealed && c.ghash != g.ghash) 4 0 ERR_DESCRIPTOR) }

/-- SNAP_COMMIT runs (R402): a NOPARITY generation is sealed and committed here; any other sends its DONEs. -/
def execSnapCommit (p : PacketRef) (s : State) : Host.Outcome State Fault Refusal :=
  match s.packet p with
  | none => .next s
  | some k =>
    match s.ctx p.part k with
    | some c =>
      if k.hdr.opcode = 0x0804 ∧ k.phase = .ready ∧ s.fatal = false then
        match c.genEntry with
        | none => .next s
        | some g =>
          if g.noParity then
            if s.freeUnits p.part = 0 then
              .next (s.finish p.part k (WorkOut.of { Result.of [ERR_DESCRIPTOR] 0 0 0 with field := 0xFF }))
            else
              .next ((s.finish p.part k (WorkOut.of Result.empty)).modPart p.part
                (·.modGen c.gen fun g => { g.close c.ghash with state := .committed, ghash := c.ghash }))
          else
            match k.remote with
            | some r => .next ((s.begin p.part k (WorkOut.of Result.empty) r).advance (advanceFuel r.keys.length) p)
            | none => .next s
      else .next s
    | none => .next s

/-! RESTORE. -/

/-- The extents of the generation that a RESTORE names. -/
def Ctx.restoreExtents (c : Ctx) : List Extent := (c.genEntry.map (·.extents)).getD []

/-- COUNT after its clamp (R403). -/
def Ctx.restoreCount (c : Ctx) : Nat := clampNat 1 (c.restoreExtents.length - c.u 0xC 4) (c.u 0x10 4)

/-- The extents that a RESTORE takes with their destinations (R403); void ones included. -/
def Ctx.restoreList (c : Ctx) : List (Extent × Nat) :=
  let es := (c.restoreExtents.drop (c.u 0xC 4)).take c.restoreCount
  ((List.range es.length).zip es).map fun (i, e) =>
    let d := if c.addr 0 = 0 then 0 else fieldAt (c.item 0) (8 * i) 8
    (e, if d = 0 then e.src else d)

/-- Whether an extent goes back into the version entry it came from (R404). -/
def ownEntry (x : Extent × Nat) : Bool := x.1.kind == 0 && x.1.entry.isSome && x.2 == x.1.src

/-- The REGION extents of a RESTORE that are not void. -/
def Ctx.restoreRegions (c : Ctx) : List (Extent × Nat) := c.restoreList.filter fun x => !x.1.void && x.1.kind == 0

/-- RESTORE (R403). -/
def specRestore : OpSpec :=
  { code := 0x0805, classes := snapClasses, len := fun _ => 32,
    items := fun c => if c.addr 0 = 0 then [] else [⟨0, c.addr 0, 8 * c.restoreCount, 64⟩],
    fails := fun c =>
      let live := (c.s.part c.p).packets.any fun k => k.cls == .F || k.cls == .B || k.cls == .U || k.cls == .C
      let regs := c.restoreRegions
      let own := (regs.filter ownEntry).flatMap fun x => regionOf x.2 x.1.len
      let all := regs.flatMap fun x => regionOf x.2 x.1.len
      failIf (match c.genEntry with | some g => g.state != .committed | none => true) 4 1 ERR_DESCRIPTOR
        ++ failIf (decide (c.restoreExtents.length ≤ c.u 0xC 4)) 4 2 ERR_DESCRIPTOR
        ++ failIf (live && c.restoreList.any fun x => !x.1.void && x.1.kind == 1) 4 2 ERR_DESCRIPTOR
        ++ failIf (own.any fun r => !c.regionIn r) 6 0 ERR_PARTITION
        ++ failIf (((List.range all.length).zip all).any fun (i, r) => (all.drop (i + 1)).any (Region.meets r)) 8 0 ERR_WRITE_ALIAS,
    accs := fun c => (c.restoreRegions.filter fun x => !ownEntry x).flatMap fun x => accMem 0 true x.2 x.1.len 64,
    clamps := fun c => clampBit 3 1 (c.restoreExtents.length - c.u 0xC 4) (c.u 0x10 4) }

/-- The entries on whose references a RESTORE waits (R404). -/
def Ctx.restoreEntries (c : Ctx) : List Nat := dedupNat ((c.restoreRegions.filter ownEntry).filterMap fun x => x.1.entry)

/-- Whether one of them holds references. -/
def Ctx.restoreWaits (c : Ctx) : Bool :=
  c.restoreEntries.any fun e => let v := (c.s.part c.p).version e; decide (0 < v.refCur + v.refOld)

/-- Sparse bytes of an extent as writes at an address: the bytes that are not zero over zeros, unit by unit with their poison. -/
def Extent.writes (e : Extent) (a : Nat) : List Write :=
  (List.range e.units).map fun i =>
    let u := sparseUnit e.data i
    let n := min unitBytes (e.len - unitBytes * i)
    ⟨a + unitBytes * i, (List.range n).map fun j => Tbl.get 0 u j, e.poisonUnits.contains i⟩

/-- The schedules that a RESTORE applies (Table 17.4), of the extents that are not void. -/
def Ctx.restorePlans (c : Ctx) : List (Tbl Byte) := (c.restoreList.filter fun x => !x.1.void && x.1.kind == 1).map (·.1.data)

/-- A partition with those schedules applied, and the number of items skipped (R404). -/
def Ctx.restoreApplied (c : Ctx) (pt : Part) : Part × Nat :=
  c.restorePlans.foldl (fun (acc : Part × Nat) t => ((acc.1.putSchedule t).1, acc.2 + (acc.1.putSchedule t).2)) (pt, 0)

/-- The work of a RESTORE (R404): its regions written to their places, with the counts and flags. -/
def Ctx.restoreWork (c : Ctx) (pt : Part) (skipped : Nat) : WorkOut :=
  let regs := c.restoreRegions
  let place := fun (x : Extent × Nat) =>
    if ownEntry x then (pt.version (x.1.entry.getD 0)).shift x.1.ver x.2 else c.shift x.2
  let voids := c.restoreList.any (·.1.void)
  let bad := regs.any fun x => !x.1.poisonUnits.isEmpty
  { reads := [], writes := regs.flatMap fun x => x.1.writes (place x),
    res := { Result.of (if bad then [ERR_POISON] else []) (c.restoreList.filter fun x => !x.1.void).length skipped
        ((if skipped = 0 then 0 else 1) + if voids then 2 else 0) with
      effects := (regs.filter ownEntry).map fun x => Effect.versionSet (x.1.entry.getD 0) x.1.ver } }

/-- RESTORE runs (R404). -/
def execRestoreGen (p : PacketRef) (s : State) : Host.Outcome State Fault Refusal :=
  match s.packet p with
  | none => .next s
  | some k =>
    match s.ctx p.part k with
    | some c =>
      if k.hdr.opcode = 0x0805 ∧ k.phase = .ready ∧ s.fatal = false then
        if c.restoreWaits then .next (s.setPacket p.part { k with phase := .refWait })
        else
          let r := c.restoreApplied (s.part p.part)
          let s1 := if c.restorePlans.isEmpty then s else s.modPart p.part fun _ => r.1
          .next (s1.finish p.part k (c.restoreWork (s.part p.part) r.2))
      else .next s
    | none => .next s

/-- A RESTORE goes on once its entries hold no references (R404). -/
def execRestoreEntryWaitEnd (p : PacketRef) (s : State) : Host.Outcome State Fault Refusal :=
  match s.packet p with
  | none => .next s
  | some k =>
    match s.ctx p.part k with
    | some c =>
      if k.hdr.opcode = 0x0805 ∧ k.phase = .refWait ∧ s.fatal = false ∧ c.restoreWaits = false then
        .next (s.setPacket p.part { k with phase := .ready })
      else .next s
    | none => .next s

/-! REBUILD. -/

/-- LOST_RANK and NSPARE of a REBUILD. -/
def Ctx.lostRank (c : Ctx) : Nat := c.u 0x14 2

/-- NSPARE. -/
def Ctx.nSpare (c : Ctx) : Nat := c.u 0x16 1

/-- The spares of a REBUILD as keys. -/
def Ctx.spareKeys (c : Ctx) : List Nat := (List.range (min 4 c.nSpare)).map fun i => groupKey (fieldAt (c.item 7) (4 * i) 4)

/-- Whether this partition is one of the spares. -/
def Ctx.isSpare (c : Ctx) : Bool := !c.groupKeys.contains (c.s.ownKey c.p) && c.spareKeys.contains (c.s.ownKey c.p)

/-- REBUILD (R405). -/
def specRebuild : OpSpec :=
  { code := 0x0806, classes := snapClasses, len := fun _ => 32, remote := fun _ => true,
    items := fun c => c.headItems ++ [⟨7, c.addr 0x18, 4 * min 4 c.nSpare, 64⟩],
    fails := fun c =>
      let pt := c.s.part c.p
      let own := c.s.ownKey c.p
      let keys := c.groupKeys
      let ok := decide (1 ≤ c.ranks ∧ c.ranks ≤ 32768)
      let live := (List.range keys.length).all fun i => i == c.lostRank || pt.members.contains (keyEp (keys[i]?.getD 0))
      failIf (!ok) 4 2 ERR_DESCRIPTOR
        ++ (if ok then
              failIf (!(ascends keys && c.groupWords.all groupClean && live && (decide (keys.count own = 1) || c.isSpare))) 4 0
                ERR_DESCRIPTOR
            else [])
        ++ failIf c.tagTaken 4 1 ERR_DESCRIPTOR
        ++ failIf (decide (c.ranks ≤ c.lostRank)) 4 5 ERR_DESCRIPTOR ++ failIf (decide (c.nSpare = 0 ∨ 4 < c.nSpare)) 4 6 ERR_DESCRIPTOR
        ++ failIf (c.spareKeys.any fun k => !pt.members.contains (keyEp k)) 4 7 ERR_DESCRIPTOR
        ++ (if c.isSpare then failIf (!pt.catalogue.any fun g => g.state == .free) 4 7 ERR_DESCRIPTOR
            else
              match c.genEntry with
              | some g => failIf (g.state != .committed) 4 4 ERR_DESCRIPTOR
                  ++ failIf (g.state == .committed && g.ghash != c.ghash) 4 0 ERR_DESCRIPTOR
              | none => [failAt 4 4 ERR_DESCRIPTOR]),
    buffers := fun c => if c.isSpare then [⟨2 * (c.ranks - 1) * unitBytes, false⟩] else [] }

/-- The remote part of a REBUILD: the group's keys, then the spares'. A spare's rank stands after the group's. -/
def Ctx.rebuildRemote (c : Ctx) : Remote :=
  { Remote.start (c.groupKeys ++ c.spareKeys) (c.s.ownKey c.p) c.ghash with
    vec := [-1, 0], finishedUnits := (c.lostRanks (c.groupKeys ++ c.spareKeys)).filter (c.ranks ≤ ·) }

/-- The spare that is being filled, by its rank among the keys, once chosen. -/
def Remote.chosen (r : Remote) : Option Nat := match r.vec with | x :: _ => if x < 0 then none else some x.toNat | [] => none

/-- The survivors of a REBUILD. -/
def Ctx.survivors (c : Ctx) : List Nat := (List.range c.ranks).filter (· ≠ c.lostRank)

/-- The coordinator (R406). -/
def Ctx.coordinator (c : Ctx) : Nat := c.survivors.headD 0

/-- The spares as ranks among the keys. -/
def Ctx.spareRanks (c : Ctx) : List Nat := (List.range c.spareKeys.length).map (c.ranks + ·)

/-- A message by which a spare tells the coordinator that it has taken its snapshot (DESIGN CHOICE, log entry 26). -/
def Ctx.announced (c : Ctx) (r : Remote) (rank : Nat) : Bool := r.ready.any fun m => m.rank == rank && m.arg0 == 0 && decide (c.ranks ≤ rank)

/-- The entry that a chosen spare takes as FILLING (R406). -/
def Part.fillGen (pt : Part) (gen g stripes ghash rank : Nat) : Part :=
  let e := { Generation.free with state := .filling, gen := gen, g := g, stripes := stripes, ghash := ghash, rank := rank }
  { pt with catalogue := pt.catalogue.set (pt.catalogue.findIdx fun x => x.state == .free) e }

/-- The generation that a spare has filled (R406): the rebuilt units make its stream, whose last unit that is not zero is the manifest. -/
def Generation.fromUnits (g : Generation) : Generation :=
  let data := g.rebuilt
  let last := (data.filter fun x => !x.2.1.isEmpty).foldl (fun m x => max m x.1) 0
  let man := ((data.lookup last).getD ([], false)).1
  let n := sparseAt man 4 4
  let es : List Extent := (List.range n).map fun i =>
    let f := fun (off w : Nat) => sparseAt man (64 + 32 * i + off) w
    { etag := f 0 4, kind := f 4 1, void := (f 5 1).testBit 0, entry := if f 6 2 = 0xFFFF then none else some (f 6 2), src := f 8 8,
      len := f 16 8, ver := f 24 4, data := [], poisonUnits := [], writing := false }
  let starts := (List.range n).map fun i => ((es.take i).map Extent.units).sum
  let filled := (es.zip starts).map fun (e, st) =>
    let us := (List.range e.units).map fun i => (i, (data.lookup (st + i)).getD ([], false))
    { e with data := us.flatMap fun (i, u) => u.1.map fun x => (unitBytes * i + x.1, x.2),
             poisonUnits := us.filterMap fun (i, u) => if u.2 then some i else none }
  { g with state := .committed, extents := filled, manifest := (List.range (64 + 32 * n)).map fun i => Tbl.get 0 man i,
           units := last + 1, rebuilt := [], sealedWrites := true }

/-- A spare's FILLING entry freed (R407). -/
def Part.dropFilling (pt : Part) (gen : Nat) : Part :=
  { pt with catalogue := pt.catalogue.map fun g => if g.state = .filling ∧ g.gen = gen then Generation.free else g }

/-- What a survivor sends for a stripe (R406): its data unit, or its parity unit where it holds the stripe. -/
def Generation.stripeUnit (g : Generation) (s : Nat) : StoredUnit :=
  if s % max 1 g.g = g.rank then g.parityUnit (s / max 1 g.g) else g.dataUnit (unitInStripe g.g g.rank s)

/-- The next action of a running REBUILD (R406). -/
def State.rebuildNext (s : State) (p : Nat) (k : Packet) (c : Ctx) (r : Remote) : Option State :=
  let n := c.ranks
  if c.isSpare then
    match r.chosen with
    | none =>
      (match r.ready.find? fun m => m.rank == c.coordinator with
      | some m =>
        let who := n + c.spareKeys.idxOf m.arg0
        let s1 := if who = r.rank then s.modPart p (·.fillGen c.gen n m.arg1 r.ghash c.lostRank) else s
        some (s1.setRemote p k { r with vec := [(who : Int), 0, (m.arg1 : Int)], round := 0, restarts := m.arg2, done := [], doneTo := [],
                                        ready := r.ready.filter fun x => !(x.rank == m.rank) })
      | none => none)
    | some who =>
      if who ≠ r.rank then
        match r.ready.find? fun m => m.rank == c.coordinator with
        | some _ => some (s.setRemote p k { r with vec := [-1, 0] })
        | none =>
          if r.done.any fun t => t.1 == who then some (s.endRunning p k (WorkOut.of (Result.of [] 0 r.restarts 2))) else none
      else
        let t := (r.vec[2]?.getD 0).toNat
        let i := (r.vec[1]?.getD 0).toNat
        if i < t ∧ i < r.round + 2 then
          let s1 := s.setRemote p k { r with vec := [(who : Int), ((i + 1 : Nat) : Int), (t : Int)] }
          some (s1.controlAll p (k.ref p) c.ctag 1 (globalAddr s.endpoint (r.bufferAt (n - 1) (i % 2) 0), i, 0, 0)
            (c.survivors.map fun x => (x, i % 256)))
        else if r.round = t then
          match (c.survivors ++ c.spareRanks.filter (· ≠ r.rank)).find? fun x => !r.doneTo.contains (x, 0) with
          | some x => some (s.sendMark p c k r 2 (x, 0))
          | none =>
            let bad := match (s.part p).generation c.gen with | some g => g.poisoned | none => false
            some ((s.modPart p (·.modGen c.gen Generation.fromUnits)).endRunning p k
              (WorkOut.of (Result.of (if bad then [ERR_POISON] else []) t r.restarts 0)))
        else none
  else
    match c.genEntry with
    | none => some (s.endPacket p k ERR_PEER_UNREACHABLE)
    | some g =>
      match r.chosen with
      | none =>
        if r.rank = c.coordinator then
          match c.spareRanks.find? fun x => c.announced r x && !r.finishedUnits.contains x with
          | some x =>
            let s1 := s.setRemote p k { r with vec := [(x : Int), 0] }
            some (s1.controlAll p (k.ref p) c.ctag 1 (r.keys[x]?.getD 0, g.stripes, r.restarts, 0)
              ((c.survivors.filter (· ≠ r.rank) ++ c.spareRanks).map fun y => (y, 0)))
          | none => none
        else
          match r.ready.find? fun m => m.rank == c.coordinator with
          | some m =>
            some (s.setRemote p k { r with vec := [((n + c.spareKeys.idxOf m.arg0 : Nat) : Int), 0], restarts := m.arg2,
                                           ready := r.ready.filter fun x => !(x.rank == m.rank) })
          | none => none
      | some who =>
        if r.rank ≠ c.coordinator ∧ r.ready.any (fun m => m.rank == c.coordinator) then some (s.setRemote p k { r with vec := [-1, 0] })
        else if r.done.any fun t => t.1 == who then
          some (s.endRunning p k (WorkOut.of (Result.of (if g.poisoned then [ERR_POISON] else []) g.stripes r.restarts 0)))
        else
          match r.ready.find? fun m => m.rank == who && m.arg0 != 0 with
          | some m => some (s.sendUnit p k r m (placeInStripe c.lostRank r.rank) (m.arg1 % 256) (g.stripeUnit m.arg1))
          | none =>
            match r.sentTo.find? fun t => !r.unacked.any fun u => u.1 == t.1 with
            | some t => some (s.sendMark p c k { r with sentTo := r.sentTo.filter (· ≠ t) } 2 t)
            | none => none

/-- A running REBUILD goes on as far as what it holds lets it; `fuel` bounds its actions. -/
def State.rebuildAdvance : Nat → PacketRef → State → State
  | 0, _, s => s
  | fuel + 1, ref, s =>
    match s.packet ref with
    | none => s
    | some k =>
      match s.ctx ref.part k, k.remote with
      | some c, some r =>
        if k.hdr.opcode ≠ 0x0806 ∨ k.phase ≠ .running ∨ s.fatal then s
        else
          match s.rebuildNext ref.part k c r with
          | none => s
          | some s1 => State.rebuildAdvance fuel ref s1
      | _, _ => s

/-- REBUILD runs (R406): a spare tells the coordinator that it is there (log entry 26). -/
def execRebuild (p : PacketRef) (s : State) : Host.Outcome State Fault Refusal :=
  match s.packet p with
  | none => .next s
  | some k =>
    match s.ctx p.part k, k.remote with
    | some c, some r =>
      if k.hdr.opcode = 0x0806 ∧ k.phase = .ready ∧ s.fatal = false then
        let s1 := s.begin p.part k (WorkOut.of Result.empty) r
        let s2 := if c.isSpare then s1.controlAll p.part p c.ctag 1 (0, 0, 0, 0) [(c.coordinator, 0)] else s1
        .next (s2.rebuildAdvance (advanceFuel (8 * r.keys.length)) p)
      else .next s
    | _, _ => .next s

/-- With every unit of a stripe landed, the spare forms the lost unit or parity unit and stores it (R406). -/
def execRebuildStripe (p : PacketRef) (stripe : Nat) (s : State) : Host.Outcome State Fault Refusal :=
  match s.packet p with
  | none => .next s
  | some k =>
    match s.ctx p.part k, k.remote with
    | some c, some r =>
      let n := c.ranks
      let from_ := c.survivors.map fun x => (x, stripe % 256)
      if k.hdr.opcode = 0x0806 ∧ k.phase = .running ∧ s.fatal = false ∧ c.isSpare = true ∧ r.chosen = some r.rank ∧ stripe = r.round
          ∧ (stripe : Int) < r.vec[1]?.getD 0 ∧ (from_.all fun t => r.done.contains t) = true then
        let a := r.bufferAt (n - 1) (stripe % 2) 0
        let u := s.xorBuffer a (n - 1)
        let r1 := { r with round := stripe + 1, done := r.done.filter fun t => !from_.contains t }
        let s1 := s.begin p.part k { reads := [(a, (n - 1) * unitBytes)], writes := [], res := k.res } r1
        let s2 := s1.modPart p.part (·.modGen c.gen fun g =>
          let g1 := { g with poisoned := g.poisoned || u.2 }
          if stripe % n = c.lostRank then { g1 with parity := g1.parity ++ [(stripe / n, u)] }
          else { g1 with rebuilt := g1.rebuilt ++ [(unitInStripe n c.lostRank stripe, u)] })
        .next (s2.rebuildAdvance (advanceFuel (8 * n)) p)
      else .next s
    | _, _ => .next s

end Sys2Proof.Machine
end

