-- ==== Sys2Proof/Machine/Peers.lean ====
section
/-! DEFINITION. What remote packets await from their peers, how they end when a peer fails (R235, R338, R339, R407), heartbeats, and the
limits on waiting. -/

namespace Sys2Proof.Machine

/-! What a running packet awaits. -/

/-- Whether a member of an exchange still owes a running packet a message. -/
def Ctx.owes (c : Ctx) (r : Remote) (σ : Nat) : Bool :=
  if σ = r.rank ∨ r.finishedUnits.contains σ then false
  else
    match c.pkt.hdr.opcode with
    | 0x0501 => !((c.s.held c.p c.routeKey).any fun m => m.what == X_COUNT && m.src == σ)
    | 0x0502 =>
      let ms := c.s.held c.p c.waveKey
      !((match headerOf ms σ with
          | some h => (List.range c.nSlots).all fun l => decide (min c.quota (h.count l) ≤ (c.segment ms l σ).length)
          | none => false)
        && (!c.lastWave || ms.any fun m => m.what == X_TOTALS && m.src == σ))
    | 0x0503 =>
      let rows := rowsOf (c.s.held c.p c.waveKey)
      (c.waveRecs c.wave).any fun x => x.2.gslot / max 1 c.nSlots == σ && !rows.any fun m => c.returnedTo m == some x.1
    | 0x0504 =>
      let rows := rowsOf (c.s.held c.p c.waveKey)
      (List.range c.nSlots).any fun l =>
        decide ((rows.filter fun m => m.slot == l && m.src == σ && (c.bwdPlace r m).isSome).length < c.segRows r l σ)
    | 0x0505 =>
      let ms := c.s.held c.p c.placeKey
      let heard := fun (what : Nat) => ms.any fun m => m.what == what && m.src == σ
      if c.placeOp = 0 then !heard X_DIGEST
      else if r.round = 0 then !heard X_LOADS
      else !heard X_DONE
    | _ => false

/-- The ranks from which a running packet awaits a message (R331, R339). -/
def Ctx.awaits (c : Ctx) (r : Remote) : List Nat :=
  let n := r.keys.length
  match c.pkt.hdr.opcode with
  | 0x0606 => if r.round < rounds n ∧ !r.arrive.contains (r.fromRank r.round, r.round) then [r.fromRank r.round] else []
  | 0x0803 => r.others
  | 0x0B02 => if r.round < 3 then [1 - r.rank] else []
  | 0x0806 => (List.range n).filter fun i => i != r.rank && i != c.lostRank
  | op =>
    if namesObject op then (List.range n).filter (c.owes r)
    else
      dedupNat (((c.sources r).filter fun t => !r.done.contains t).map (·.1)
        ++ (if op = 0x0804 then [] else ((c.targets r).filter fun t => !r.sentTo.contains t && (r.readyOf t.1).isNone).map (·.1))
        ++ r.unacked.map (·.1))

/-- Whether a remote packet that has taken its snapshot has yet to run. -/
def Packet.toRun (k : Packet) : Bool :=
  match k.phase with
  | .ready | .poolWait | .turnWait | .refWait | .held .poolResize => true
  | _ => false

/-- The ranks from which a packet awaits a message once it has taken its snapshot (R331): an exchange that has yet to run awaits every other member,
but for a wave that does not run (R231). -/
def Ctx.awaitsNow (c : Ctx) (r : Remote) : List Nat :=
  let op := c.pkt.hdr.opcode
  if c.pkt.phase = .running then c.awaits r
  else if c.pkt.toRun = false then []
  else if namesObject op then
    if 0x0502 ≤ op ∧ op ≤ 0x0504 ∧ c.waveCount ≤ c.wave then [] else r.others.filter fun i => !r.finishedUnits.contains i
  else c.awaits r

/-- The endpoints from which a packet awaits a message. -/
def State.awaited (s : State) (p : Nat) (k : Packet) : List Nat :=
  match s.ctx p k, k.remote with
  | some c, some r => (c.awaitsNow r).map fun i => keyEp (r.keys[i]?.getD 0)
  | _, _ => []

/-! How a packet goes on. -/

/-- A running remote packet goes on after a message or an acknowledgement, by its opcode. -/
def State.goOn (s : State) (ref : PacketRef) : State :=
  match s.packet ref with
  | none => s
  | some k =>
    match s.ctx ref.part k, k.remote with
    | some c, some r =>
      if k.phase ≠ .running ∨ s.fatal then s
      else
        let fuel := advanceFuel (8 * r.keys.length)
        match k.hdr.opcode with
        | 0x0501 => (s.routeNext ref.part k c r).getD s
        | 0x0502 => s
        | 0x0503 => (s.combineNext ref.part k c r).getD s
        | 0x0504 => (s.combineBwdNext ref.part k c r).getD s
        | 0x0505 => s.placeAdvance 4 ref
        | 0x0803 => s.parityAdvance fuel ref
        | 0x0806 => s.rebuildAdvance fuel ref
        | 0x0B02 => s.keyAdvance 8 ref
        | _ => s.advance fuel ref
    | _, _ => s

/-! How a packet ends (Tables 9.8, 14.5, 17.5). -/

/-- A remote packet ends with a status: a running exchange with what has landed (R235), a REBUILD's spare without its entry (R407). -/
def State.endFailed (s : State) (p : Nat) (k : Packet) (code : Nat) : State :=
  match s.ctx p k, k.remote with
  | some c, some r =>
    match k.hdr.opcode with
    | 0x0502 => if k.toRun then s.endPacket p k code else s.compact p k c r [code]
    | 0x0503 => if k.toRun then s.endPacket p k code else s.combineEnd p k c r [code]
    | 0x0504 => if k.toRun then s.endPacket p k code else s.combineBwdEnd p k c r [code]
    | 0x0501 => (s.endPacket p { k with res := k.res.kept } code).dropExchange p c.routeKey
    | 0x0505 => (s.endPacket p { k with res := Result.empty } code).dropExchange p c.placeKey
    | 0x0806 => (s.endPacket p k code).modPart p fun pt => if c.isSpare then pt.dropFilling c.gen else pt
    | _ => s.endPacket p k code
  | _, _ => s

/-- A REBUILD that loses a rank of its keys (R407): the chosen spare is replaced while another remains; the loss of another rank of the
group ends it. -/
def State.rebuildLost (s : State) (p : Nat) (k : Packet) (c : Ctx) (r : Remote) (rank : Nat) : State :=
  if rank < c.ranks then s.endFailed p k ERR_GROUP_DOUBLE_LOSS
  else
    let gone := setIns r.finishedUnits rank
    let left := c.spareRanks.any fun x => !gone.contains x
    let r1 := { r with finishedUnits := gone }
    if !left then s.endFailed p { k with remote := some r1 } ERR_PEER_UNREACHABLE
    else if r.chosen = some rank then
      let r2 := { r1 with vec := [-1, 0], restarts := r.restarts + 1, round := 0, done := [], doneTo := [], sentTo := [], unacked := [],
                          ready := r.ready.filter fun m => m.rank != rank }
      (s.setRemote p k r2).rebuildAdvance (advanceFuel (8 * r.keys.length)) (k.ref p)
    else s.setRemote p k r1

/-- A packet that awaits a message from a lost endpoint ends (R338, Table 9.8): the lost member's segments are empty. An exchange that has yet to run
gives the member up. -/
def State.endLost (s : State) (p ep : Nat) (k : Packet) : State :=
  match s.ctx p k, k.remote with
  | some c, some r =>
    let rank := r.keys.findIdx fun key => keyEp key == ep
    let r1 := { r with finishedUnits := setIns r.finishedUnits rank }
    let op := k.hdr.opcode
    if namesObject op && k.toRun then s.setRemote p k r1
    else
      match op with
      | 0x0502 => s.compact p { k with remote := some r1 } c r1 []
      | 0x0503 => s.combineEnd p { k with remote := some r1 } c r1 []
      | 0x0504 => s.combineBwdEnd p { k with remote := some r1 } c r1 []
      | 0x0806 => s.rebuildLost p k c r rank
      | _ => s.endFailed p k ERR_PEER_UNREACHABLE
  | _, _ => s

/-- An endpoint is lost to a partition (R338): it is known as lost until an EPOCH_SET or a HEARTBEAT of its own (DEDUCED, log entry 99), and every packet
that awaits a message from it ends. -/
def State.loseEndpoint (s : State) (p ep : Nat) : State :=
  let s1 := if ep = s.endpoint then s else s.modPart p fun pt => { pt with lost := setIns pt.lost ep }
  (((s1.part p).packets.filter fun k => (s1.awaited p k).contains ep).map (·.ref p)).foldl (fun s ref =>
    match s.packet ref with
    | some k => if (s.awaited p k).contains ep then s.endLost p ep k else s
    | none => s) s1

/-- Every packet of a partition that awaits a message from a peer ends with a status (R334, R335). -/
def State.endAwaiting (s : State) (p code : Nat) : State × Nat :=
  let refs := ((s.part p).packets.filter fun k => !(s.awaited p k).isEmpty).map (·.ref p)
  (refs.foldl (fun s ref =>
    match s.packet ref with
    | some k => if (s.awaited p k).isEmpty then s else s.endFailed p k code
    | none => s) s, refs.length)

/-! Heartbeats (R337, R338). -/

/-- The cycles of MCLK in a ms. -/
def msCycles : Nat := 500000

/-- The members that stand `n` places after an endpoint in the membership, counting cyclically; its own is left out. -/
def neighbours (members : List Nat) (own : Nat) (back : Bool) : List Nat :=
  let n := members.length
  let i := members.idxOf own
  dedupNat (((List.range (min 4 (n - 1))).map fun j =>
    members[(if back then i + n - 1 - j else i + 1 + j) % max 1 n]?.getD own).filter (· ≠ own))

/-- A control message of the firmware's own. -/
def firmwareControl (kind dstPart part arg0 arg1 : Nat) : Control := ⟨kind, dstPart, part, 0, 0, 0, 0, 0, arg0, arg1, 0, 0⟩

/-- A quarter of HB_TIME has passed: HEARTBEAT goes to the four members that follow (R338). A partition whose membership is empty sends
nothing. -/
def execHeartbeatTimer (part : Nat) (s : State) : Host.Outcome State Fault Refusal :=
  let pt := s.part part
  if s.isPart part = false ∨ pt.members.isEmpty = true ∨ s.fatal = true then .next s
  else
    .next ((neighbours pt.members s.endpoint false).foldl (fun s ep =>
      (s.sendControl part none ep (firmwareControl 4 part part 0 0)).1) s)

/-- A watched endpoint that has been silent for HB_TIME is lost (R338): a record, LOST to every member, and the packets that await it
end. -/
def execPeerLost (part : Nat) (endpoint : Nat) (s : State) : Host.Outcome State Fault Refusal :=
  let pt := s.part part
  let silent := decide (Tbl.get 0 pt.heartbeats endpoint + pt.hbTime * msCycles ≤ s.mclk)
  if s.isPart part = false ∨ pt.members.isEmpty = true ∨ s.fatal = true ∨ silent = false
      ∨ (neighbours pt.members s.endpoint true).contains endpoint = false then .next s
  else
    let s1 := s.log part (mkEvent 0x47 endpoint 0)
    let s2 := (pt.members.filter (· ≠ s.endpoint)).foldl (fun s ep =>
      (s.sendControl part none ep (firmwareControl 6 part part endpoint 0)).1) s1
    .next ((s2.setSummary part 6).loseEndpoint part endpoint)

/-- A header of an exchange that has not arrived within the heartbeat time ends the exchange with ERR_TIMEOUT (R235). -/
def execExchangeTimeout (p : PacketRef) (member : Nat) (s : State) : Host.Outcome State Fault Refusal :=
  match s.packet p with
  | none => .next s
  | some k =>
    match s.ctx p.part k, k.remote with
    | some c, some r =>
      if namesObject k.hdr.opcode = true ∧ k.phase = .running ∧ s.fatal = false ∧ c.owes r member = true
          ∧ member < r.keys.length ∧ c.snap.time + (s.part p.part).hbTime * msCycles ≤ s.mclk then
        .next (s.endFailed p.part k ERR_TIMEOUT)
      else .next s
    | _, _ => .next s

/-- A message awaited from a live rank beyond COLL_LIMIT ends the packet with ERR_TIMEOUT (R339); a limit of 0 is none. -/
def execCollTimeout (p : PacketRef) (rank : Nat) (s : State) : Host.Outcome State Fault Refusal :=
  match s.packet p with
  | none => .next s
  | some k =>
    match s.ctx p.part k, k.remote with
    | some c, some r =>
      let limit := (s.part p.part).collLimit
      if namesObject k.hdr.opcode = false ∧ k.phase = .running ∧ s.fatal = false ∧ (c.awaits r).contains rank = true ∧ limit ≠ 0
          ∧ c.snap.time + limit * msCycles ≤ s.mclk then
        .next (s.endFailed p.part k ERR_TIMEOUT)
      else .next s
    | _, _ => .next s

end Sys2Proof.Machine
end

