-- ==== Sys2Proof/Machine/Records.lean ====
section
/-! DEFINITION. Completion records and signals (R28, R40), notifications (R324, R325), and the outbound side of the bounce queues (R434,
R437, R438). -/

namespace Sys2Proof.Machine

/-! Notifications (R324, R325). -/

/-- An MSI-X vector of a function: its address, its data, and whether it is masked; masked at reset (PRESUMED, log entry 29). -/
def State.msixEntry (s : State) (fn vector : Nat) : Word × BitVec 32 × Bool := Tbl.get (0, 0, true) s.msixTable (fn * 64 + vector)

/-- A vector raised: one message, or one pending bit while it is masked. -/
def State.raiseMsix (s : State) (fn vector : Nat) : State :=
  let e := s.msixEntry fn vector
  if e.2.2 then { s with msixPending := if s.msixPending.contains (fn, vector) then s.msixPending else s.msixPending ++ [(fn, vector)] }
  else s.emit (.msix fn vector e.1 e.2.1)

/-- Whether this module is the bridge of its group: BRIDGE_EP names it and its X ports run PCIe (R325, R441). -/
def State.isBridge (s : State) : Bool := s.board.bridgeEp == some s.endpoint && !s.board.xLanug

/-- A packet's notification: raised here on the bridge, sent to it from another member, and without effect where there is none. -/
def State.notify (s : State) (p ring : Nat) : State :=
  if s.isBridge then s.raiseMsix p (1 + ring % 63)
  else
    match s.board.bridgeEp with
    | none => s
    | some ep => if ep = s.endpoint then s else (s.sendControl p none ep ⟨7, 0, p, 0, 0, 0, 0, 0, ring, 0, 0, 0⟩).1

/-! Outbound bounce records (Table 19.7). -/

/-- A bounce queue of a partition. -/
def Part.queue (pt : Part) (q : Nat) : BounceQueue := Tbl.get BounceQueue.zero pt.bounce q

/-- A change of one bounce queue. -/
def State.modQueue (s : State) (p q : Nat) (f : BounceQueue → BounceQueue) : State :=
  s.modPart p fun pt => { pt with bounce := Tbl.set BounceQueue.zero pt.bounce q (f (pt.queue q)) }

/-- Bytes 0x000–0x01F of a bounce record. -/
def bounceHead (seq addr len kind queue ring tag : Nat) : List Byte :=
  toLe 8 seq ++ toLe 8 addr ++ toLe 4 len ++ toLe 1 kind ++ toLe 1 queue ++ toLe 2 ring ++ toLe 4 tag ++ toLe 4 0

/-- The nonce of a bounce record (R434). -/
def bounceNonce (salt queue seq : Nat) : List Byte := nonce96 (salt ^^^ queue) seq

/-- Whether the outbound ring has room for a record (R437). -/
def BounceQueue.room (b : BounceQueue) : Bool := b.bound && decide ((b.outProd + 2 ^ 32 - b.outCons) % 2 ^ 32 < 2 ^ b.log2)

/-- One outbound record sealed and written to host memory (R434, R437); the completion head of the ring it reports advances. -/
def State.bounceWrite (s : State) (p q : Nat) (o : BounceOut) : State :=
  let b := (s.part p).queue q
  let h := (s.part p).host
  let head := bounceHead b.outSeq o.addr o.data.length o.kind q o.ring o.tag
  let sealed := gcmSeal h.keyOut (bounceNonce h.salt q b.outSeq) head o.data
  let bytes : List Byte := head ++ sealed.1 ++ List.replicate (4032 - o.data.length) 0 ++ List.replicate 16 0 ++ sealed.2
  let s1 := (s.modQueue p q fun b => { b with outProd := (b.outProd + 1) % 2 ^ 32, outSeq := b.outSeq + 1 }).emit
    (.hostWrite p (b.outBus + 4096 * (b.outProd % 2 ^ b.log2)) bytes)
  match o.cq with
  | some r => s1.modRing p r fun x => { x with cqHead := (x.cqHead + 1) % 2 ^ 32 }
  | none => s1

/-- The records that wait in a queue, written while there is room; `fuel` bounds their number. -/
def State.bouncePump : Nat → Nat → Nat → State → State
  | 0, _, _, s => s
  | fuel + 1, p, q, s =>
    let b := (s.part p).queue q
    match b.waiting with
    | [] => s
    | o :: rest =>
      if b.room then State.bouncePump fuel p q ((s.modQueue p q fun b => { b with waiting := rest }).bounceWrite p q o) else s

/-- An outbound record handed to a queue: it is written after those that wait before it. -/
def State.bouncePut (s : State) (p q : Nat) (o : BounceOut) : State :=
  let s1 := s.modQueue p q fun b => { b with waiting := b.waiting ++ [o] }
  State.bouncePump ((s1.part p).queue q).waiting.length p q s1

/-- The bound queues that a ring serves or on which a TAIL record has named it (R437). -/
def Part.queuesOf (pt : Part) (ring : Nat) : List Nat :=
  (pt.bounce.filter fun e => e.2.bound && (e.2.ring == ring || e.2.named.contains ring)).map (·.1)

/-- The COMPLETION records of a completion record: on every queue of its ring; the ring's completion head follows the first (R437). -/
def State.bounceCompletion (s : State) (p ring addr : Nat) (record : List Byte) : State :=
  let qs := (s.part p).queuesOf ring
  ((List.range qs.length).zip qs).foldl (fun s x =>
    s.bouncePut p x.2 ⟨1, addr, ring, 0, record ++ List.replicate 32 0, if x.1 = 0 then some ring else none⟩) s

/-! Records and signals. -/

/-- Whether a completion queue has room for a record (R28). -/
def Ring.cqRoom (r : Ring) : Bool :=
  match r.binding with
  | some b => decide ((r.cqTail + 2 ^ 32 - r.cqHead) % 2 ^ 32 < 2 ^ b.cqLog2)
  | none => false

/-- The completion record of a packet written at the completion tail, which advances (R25, R28). -/
def State.writeRecord (s : State) (p : Nat) (k : Packet) (b : Binding) : State :=
  let i := ((s.part p).ring k.ring).cqTail
  let a := b.cqBase + 32 * (i % 2 ^ b.cqLog2)
  let bytes := k.record i b.cqLog2
  let s1 := if s.reachable a 32 then s.store ⟨a, bytes, false⟩ else s
  (s1.modRing p k.ring fun r => { r with cqTail := (i + 1) % 2 ^ 32 }).bounceCompletion p k.ring a bytes

/-- Whether a packet's ring stops at its end (R40): it was bound with HALT_ON_ERROR and the packet ends with an error. A ring bound without
HALT_ON_ERROR goes on after a packet whose SIG_CTR fails R33 (DESIGN CHOICE, log entry 92: R40 says of a case that the ring stops, and two
cases stand before it). -/
def Part.halts (pt : Part) (k : Packet) : Bool :=
  (match (pt.ring k.ring).binding with | some b => b.haltOnError | none => false) && isError k.status && !k.aborted

/-- Whether a packet signals (R40). -/
def State.signals (s : State) (p : Nat) (k : Packet) : Bool :=
  k.hdr.flag 3 && !k.aborted && decide (k.hdr.sigCtr < 4096 * s.quartersPer) && !(s.part p).halts k

/-- An event counter raised (R39). -/
def Part.raiseCounter (pt : Part) (n inc : Nat) : Part :=
  { pt with counters := Tbl.set 0 pt.counters n (satAdd (2 ^ 64 - 1) (Tbl.get 0 pt.counters n) inc) }

/-- The end of a packet after its record or in place of it (R32, R40): its notification, its signal, and it has completed. -/
def State.leave (s : State) (p : Nat) (k : Packet) : State :=
  let s1 := if k.hdr.flag 5 then s.notify p k.ring else s
  let s2 := if s.signals p k then s1.modPart p (·.raiseCounter k.hdr.sigCtr (clampNat 1 0xFFFFFFFF k.hdr.sigInc)) else s1
  s2.modPart p fun pt => { pt with packets := pt.packets.filter fun x => !(x.ring == k.ring && x.idx == k.idx) }

/-- The packets of a ring whose records a full completion queue holds, in the order in which they finished, as long as there is room
(R28); `fuel` bounds their number. -/
def State.flushRing : Nat → Nat → Nat → State → State
  | 0, _, _, s => s
  | fuel + 1, p, ring, s =>
    let r := (s.part p).ring ring
    match (s.part p).packets.find? (fun k => k.ring == ring && k.phase == .recordHeld), r.binding with
    | some k, some b => if r.cqRoom then State.flushRing fuel p ring ((s.writeRecord p k b).leave p k) else s
    | _, _ => s

/-- The held records of one ring that can be written. -/
def State.flush (s : State) (p ring : Nat) : State := State.flushRing (s.part p).packets.length p ring s

/-- The held records of every ring that can be written. -/
def State.flushAll (s : State) (p : Nat) : State :=
  (dedupNat (((s.part p).packets.filter fun k => k.phase == .recordHeld).map (·.ring))).foldl (fun s r => s.flush p r) s

/-- The steps 2 and 3 of R40 for a packet whose step 1 is done: no record where NO_CQ suppresses it, else the record, or the packet is held
behind those that wait already. -/
def State.record (s : State) (p : Nat) (k : Packet) : State :=
  if k.hdr.flag 6 && !isError k.status then s.leave p k
  else
    let others := (s.part p).packets.filter fun x => !(x.ring == k.ring && x.idx == k.idx)
    (s.modPart p fun pt => { pt with packets := others ++ [{ k with phase := .recordHeld }] }).flush p k.ring

/-! The stopping of a ring (R27, R40). -/

/-- The window and the bit of a ring's doorbell (R26, R379). -/
def ringWindow (p ring : Nat) : Nat × Nat := (p + ring / 64, ring % 64)

/-- A bit of one of the three maps of the error-summary block set, with its SUMMARY bit: 0 DB_REJECT, 1 SEQ_STOP, 2 HALT_STOP (R380). -/
def State.markRing (s : State) (map w k : Nat) : State :=
  let m : Word := BitVec.ofNat 64 (2 ^ k)
  (s.modWindow w fun x =>
    match map with
    | 0 => { x with dbReject := x.dbReject ||| m }
    | 1 => { x with seqStop := x.seqStop ||| m }
    | _ => { x with haltStop := x.haltStop ||| m }).modWindow w (·.setSummary map)

/-- A ring stops fetching until its next doorbell write, and the error summary records it. -/
def State.stopRing (s : State) (map p ring : Nat) : State :=
  (s.modRing p ring fun r => { r with stopped := true }).markRing map (ringWindow p ring).1 (ringWindow p ring).2

end Sys2Proof.Machine
end

