-- ==== Sys2Proof/Machine/Complete.lean ====
section
/-! DEFINITION. What a finished packet makes visible at its completion (R40), and how it leaves; and how a packet is aborted (R51, R203,
R255). -/

namespace Sys2Proof.Machine

/-! Step 1 of R40. -/

/-- The references of a packet released (R203): those held until completion, and its queued ones as well when `queued`. -/
def Part.releaseRefs (pt : Part) (refs : List VRef) : Part :=
  refs.foldl (fun pt r =>
    pt.modVersion r.entry fun v =>
      if r.ver = v.ver then { v with refCur := v.refCur - 1 } else { v with refOld := v.refOld - 1 }) pt

/-- A packet leaves the turns of the entries on which it stands (R206). -/
def Part.leaveTurns (pt : Part) (ring idx : Nat) : Part :=
  (pt.versions.filter fun e => e.2.turns.contains (ring, idx)).foldl (fun pt e =>
    pt.modVersion e.1 fun v => { v with turns := v.turns.filter (· ≠ (ring, idx)) }) pt

/-- The mirror of a set object written (R217). -/
def State.putMirror (s : State) (p obj : Nat) : State :=
  match (s.part p).obj obj with
  | some o => if s.reachable o.mirror o.mirrorLen then s.store ⟨o.mirror, o.mirrorBytes, false⟩ else s
  | none => s

/-- A change of a set object. -/
def State.modObj (s : State) (p obj : Nat) (f : PlaceObj → PlaceObj) : State :=
  s.modPart p fun pt =>
    match pt.obj obj with
    | some o => { pt with objects := Tbl.put pt.objects obj (some (f o)) }
    | none => pt

/-- EPOCH_SET takes effect (R335): the packets that await a message end, and the job state is set in the same action. Only a JOIN clears
QUARANTINED (R334): an ADVANCE finds it clear at its validation, and does not clear one that came after. The loss timers of the new membership
start, with no endpoint lost (R338). -/
def State.setEpoch (s : State) (p epoch : Nat) (members : List Nat) (join : Bool) : State × Nat :=
  let (s1, n) := s.endAwaiting p ERR_PEER_UNREACHABLE
  (s1.modPart p fun pt =>
    { pt with epoch := epoch, members := members, quarantined := pt.quarantined && !join, early := [], lost := [],
              heartbeats := (members.filter fun m => s.mclk ≠ 0 && m != s.endpoint).map fun m => (m, s.mclk) }, n)

/-- A PSTATE_REQ takes effect at its CONFIG_SET's completion (R460). -/
def State.requestPState (s : State) (p v : Nat) : State :=
  s.modPart p fun pt =>
    { pt with
      pstateReq := v,
      pstate :=
        match v, pt.pstate with
        | 0, .entering _ => .active
        | 0, x => x
        | n, .active => .entering n
        | n, .entering _ => .entering n
        | _, x => x }

/-- One effect of a packet at its completion, with what it reports. -/
def State.applyEffect (p : Nat) (k : Packet) (acc : State × Result) (e : Effect) : State × Result :=
  let (s, res) := acc
  let part := fun (f : Part → Part) => (s.modPart p f, res)
  match e with
  | .gangForm g ms => part fun pt => { pt with gangs := Tbl.put pt.gangs g ms }
  | .gangDissolve g => part fun pt => { pt with gangs := pt.gangs.erase g }
  | .emulate ring on => (s.modRing p ring fun r => { r with c3 := on }, res)
  | .layerSet n g mode slot scope => part fun pt => pt.layerSet n g mode slot scope
  | .layerUnbind n => part fun pt => pt.layerUnbind n
  | .retireArray _ | .retireSlice _ | .reinstateArray _ | .reinstateSlice _ =>
    let (s1, c0, c1, fl) := s.retireEffect e k.ring
    (s1, { res with count0 := c0, count1 := c1, opflags := res.opflags + fl })
  | .versionUp n => part fun pt => pt.modVersion n fun v => { v with ver := (v.ver + 1) % 2 ^ 32, refOld := v.refOld + v.refCur, refCur := 0 }
  | .versionSet n ver => part fun pt => pt.modVersion n fun v =>
      if v.ver = ver then v else { v with ver := ver, refOld := v.refOld + v.refCur, refCur := 0 }
  | .layerPolicy n => if k.codes.any isError then (s, res) else part fun pt => pt.layerPolicy n
  | .objSet n o => part fun pt => { pt with objects := Tbl.put pt.objects n (some o) }
  | .objUnset n => part fun pt => { pt with objects := pt.objects.erase n }
  | .objLoads n adds => (s.modObj p n fun o => { o with loads := (o.loads.zip adds).map fun x => (x.1 + x.2) % 2 ^ 64 }, res)
  | .objMirror n => (s.putMirror p n, res)
  | .objStep n => (s.modObj p n fun o => { o with steps := (o.steps + 1) % 2 ^ 32 }, res)
  | .objRevise n t => (s.modObj p n fun o => { o with table := t, gen := (o.gen + 1) % 2 ^ 32, loads := List.replicate o.e 0 }, res)
  | .unstage op obj gen xtag => part fun pt => pt.unstage op obj gen xtag
  | .epochSet epoch members join => let (s1, n) := s.setEpoch p epoch members join; (s1, { res with count0 := n })
  | .poolSize item v => part fun pt =>
      match item with
      | 0 => { pt with sliceReserve := v }
      | 1 => { pt with hbmPool := v }
      | _ => { pt with sumpPool := v }
  | .pstate v => (s.requestPState p v, res)
  | .layerTotals n el sat unf nf => part fun pt =>
      let l := pt.layer n
      pt.setLayer n { l with totElements := l.totElements + el, totSaturations := l.totSaturations + sat,
                             totUnderflows := l.totUnderflows + unf, totNonfinite := l.totNonfinite + nf }

/-- A shape slot that a packet produced (R42): the value, or the slot's CAP with a clamp. -/
def Part.produce (pt : Part) (n v : Nat) : Part × Bool :=
  let cap := (Tbl.get (0xFFFFFFFF, 0) pt.shapes n).1
  ({ pt with shapes := Tbl.set (0xFFFFFFFF, 0) pt.shapes n (cap, min v cap) }, decide (cap < v))

/-- The spill records of a packet given up. -/
def Part.dropSpills (pt : Part) (k : Packet) : Part :=
  { pt with spilled := pt.spilled.filter fun x => !(x.2.ring == k.ring && x.2.idx == k.idx) }

/-- What a packet holds is given back: its references, its turns, its pool reservation and spill records, and a SNAP_WRITE's extent. -/
def State.release (s : State) (p : Nat) (k : Packet) : State :=
  s.modPart p fun pt =>
    ((((pt.releaseRefs (k.refs.filter fun r => !r.queued)).leaveTurns k.ring k.idx).extentEnd k).dropSpills k).setPacket
      { k with refs := k.refs.filter (·.queued), pool := [] }

/-- Step 1 of R40: the packet's counts, shape values, late writes and settings become visible, with what its record says of them, the clip flag of
R142 among it.
TERN_INVALID saturates at 2^64 − 1 (DESIGN CHOICE, log entry 95). -/
def State.makeVisible (s : State) (p : Nat) (k : Packet) : State × Packet :=
  let up := k.res.late.all fun w => s.reachable w.addr w.bytes.length
  let s1 := if up then s.storeAll k.res.late else s
  let s2 := s1.modPart p fun pt =>
    let pt1 := k.res.watch.foldl (fun pt d => pt.modWatch d.slot (·.add d)) pt
    { pt1 with ternInvalid := satAdd (2 ^ 64 - 1) pt1.ternInvalid k.res.ternInvalid, clips := satAdd (2 ^ 64 - 1) pt1.clips k.res.clipped }
  let (pt3, capped) := k.res.slots.foldl (fun (acc : Part × Bool) x =>
    let (pt, c) := acc.1.produce x.1 x.2
    (pt, acc.2 || c)) (s2.part p, false)
  let s3 := s2.modPart p fun _ => pt3
  let k1 := if capped then { k with res := { k.res with clamps := k.res.clamps ++ [30] } } else k
  let (s4, res) := k1.res.effects.foldl (State.applyEffect p k1) (s3, k1.res)
  let k2 := { k1 with res := { res with effects := [], opflags := if res.clipped = 0 then res.opflags else res.opflags ||| 128 } }
  (s4, k2)

/-- A finished packet completes (R40). An aborted one makes nothing visible (R88) and has given back what it held. -/
def State.complete (s : State) (p : Nat) (k : Packet) : State :=
  let (s1, k1) := if k.aborted then (s, k) else s.makeVisible p k
  let s2 := s1.release p k1
  let k2 := { k1 with refs := k1.refs.filter (·.queued), pool := [] }
  let s3 := if (s2.part p).halts k2 then s2.stopRing 2 p k2.ring else s2
  s3.record p k2

/-! Aborts (R51, R203, R255). -/

/-- A packet is removed: it is finished and will complete with ABORTED, and everything it holds is released at once, its queued references
as well; the extent of a SNAP_WRITE becomes void (R397). A packet past step 1 of R40 keeps its outcome. -/
def State.abort (s : State) (p : Nat) (k : Packet) : State :=
  if k.phase = .recordHeld then s
  else
    let k1 := { k with phase := .finished, aborted := true, res := Result.empty, pool := [], refs := [] }
    (s.modPart p fun pt =>
      let pt1 := k.refs.foldl (fun pt r =>
        if r.queued then
          pt.modVersion r.entry fun v =>
            let key := ((k.ring * 2 ^ 32 + k.idx) * 2 ^ 32) + r.ver
            { v with queues := Tbl.set [] v.queues k.hdr.ctx ((Tbl.get [] v.queues k.hdr.ctx).filter (· ≠ key)) }
        else pt) pt
      let pt2 := (((pt1.releaseRefs k.refs).leaveTurns k.ring k.idx).extentEnd k1).setPacket k1
      match pt2.pendingLayout with
      | some l => if l.ring = k.ring ∧ l.idx = k.idx then { pt2 with pendingLayout := none } else pt2
      | none => pt2)

/-- The packets of a partition that satisfy a condition, aborted; each stops at its next revocation point. -/
def State.abortWhere (s : State) (p : Nat) (f : Packet → Bool) : State :=
  ((s.part p).packets.filter f).foldl (fun s k => s.abort p k) s

/-- The packets that were aborted complete, in the order of the partition's list. -/
def State.completeAborted (s : State) (p : Nat) : State :=
  ((s.part p).packets.filter fun k => k.aborted && k.phase == .finished).foldl (fun s k => s.complete p k) s

end Sys2Proof.Machine
end

