-- ==== Sys2Proof/Machine/Bounce.lean ====
section
/-! DEFINITION. BOUNCE_SET (Table 19.6) and the inbound side of the bounce queues (R434–R438). -/

namespace Sys2Proof.Machine

/-- OP of a BOUNCE_SET. -/
def Ctx.bounceOp (c : Ctx) : Nat := c.u 0 1

/-- QUEUE. -/
def Ctx.bounceQueue (c : Ctx) : Nat := c.u 1 1

/-- LEN of a SEND after its clamps. -/
def Ctx.sendLen (c : Ctx) : Nat := clampNat 64 (2 ^ 24) (c.u 0x20 4) / 64 * 64

/-- BOUNCE_SET (Table 19.6); a SEND on a queue that is not bound fails with ERR_DESCRIPTOR (DEDUCED, log entry 30). -/
def specBounceSet : OpSpec :=
  { code := 0x0B03, classes := [.S], len := fun _ => 48,
    fails := fun c =>
      let op := c.bounceOp
      let pt := c.s.part c.p
      let q := pt.queue c.bounceQueue
      failIf (decide (2 < op)) 4 0 ERR_DESCRIPTOR ++ failIf (decide (15 < c.bounceQueue)) 4 1 ERR_DESCRIPTOR
        ++ failIf ((op == 0 && q.bound) || (op == 2 && !q.bound)) 4 1 ERR_DESCRIPTOR
        ++ (if op = 0 then
              failOpt (ringStatus c.q (c.u 2 2)) 4 2
                ++ failIf (pt.bounce.any fun e => e.2.bound && e.2.ring == c.u 2 2 && e.1 != c.bounceQueue) 4 2 ERR_DESCRIPTOR
                ++ failIf (decide (c.u 8 8 % 4096 ≠ 0)) 7 4 ERR_ALIGN ++ failIf (decide (c.u 0x10 8 % 4096 ≠ 0)) 7 5 ERR_ALIGN
            else []),
    accs := fun c => if c.bounceOp = 2 then accMem 6 false (c.addr 0x18) c.sendLen 64 else [],
    clamps := fun c =>
      if c.bounceOp = 0 then clampBit 3 4 12 (c.u 4 1)
      else if c.bounceOp = 2 ∧ c.sendLen ≠ c.u 0x20 4 then [7] else [] }

/-! BIND and UNBIND. -/

/-- A queue bound: its indexes, counters and waiting records stand (R438). -/
def Ctx.bindQueue (c : Ctx) (s : State) : State :=
  s.modQueue c.p c.bounceQueue fun b =>
    { b with bound := true, ring := c.u 2 2, log2 := clampNat 4 12 (c.u 4 1), inBus := c.u 8 8, outBus := c.u 0x10 8,
             stopped := false, named := [] }

/-- BIND runs (R435, R438). -/
def execBounceBind (p : PacketRef) (s : State) : Host.Outcome State Fault Refusal :=
  .next ((runThen 0x0B03 (fun c => c.bounceOp == 0) (fun _ => WorkOut.of Result.empty) (fun c s =>
    let s1 := c.bindQueue s
    (State.bouncePump ((s1.part c.p).queue c.bounceQueue).waiting.length c.p c.bounceQueue s1).flushAll c.p) p s))

/-- UNBIND runs: indexes and counters stay (R438). -/
def execBounceUnbind (p : PacketRef) (s : State) : Host.Outcome State Fault Refusal :=
  .next (runThen 0x0B03 (fun c => c.bounceOp == 1) (fun _ => WorkOut.of Result.empty)
    (fun c s => s.modQueue c.p c.bounceQueue fun b => { b with bound := false, named := [] }) p s)

/-! SEND. -/

/-- The DATA records of a SEND from an offset on, as far as there is room behind the records that wait already (R437); a source that
cannot be read ends it before the record (DESIGN CHOICE, log entry 30). `fuel` bounds the records. -/
def State.sendRecords : Nat → PacketRef → State → State
  | 0, _, s => s
  | fuel + 1, ref, s =>
    match s.packet ref with
    | none => s
    | some k =>
      match s.ctx ref.part k with
      | none => s
      | some c =>
        let off := (k.work.headD 0).toNat
        let q := (s.part ref.part).queue c.bounceQueue
        if k.phase ≠ .running then s
        else if c.sendLen ≤ off then s.setPacket ref.part { k with phase := .finished }
        else if q.room && q.waiting.isEmpty then
          let n := min 4032 (c.sendLen - off)
          let a := c.shift (c.addr 0x18) + off
          let codes := s.accessCodes .controller [(a, n)] []
          let s1 := s.readEffects a n (statusOf codes) k.ring
          if codes.isEmpty then
            let s2 := s1.bouncePut ref.part c.bounceQueue ⟨0, c.addr 0x18 + off, 0, c.u 0x24 4, s1.read a n, none⟩
            State.sendRecords fuel ref (s2.setPacket ref.part
              { k with work := [((off + n : Nat) : Int)], res := { k.res with count0 := k.res.count0 + 1 } })
          else s1.setPacket ref.part { k with phase := .finished, res := { k.res with codes := k.res.codes ++ codes } }
        else s

/-- The records that the longest SEND can need, and one step more. -/
def sendFuel : Nat := 2 ^ 24 / 4032 + 3

/-- SEND runs (R437). -/
def execBounceSend (p : PacketRef) (s : State) : Host.Outcome State Fault Refusal :=
  match s.packet p with
  | none => .next s
  | some k =>
    match s.ctx p.part k with
    | some c =>
      if k.hdr.opcode = 0x0B03 ∧ k.phase = .ready ∧ s.fatal = false ∧ c.bounceOp = 2 then
        .next (State.sendRecords sendFuel p (s.setPacket p.part { k with phase := .running, work := [0] }))
      else .next s
    | none => .next s

/-- A SEND that waited for room goes on (R437). -/
def execBounceSendRoom (p : PacketRef) (s : State) : Host.Outcome State Fault Refusal :=
  match s.packet p with
  | none => .next s
  | some k =>
    if k.hdr.opcode = 0x0B03 ∧ k.phase = .running ∧ s.fatal = false then .next (State.sendRecords sendFuel p s) else .next s

/-! The doorbell of a bound queue (R435, R438). -/

/-- The bound queue that a ring serves. -/
def Part.servedBy (pt : Part) (ring : Nat) : Option Nat := (pt.bounce.find? fun e => e.2.bound && e.2.ring == ring).map (·.1)

/-- A write to it: the producer and consumer indexes are set and the new inbound records asked for, or the write is ignored. -/
def State.bounceDoorbell (s : State) (p ring q : Nat) (data : Word) : State :=
  let b := (s.part p).queue q
  let prod := data.toNat % 2 ^ 32
  let cons := data.toNat / 2 ^ 32
  let ok := decide ((prod + 2 ^ 32 - b.inCons) % 2 ^ 32 ≤ 2 ^ b.log2)
    && decide ((cons + 2 ^ 32 - b.outCons) % 2 ^ 32 ≤ (b.outProd + 2 ^ 32 - b.outCons) % 2 ^ 32)
  if !ok then s.markRing 0 (ringWindow p ring).1 (ringWindow p ring).2
  else
    let s1 := s.modQueue p q fun b => { b with inProd := prod, outCons := cons }
    let s2 := if prod = b.inCons || b.stopped then s1 else s1.emit (.hostFetch p q b.inCons prod)
    (State.bouncePump b.waiting.length p q s2).flushAll p

/-! Inbound records (R436). -/

/-- Why an inbound record is refused (Table 19.7, TAG): 0 when it is accepted. -/
def State.bounceRefusal (s : State) (p q : Nat) (b : List Byte) : Nat :=
  let h := (s.part p).host
  let bq := (s.part p).queue q
  let f := fun (off w : Nat) => fieldAt b off w
  let seq := f 0 8
  let len := f 0x10 4
  let kind := f 0x14 1
  let ring := (s.part p).ring (f 0x16 2)
  if 4032 < len then 3
  else if (gcmOpen h.keyIn (bounceNonce h.salt q seq) (b.take 32) ((b.drop 32).take len) ((b.drop 0xFF0).take 16)).isNone then 1
  else if seq ≠ bq.inSeq then 2
  else if 1 < kind ∨ len % 64 ≠ 0 then 3
  else if kind = 0 then (if f 8 8 % 64 = 0 ∧ s.inMemory p (f 8 8) len = true then 0 else 4)
  else
    match ring.binding with
    | some x => if f 0x16 2 < 64 * s.quartersPer ∧ (f 8 4 + 2 ^ 32 - ring.head) % 2 ^ 32 ≤ 2 ^ x.ringLog2 then 0 else 5
    | none => 5

/-- A record accepted: DATA is written at ADDR, TAIL sets the ring tail as a doorbell write would. -/
def State.bounceAccept (s : State) (p q : Nat) (b : List Byte) : State :=
  let h := (s.part p).host
  let f := fun (off w : Nat) => fieldAt b off w
  let len := f 0x10 4
  let s1 := s.modQueue p q fun x => { x with inSeq := x.inSeq + 1, inCons := (x.inCons + 1) % 2 ^ 32 }
  if f 0x14 1 = 0 then
    match gcmOpen h.keyIn (bounceNonce h.salt q (f 0 8)) (b.take 32) ((b.drop 32).take len) ((b.drop 0xFF0).take 16) with
    | some data => if s1.reachable (f 8 8) len then s1.store ⟨f 8 8, data, false⟩ else s1
    | none => s1
  else
    (s1.modQueue p q fun x => { x with named := setIns x.named (f 0x16 2) }).modRing p (f 0x16 2) fun r =>
      { r with tail := f 8 4, stopped := false }

/-- BOUNCE_RECORD (R436): a record that was asked for arrives from the host. -/
def execBounceRecord (part : Nat) (queue : Nat) (record : List Byte) (s : State) : Host.Outcome State Fault Refusal :=
  let b := (s.part part).queue queue
  if s.isPart part = false ∨ b.bound = false ∨ b.stopped = true ∨ b.inCons = b.inProd ∨ s.fatal = true then .next s
  else
    let bytes := padTo 4096 record
    let reason := s.bounceRefusal part queue bytes
    if reason = 0 then .next (s.bounceAccept part queue bytes)
    else
      .next ((s.modQueue part queue fun b => { b with stopped := true }).bouncePut part queue
        ⟨2, fieldAt bytes 0 8, 0, reason, [], none⟩)

end Sys2Proof.Machine
end

