-- ==== Sys2Proof/Machine/Sparse.lean ====
section
/-! DEFINITION. Reading CSR and N:M tensors: row entries, column indices, positions, index faults (R150–R159), twin layouts
(R182, R183) and active lists (R158, R180). -/

namespace Sys2Proof.Machine

/-- A stored value of a sparse row: its column, its value slot or global number, and whether its index is good. A faulty one reads
as a zero value (R158). -/
structure Cell where
  col : Nat
  slot : Nat
  good : Bool
  deriving DecidableEq, Repr

/-- A row of a sparse tensor as it reads: its cells, the index faults met, whether an index item reads as bad, and whether a tile
of it is in dense form (R154, R158). -/
structure SparseRow where
  cells : List Cell
  faults : Nat
  bad : Bool
  dense : Bool
  deriving DecidableEq, Repr

/-- An empty row. -/
def SparseRow.empty : SparseRow := ⟨[], 0, false, false⟩

/-- Two stretches of one row. -/
def SparseRow.join (a b : SparseRow) : SparseRow := ⟨a.cells ++ b.cells, a.faults + b.faults, a.bad || b.bad, a.dense || b.dense⟩

/-- Width of column tile `t` (chapter 7, "CSR storage"). -/
def Desc.tileWidth (d : Desc) (t : Nat) : Nat := min (d.e 0 - 65536 * t) 65536

/-- The number of the row entry of row `i` in column tile `t` (R150). -/
def Desc.entryNo (d : Desc) (i t : Nat) : Nat := (i / 64 * d.ct + t) * 64 + i % 64

/-- The address of row entry `e` (R150). -/
def Desc.entryAddr (d : Desc) (e : Nat) : Nat := d.idx0 + 64 + 8 * e

/-- A row entry (Table 7.2). -/
structure RowEntry where
  start : Nat
  count : Nat
  dense : Bool
  deriving DecidableEq, Repr

/-- A row entry from its quadword. -/
def RowEntry.ofNat (x : Nat) : RowEntry := ⟨x % 2 ^ 32, x / 2 ^ 32 % 2 ^ 31, x.testBit 63⟩

/-- A row entry as a quadword. -/
def RowEntry.bits (r : RowEntry) : Nat := r.start % 2 ^ 32 + 2 ^ 32 * (r.count % 2 ^ 31) + (if r.dense then 2 ^ 63 else 0)

/-- Row entry `e` of a CSR tensor. -/
def State.rowEntry (s : State) (d : Desc) (e : Nat) : RowEntry := RowEntry.ofNat (s.readNat (d.entryAddr e) 8)

/-- The capacity of row entry `e` (R152), which may come out negative. -/
def State.entryCap (s : State) (d : Desc) (e : Nat) : Int :=
  (if e + 1 < d.csrEntries then ((s.rowEntry d (e + 1)).start : Int) else (d.csrCapacity : Int)) - (s.rowEntry d e).start

/-- Whether a row entry is an index fault of the first kind of R158. -/
def State.entryFault (s : State) (d : Desc) (e : Nat) : Bool :=
  let r := s.rowEntry d e
  let cap := s.entryCap d e
  decide (r.start % 32 ≠ 0 ∨ cap < 0 ∨ (d.csrCapacity : Int) < r.start + cap ∨ cap < r.count)

/-- The form of a sparse tile (R154, R158). -/
inductive TileForm where
  | compressed | dense | broken
  deriving DecidableEq, Repr

/-- The form of the tile of row tile `rt` and column tile `t`: its 64 DENSE bits must agree, and in dense form the COUNT of every
row of the tensor must be the tile's width. -/
def State.tileForm (s : State) (d : Desc) (rt t : Nat) : TileForm :=
  let es := (List.range 64).map fun i => (rt * 64 + i, s.rowEntry d ((rt * d.ct + t) * 64 + i))
  if es.all fun e => !e.2.dense then .compressed
  else if (es.all fun e => e.2.dense) && es.all fun e => decide (d.e 1 ≤ e.1) || e.2.count == d.tileWidth t then .dense
  else .broken

/-- Whether a row of a broken tile counts its fault (R158): every row of a tile whose DENSE bits disagree; with 64 DENSE bits, a padding row
is never a fault (R154). -/
def State.brokenFault (s : State) (d : Desc) (row t : Nat) : Bool :=
  decide (row < d.e 1) || !((List.range 64).all fun i => (s.rowEntry d ((row / 64 * d.ct + t) * 64 + i)).dense)

/-- Whether the entry of a padding row of a compressed tile is a fault: it breaks a row entry's own rules, or its COUNT is not zero (R158). An
entry that does both counts one (DESIGN CHOICE, log entry 90). -/
def State.paddingFault (s : State) (d : Desc) (e : Nat) : Bool := s.entryFault d e || (s.rowEntry d e).count != 0

/-- The cells of a compressed tile row: a column index at or beyond the width, or not above the last good one, is a fault. -/
def scanIndices (width base start : Nat) : List Nat → Nat → Option Nat → List Cell × Nat
  | [], _, _ => ([], 0)
  | c :: cs, i, last =>
    let ok := decide (c < width) && (match last with | some l => decide (l < c) | none => true)
    let (rest, n) := scanIndices width base start cs (i + 1) (if ok then some c else last)
    (⟨base + c, start + i, ok⟩ :: rest, n + (if ok then 0 else 1))

/-- One tile row as it reads (R153, R154, R158). -/
def State.tileRow (s : State) (d : Desc) (row t : Nat) : SparseRow :=
  let e := d.entryNo row t
  let r := s.rowEntry d e
  let bad := s.badIn (d.entryAddr (row / 64 * d.ct * 64 + t * 64)) 512
  match s.tileForm d (row / 64) t with
  | .broken => ⟨[], if s.brokenFault d row t then 1 else 0, bad, false⟩
  | .dense =>
    if d.e 1 ≤ row then ⟨[], 0, bad, true⟩
    else if s.entryFault d e then ⟨[], 1, bad, true⟩
    else ⟨(List.range (d.tileWidth t)).map fun c => ⟨65536 * t + c, r.start + c, true⟩, 0, bad, true⟩
  | .compressed =>
    if d.e 1 ≤ row then ⟨[], if s.paddingFault d e then 1 else 0, bad, false⟩
    else if s.entryFault d e then ⟨[], 1, bad, false⟩
    else
      let cs := (List.range r.count).map fun i => s.readNat (d.idx1 + 2 * (r.start + i)) 2
      let (cells, n) := scanIndices (d.tileWidth t) (65536 * t) r.start cs 0 none
      ⟨cells, n, bad || s.badIn (d.idx1 + 2 * r.start) (2 * r.count), false⟩

/-- A row of a CSR tensor over all its column tiles. -/
def State.csrRow (s : State) (d : Desc) (row : Nat) : SparseRow :=
  ((List.range d.ct).map (s.tileRow d row)).foldl SparseRow.join .empty

/-- The rows of a CSR tensor that a packet reads whole: every row of its row tiles, padding rows included. -/
def Desc.csrRows (d : Desc) : List Nat := List.range (ceilDiv (d.e 1) 64 * 64)

/-- The position of global value `g` within its group (R157). -/
def State.nmPos (s : State) (d : Desc) (g : Nat) : Nat :=
  let (_, _, b) := nmShape d.kind
  let bit := b * g
  s.readNat (d.idx0 + bit / 8) (if 8 < bit % 8 + b then 2 else 1) / 2 ^ (bit % 8) % 2 ^ b

/-- The cells of a row of an N:M tensor: a position not above the last good one of its group is a fault (R157, R158). -/
def State.nmRow (s : State) (d : Desc) (row : Nat) : SparseRow :=
  let (m, n, b) := nmShape d.kind
  let group := fun (gr : Nat) =>
    let g0 := row * d.vpr + gr * n
    let ps := (List.range n).map fun i => s.nmPos d (g0 + i)
    scanIndices m (gr * m) g0 ps 0 none
  let gs := (List.range (d.e 0 / m)).map group
  let lo := b * row * d.vpr
  ⟨gs.flatMap (·.1), (gs.map (·.2)).sum, s.badIn (d.idx0 + lo / 8) (ceilDiv (lo % 8 + b * d.vpr) 8), false⟩

/-- The value of a cell: a slot of a CSR tensor, or a global value of an N:M tensor (R153, R157). -/
def State.cellElt (s : State) (d : Desc) (row : Nat) (cl : Cell) : Elt :=
  let sa := if d.kind = 1 then d.scalePtr + cl.slot / 32
    else d.scalePtr + row * d.scaleStride + (cl.slot - row * d.vpr) / 32
  let el := s.eltAt d.fmt (d.base * 8 + cl.slot * d.w) (if d.isScaled then some sa else none)
  if cl.good then el else { el with v := if el.scale = 255 && d.isScaled then .nan else .fin 0 }

/-- The number of a cell's scale block within its row (R153, R157). -/
def Desc.cellBlock (d : Desc) (row : Nat) (cl : Cell) : Nat :=
  if d.kind = 1 then cl.slot / 32 else (cl.slot - row * d.vpr) / 32

/-- The intervals of a CSR tensor that a reader of its rows reads: the row entries of their tiles, and the indices, values and scales
of the rows named. -/
def State.csrSpans (s : State) (d : Desc) (rows : List Nat) (values : Bool) : List (Nat × Nat) :=
  let tiles := dedupNat (rows.map (· / 64))
  (tiles.flatMap fun rt => (List.range d.ct).map fun t => (d.entryAddr ((rt * d.ct + t) * 64), 512))
    ++ rows.flatMap fun r => (List.range d.ct).flatMap fun t =>
        let row := s.tileRow d r t
        match row.cells.head? with
        | none => []
        | some c0 =>
          let n := row.cells.length
          (if row.dense then [] else [(d.idx1 + 2 * c0.slot, 2 * n)])
            ++ (if values then
                  [(d.base + c0.slot * d.w / 8, ceilDiv (n * d.w) 8)]
                    ++ (if d.isScaled then [(d.scalePtr + c0.slot / 32, ceilDiv n 32)] else [])
                else [])

/-- The intervals of rows of an N:M tensor. -/
def Desc.nmSpans (d : Desc) (rows : List Nat) (values : Bool) : List (Nat × Nat) :=
  let (_, _, b) := nmShape d.kind
  rows.flatMap fun r =>
    let lo := b * r * d.vpr
    (d.idx0 + lo / 8, ceilDiv (lo % 8 + b * d.vpr) 8)
      :: (if values then
            (d.base + r * d.vpr * d.w / 8, ceilDiv (d.vpr * d.w) 8)
              :: (if d.isScaled then [(d.scalePtr + r * d.scaleStride, ceilDiv d.vpr 32)] else [])
          else [])

/-- The TERN elements of code 0b10 among the cells of rows (R59). -/
def State.ternCells (s : State) (d : Desc) (rows : List (Nat × SparseRow)) : Nat :=
  if d.fmt = 5 then
    ((rows.map fun (r, row) => (row.cells.filter fun cl => (s.cellElt d r cl).code == 2).length)).sum
  else 0

/-- The good entries of an active list of `n` entries at an address, and its faults: an entry at or beyond `limit`, or not above the
last good one, is a fault (R158, R180). -/
def State.activeList (s : State) (a n limit : Nat) : List Nat × Nat :=
  let es := (List.range n).map fun i => s.readNat (a + 4 * i) 4
  let (cells, faults) := scanIndices limit 0 0 es 0 none
  ((cells.filter (·.good)).map (·.col), faults)

/-! The twin index (R182, R183). -/

/-- Pointer entries of column tile `t`: roundup16(W_t + 1). -/
def Desc.cpEntries (d : Desc) (t : Nat) : Nat := roundUp (d.tileWidth t + 1) 16

/-- CPR: the pointer entries of one row tile (R182). -/
def Desc.cpr (d : Desc) : Nat := ((List.range d.ct).map d.cpEntries).sum

/-- The address of column pointer `c` of the tile (r, t). -/
def Desc.cpAddr (d : Desc) (twin r t c : Nat) : Nat :=
  twin + 64 + 4 * (r * d.cpr + ((List.range t).map d.cpEntries).sum + c)

/-- The address of permutation entry `j`. -/
def Desc.permAddr (d : Desc) (twin j : Nat) : Nat := twin + 64 + 4 * (ceilDiv (d.e 1) 64 * d.cpr) + 4 * j

/-- The bytes of a twin of capacity `cap` (R182). -/
def Desc.twinBytes (d : Desc) (cap : Nat) : Nat := 64 + 4 * (ceilDiv (d.e 1) 64 * d.cpr) + 4 * cap

/-- Whether a twin header is current for a CSR descriptor (R185). -/
def Desc.twinCurrent (d : Desc) (h : List Byte) : Bool :=
  fieldAt h 0 4 == d.csrGen && fieldAt h 4 4 == d.csrCapacity && fieldAt h 8 4 == d.e 1 && fieldAt h 12 4 == d.e 0

/-- The (column, slot) pairs of a compressed tile in column order, rows ascending within a column, faults left out: what its twin
holds (R183, R184). -/
def twinPairs (width base : Nat) (rows : List SparseRow) : List (Nat × Nat) :=
  let cells := rows.flatMap fun r => r.cells.filter (·.good)
  (List.range width).flatMap fun c => (cells.filter fun cl => cl.col == base + c).map fun cl => (c, cl.slot)

/-- The writes of a twin but for its header, over the compressed tiles of a CSR whose tile rows `row` gives and whose forms `form`
gives; and the slots it indexes. A tile whose index items read as bad is written poisoned (Table 11.2). -/
def twinWrites (d : Desc) (twin : Nat) (start : Nat → Nat → Nat) (form : Nat → Nat → TileForm) (row : Nat → Nat → SparseRow) :
    List Write × Nat :=
  let tiles := (List.range (ceilDiv (d.e 1) 64)).flatMap fun r => (List.range d.ct).map fun t => (r, t)
  let one : Nat × Nat → List Write × Nat := fun rt =>
    let r := rt.1
    let t := rt.2
    if form r t = TileForm.compressed then
      let rs := (List.range 64).map fun i => row (r * 64 + i) t
      let ps : List (Nat × Nat) := twinPairs (d.tileWidth t) (65536 * t) rs
      let bad := rs.any (·.bad)
      let cp := (List.range (d.tileWidth t + 1)).map fun c => (ps.filter fun p => decide (p.1 < c)).length
      ([⟨d.cpAddr twin r t 0, cp.flatMap (toLe 4), bad⟩,
        ⟨d.permAddr twin (start r t), (ps.map (·.2)).flatMap (toLe 4), bad⟩], ps.length)
    else ([], 0)
  let ws := tiles.map one
  (ws.flatMap (·.1), (ws.map (·.2)).sum)

/-- The 64-byte twin header (Table 8.1). -/
def Desc.twinHeader (d : Desc) (gen cap : Nat) : List Byte :=
  toLe 4 gen ++ toLe 4 cap ++ toLe 4 (d.e 1) ++ toLe 4 (d.e 0) ++ List.replicate 48 0

end Sys2Proof.Machine
end

