-- ==== Sys2Proof/Machine/Products.lean ====
section
/-! DEFINITION. Products on the arrays: the division of tiles and parts across leaves (R114), residue mismatches (R103), busy counts
(R107, R108), split reductions and their combine areas (R115), the epilogue (R112), and MATMUL with C3 mode (R98–R100, R111). -/

namespace Sys2Proof.Machine

/-- KP of a format (Table 5.3). -/
def kpOf (f : Nat) : Nat :=
  if f = 4 ∨ f = 6 then 8192 else if f = 5 then 16384 else if f = 2 ∨ f = 3 then 4096 else if f = 1 then 2048 else 1024

/-- Pairs that a cell takes per ACLK cycle (Table 5.1). -/
def pairsOf (f : Nat) : Nat := if f = 4 ∨ f = 6 then 16 else if f = 5 then 32 else if f = 2 ∨ f = 3 then 8 else if f = 1 then 4 else 1

/-- The window of one output before it runs: its anchor, its terms with the position at which each enters the reduction, and whether
an operand that enters it reads as bad. -/
structure OutWin where
  anchor : Int
  terms : List (Nat × BlockPair)
  bad : Bool
  deriving DecidableEq, Repr

/-- One product of a packet: MATMUL and the sparse products hold one, GROUPED_MATMUL one for each group. `outs` gives the outputs
of a tile, `plain` what is written for an output that no tile computes, `whole` that D is stored only when every tile is
done, because one block of D takes outputs of several tiles. -/
structure Prod where
  f : Nat
  d : Desc
  field : Nat
  passes : Nat
  width : Nat
  tiles : Nat
  outs : Nat → List Nat
  plain : Nat → Option OutElt
  win : Nat → OutWin
  epi : Nat → Spill → OutElt
  cycles : Nat → List Nat → Nat
  whole : Bool

/-- A packet's products with the division of their work; `riddle` gives what the riddle holds after some passes of a tile (R171). -/
structure Job where
  prods : List Prod
  leaves : List Nat
  splitMax : Nat
  rg : RGroup
  canSplit : Bool
  reads : List (Nat × Nat)
  codes : List Nat
  count1 : Nat
  opflags : Nat
  tern : Nat
  late : List Write
  riddle : Nat → List Nat → List RiddleEntry := fun _ _ => []

/-- A part of a tile's reduction given to a leaf: product, tile of the product, part, and the leaf's place in the leaf list. -/
structure Piece where
  prod : Nat
  tile : Nat
  part : Nat
  leaf : Nat
  deriving DecidableEq, Repr

/-- The products with their places. -/
def Job.numbered (j : Job) : List (Nat × Prod) := (List.range j.prods.length).zip j.prods

/-- The tiles of a packet in order: product and tile of the product (R114, R237). -/
def Job.tileList (j : Job) : List (Nat × Nat) := j.numbered.flatMap fun ip => (List.range ip.2.tiles).map fun t => (ip.1, t)

/-- t_count (R114). -/
def Job.tCount (j : Job) : Nat := (j.prods.map (·.tiles)).sum

/-- The pass count that bounds the split: the smallest of the products with tiles (R114, R237). -/
def Job.passes (j : Job) : Nat :=
  match (j.prods.filter fun p => decide (0 < p.tiles)).map (·.passes) with
  | [] => 0
  | x :: xs => xs.foldl min x

/-- The split s of R114. -/
def splitOf (tCount a p splitMax : Nat) : Nat :=
  if a ≤ tCount ∨ tCount = 0 then 1 else max 1 (min (min (a / tCount) (p / 4)) splitMax)

/-- The split of a packet. -/
def Job.split (j : Job) : Nat := if j.canSplit then splitOf j.tCount j.leaves.length j.passes j.splitMax else 1

/-- The product of a place. -/
def Job.prod? (j : Job) (i : Nat) : Option Prod := j.prods[i]?

/-- The passes of part `r` of a reduction of `p` passes cut in `s` (R114). -/
def partPasses (p s r : Nat) : List Nat := (List.range p).filter fun x => decide (r * p / s ≤ x ∧ x < (r + 1) * p / s)

/-- The pieces of a packet in ascending tile order and then ascending part (R114). -/
def Job.pieces (j : Job) : List Piece :=
  let s := j.split
  let a := max 1 j.leaves.length
  ((List.range j.tCount).zip j.tileList).flatMap fun (t, (i, lt)) =>
    (List.range s).map fun r => ⟨i, lt, r, (t * s + r) % a⟩

/-- The passes of a piece. -/
def Job.piecePasses (j : Job) (w : Piece) : List Nat :=
  match j.prod? w.prod with
  | some p => partPasses p.passes j.split w.part
  | none => []

/-! The residue check (R103). -/

/-- An integer modulo 15. -/
def residue15 (x : Int) : Nat := (x % 15).toNat

/-- The binary places of a value below its point: every operand is a whole number of 2^−n. -/
def Num.places (v : Num) : Nat := v.q.den.log2

/-- The products of a group as whole numbers at their common scale. -/
def groupProducts (ps : List (Num × Num)) : List Int :=
  let scale := (ps.map fun p => p.1.places + p.2.places).foldl max 0
  ps.map fun p => p.1.q.num * p.2.q.num * (2 ^ (scale - p.1.places - p.2.places) : Nat)

/-- The sum, modulo 15, of the residues of the products of a group, each formed from the residues of its operands; 16 is 1 modulo 15, so that
a shift multiplies by a power of 2 below 16. -/
def groupResidue (ps : List (Num × Num)) : Nat :=
  let scale := (ps.map fun p => p.1.places + p.2.places).foldl max 0
  ((ps.map fun p =>
    residue15 p.1.q.num * residue15 p.2.q.num * 2 ^ ((scale - p.1.places - p.2.places) % 4)).sum) % 15

/-- A whole number with one bit of its two's complement changed. -/
def flipBit (x : Int) (k : Nat) : Int := if x / (2 ^ k : Nat) % 2 = 0 then x + (2 ^ k : Nat) else x - (2 ^ k : Nat)

/-- Whether the residue check of a faulty array fails on a group of products: the fault changes a bit of the group sum, which a change of one
bit always shows. -/
def residueFails (array : Nat) (ps : List (Num × Num)) : Bool :=
  let ns := groupProducts ps
  match Config.faultBit array ns with
  | some k => residue15 (flipBit ns.sum k) != groupResidue ps
  | none => false

/-- The groups of 16 products of an output's window in one pass (DESIGN CHOICE, log entry 11: in the order of its block pairs). -/
def Prod.groups (p : Prod) (x : Nat) (w : OutWin) : List (List (Num × Num)) :=
  (w.terms.filter fun t => min (t.1 / p.width) (p.passes - 1) == x).flatMap fun t => chunks 16 t.2.elems.length t.2.elems

/-- The first pass of a piece in which some group exercises the fault of an array. -/
def Job.exercised (j : Job) (array : Nat) (w : Piece) : Option Nat :=
  match j.prod? w.prod with
  | some p => (j.piecePasses w).find? fun x => (p.outs w.tile).any fun n => (p.groups x (p.win n)).any (residueFails array)
  | none => none

/-- The division of a packet's pieces once residue mismatches have moved some (R103): the pieces that each leaf runs, the leaves
that met a mismatch with the pass in which each met it, and the tiles written poisoned. -/
structure Division where
  pieces : List Piece
  failed : List (Nat × Nat)
  poisoned : List (Nat × Nat)
  deriving DecidableEq, Repr

/-- Whether a leaf has met a mismatch. -/
def Division.hasFailed (d : Division) (l : Nat) : Bool := d.failed.any fun f => f.1 == l

/-- The next mismatch: the first leaf that has a stuck fault, has met no mismatch yet, and has a piece that exercises it (R103), with the
piece and the pass. -/
def Job.nextMismatch (j : Job) (faulty : List Nat) (d : Division) : Option (Nat × Piece × Nat) :=
  (List.range j.leaves.length).findSome? fun l =>
    let array := j.leaves[l]?.getD 0x100
    if d.hasFailed l || !faulty.contains array then none
    else (d.pieces.filter fun w => w.leaf == l).findSome? fun w => (j.exercised array w).map fun x => (l, w, x)

/-- One mismatch taken (R103): the tile of the piece is poisoned, and the leaf's later pieces go round robin to the leaves that have
met none. -/
def Job.takeMismatch (j : Job) (d : Division) (l : Nat) (w : Piece) (x : Nat) : Division :=
  let failed := d.failed ++ [(l, x)]
  let others := (List.range j.leaves.length).filter fun y => !failed.any fun f => f.1 == y
  let later := (d.pieces.filter (·.leaf == l)).dropWhile (· != w) |>.drop 1
  let rest := d.pieces.filter fun x => !(later.contains x)
  if others.isEmpty then
    ⟨rest, failed, d.poisoned ++ [(w.prod, w.tile)] ++ later.map fun x => (x.prod, x.tile)⟩
  else
    let moved := ((List.range later.length).zip later).map fun (n, x) =>
      { x with leaf := (others[n % others.length]?).getD 0 }
    ⟨rest ++ moved, failed, d.poisoned ++ [(w.prod, w.tile)]⟩

/-- Every mismatch of a packet, at most one for each leaf. -/
def Job.mismatches (j : Job) (faulty : List Nat) : Nat → Division → Division
  | 0, d => d
  | fuel + 1, d =>
    match j.nextMismatch faulty d with
    | some (l, w, x) => j.mismatches faulty fuel (j.takeMismatch d l w x)
    | none => d

/-- The division of a packet's work (R103, R114). -/
def Job.divide (j : Job) (faulty : List Nat) : Division :=
  let d0 : Division := ⟨j.pieces, [], []⟩
  if j.leaves.any faulty.contains then j.mismatches faulty j.leaves.length d0 else d0

/-- The arrays whose residue check failed. -/
def Job.failedArrays (j : Job) (d : Division) : List Nat := d.failed.map fun f => j.leaves[f.1]?.getD 0

/-- The pieces that a leaf runs, each with its passes: the last of a leaf that met a mismatch stops at the end of that pass (R103). -/
def Job.runs (j : Job) (d : Division) (l : Nat) : List (Piece × List Nat) :=
  let mine := (d.pieces.filter fun w => w.leaf == l).map fun w => (w, j.piecePasses w)
  let last := mine.length - 1
  ((List.range mine.length).zip mine).filterMap fun iw =>
    let ps := match d.failed.lookup l with
      | some x => if iw.1 = last then iw.2.2.filter (· ≤ x) else iw.2.2
      | none => iw.2.2
    if ps.isEmpty then none else some (iw.2.1, ps)

/-- The stream cycles of some passes of a piece. -/
def Job.pieceCycles (j : Job) (w : Piece) (ps : List Nat) : Nat :=
  match j.prod? w.prod with
  | some p => p.cycles w.tile ps
  | none => 0

/-- The busy cycles of every leaf that runs a pass: its stream cycles with the fill and the window latency around them (R107, R108,
DEDUCED, log entry 12); an array stops at the end of the pass in which it met a mismatch. -/
def Job.busy (j : Job) (d : Division) : List (Nat × Nat) :=
  (List.range j.leaves.length).filterMap fun l =>
    let mine := j.runs d l
    if mine.isEmpty then none
    else some (j.leaves[l]?.getD 0, 126 + (mine.map fun w => j.pieceCycles w.1 w.2).sum + 4)

/-- The window of an output over some passes, at the anchor of its whole reduction (R69, R115). -/
def Prod.passWin (p : Prod) (ps : List Nat) (w : OutWin) : Spill :=
  windowAt p.f w.anchor ((w.terms.filter fun t => ps.contains (min (t.1 / p.width) (p.passes - 1))).map (·.2))

/-- The window of one part of an output: the whole of it where the reduction is not split. -/
def Prod.partWin (p : Prod) (s r : Nat) (w : OutWin) : Spill :=
  if s = 1 then windowAt p.f w.anchor (w.terms.map (·.2)) else p.passWin (partPasses p.passes s r) w

/-- The windows of a tile after some of its passes, in window order (R109). -/
def Job.windows (j : Job) (w : Piece) (ps : List Nat) : List Spill :=
  match j.prod? w.prod with
  | some p => (p.outs w.tile).map fun n => p.passWin ps (p.win n)
  | none => []

/-- The banks of every leaf once its work is done: the tile it ran last, and the one before it (R109). -/
def Job.banks (j : Job) (d : Division) (part : Nat) (k : Packet) : List (Nat × List AccBank) :=
  (List.range j.leaves.length).filterMap fun l =>
    let held := ((j.runs d l).reverse.take 2).map fun w => (⟨part, k.ring, k.idx, w.1.tile, j.windows w.1 w.2⟩ : AccBank)
    if held.isEmpty then none else some (j.leaves[l]?.getD 0, held)

/-- The riddle of every leaf once its work is done (R171). -/
def Job.riddles (j : Job) (d : Division) : List (Nat × List RiddleEntry) :=
  (List.range j.leaves.length).filterMap fun l =>
    match (j.runs d l).getLast? with
    | some w => let es := j.riddle w.1.tile w.2; if es.isEmpty then none else some (j.leaves[l]?.getD 0, es)
    | none => none

/-- The work of a job with what it leaves in the arrays. -/
def Job.onArrays (j : Job) (d : Division) (c : Ctx) (w : WorkOut) : WorkOut :=
  { w with busy := j.busy d, mismatched := j.failedArrays d, banks := j.banks d c.p c.pkt, riddles := j.riddles d }

/-- A leaf's last record joins a combine area (R115): the first leaf's enter it as they are, for it has been zeroed, and each later leaf's are
added (R73). -/
def CombineArea.arrive (a : CombineArea) (rs : List Spill) : CombineArea :=
  { a with arrived := a.arrived + 1, records := if a.arrived = 0 then rs else (a.records.zip rs).map fun x => x.1.add x.2 }

/-- The combine area of a tile with every part but the last arrived, and the last leaf's bank (R115). -/
def Prod.area (p : Prod) (s t lt : Nat) (poisoned : Bool) : CombineArea :=
  let ns := p.outs lt
  let ws := ns.map p.win
  let part := fun (r : Nat) => ws.map (p.partWin s r)
  let a0 : CombineArea := ⟨t, s, 0, poisoned, (ns.zip ws).filterMap fun nw => if nw.2.bad then some nw.1 else none, [], part (s - 1)⟩
  (List.range (s - 1)).foldl (fun a r => a.arrive (part r)) a0

/-- The combine areas in which a tile's last leaf has arrived and which that leaf has read back (R115). -/
def readBack (as : List CombineArea) (tile : Nat) : List CombineArea :=
  as.map fun x => if x.tile = tile then { x.arrive x.bank with arrived := 0, bank := [] } else x

/-- Whether the arrival that is due brings a tile's count to s. -/
def arrivalDue (as : List CombineArea) (tile : Nat) : Bool := as.any fun a => a.tile == tile && a.arrived + 1 == a.parts

/-- An output's element from its window; poisoned where an operand or its tile is (R103, R274). -/
def Prod.element (p : Prod) (poisoned : Bool) (n : Nat) (bad : Bool) (sp : Spill) : OutElt :=
  if poisoned || bad then OutElt.bad else p.epi n sp

/-- What storing outputs of one product gave. -/
structure ProdOut where
  st : StoreOut
  losses : Nat
  deriving DecidableEq, Repr

/-- Outputs of a product stored: those listed with their elements, and `plain` where `withPlain` is set. -/
def Prod.storeOuts (p : Prod) (rg : RGroup) (es : List (Nat × OutElt)) (withPlain : Bool) : ProdOut :=
  ⟨storeDense p.d rg (fun n => match es.lookup n with
      | some e => some e
      | none => if withPlain then p.plain n else none) chooseScale noMove,
   (es.map fun e => if e.2.poison then 0 else e.2.losses).sum⟩

/-- The result of stores through several products. -/
def Ctx.prodResult (c : Ctx) (outs : List (Prod × ProdOut)) (codes : List Nat) (count1 opflags tern : Nat) : Result :=
  let losses := (outs.map (·.2.losses)).sum
  let clipped := (outs.map (·.2.st.clipped)).sum
  { Result.empty with
    codes := codes ++ lossNote losses, count0 := losses, count1 := count1,
    opflags := opflags + (if clipped = 0 then 0 else 128),
    watch := outs.flatMap fun o => c.watchDelta o.1.field o.2.st, clipped := clipped, ternInvalid := tern }

/-- OPFLAGS bit 1: a working buffer was placed outside the scratchpad (R15, R113). -/
def Packet.spillFlag (k : Packet) : Nat := if k.pool.any (fun b => b.1 != .scratchpad) then 2 else 0

/-- The work of a packet whose reductions are not split, or the first leaves' work of one that is: with a split, nothing of a
computed tile is stored until its combine area is full, for which the last leaf's arrival is due. -/
def Ctx.jobWork (c : Ctx) (j : Job) : WorkOut × List CombineArea :=
  let s := j.split
  let div := j.divide c.s.faultyArrays
  let flags := j.opflags + (if s = 1 then 0 else 1) + c.pkt.spillFlag
  let elems := fun (i : Nat) (p : Prod) => (List.range p.tiles).flatMap fun t =>
    (p.outs t).map fun n =>
      let w := p.win n
      (n, p.element (div.poisoned.contains (i, t)) n w.bad (p.partWin 1 0 w))
  let outs := j.numbered.map fun (i, p) =>
    if s = 1 then (p, p.storeOuts j.rg (elems i p) true)
    else if p.whole then (p, ⟨.empty, 0⟩) else (p, p.storeOuts j.rg [] true)
  let areas := if s = 1 then [] else
    ((List.range j.tCount).zip j.tileList).filterMap fun (t, (i, lt)) =>
      (j.prod? i).map fun p => p.area s t lt (div.poisoned.contains (i, lt))
  let w : WorkOut :=
    { reads := j.reads, writes := outs.flatMap (·.2.st.writes), res := { c.prodResult outs j.codes j.count1 flags j.tern with late := j.late } }
  (j.onArrays div c w, areas)

/-- A product opcode's work on a ready packet: finished, or running with its combine areas (R115). -/
def runProduct (code : Nat) (job : Ctx → Job) (p : PacketRef) (s : State) : State :=
  match s.packet p with
  | none => s
  | some k =>
    if k.hdr.opcode = code ∧ k.phase = .ready ∧ s.fatal = false then
      match s.ctx p.part k with
      | some c =>
        let (w, areas) := c.jobWork (job c)
        if areas.isEmpty then s.finish p.part k w
        else
          let s1 := s.finish p.part k w
          match s1.packet p with
          | some k1 =>
            if (s.workCodes k w.reads w.writes).contains ERR_PEER_UNREACHABLE then s1
            else s1.setPacket p.part { k1 with phase := .running, combine := areas }
          | none => s1
      | none => s
    else s

/-- The elements of a full combine area (R112, R115). A poisoned arrival count, or a tile in which a residue check failed, leaves every
output of the tile poisoned (R103, R274). -/
def Job.areaElems (j : Job) (a : CombineArea) : List (Nat × OutElt) :=
  match j.tileList[a.tile]? with
  | some (i, lt) =>
    match j.prod? i with
    | some p => ((p.outs lt).zip a.records).map fun (n, sp) => (n, p.element a.poisoned n (a.badAt.contains n) sp)
    | none => []
  | none => []

/-- The leaf whose arrival brings an arrival count to s adds its bank, reads the area back and runs the epilogue (R112, R115). A product whose
D takes outputs of several tiles in one block is stored when the last of its tiles is read back. -/
def Ctx.combineTile (c : Ctx) (j : Job) (tile : Nat) : Option (WorkOut × List CombineArea) :=
  match arrivalDue c.pkt.combine tile, j.tileList[tile]? with
  | true, some (i, _) =>
    match j.prod? i with
    | some p =>
      let done := readBack c.pkt.combine tile
      let mine := done.filter fun x => (j.tileList[x.tile]?).map (·.1) == some i
      let out :=
        if p.whole then
          if mine.all fun x => x.arrived == 0 then p.storeOuts j.rg (mine.flatMap j.areaElems) true else ⟨.empty, 0⟩
        else p.storeOuts j.rg ((done.filter fun x => x.tile == tile).flatMap j.areaElems) false
      let r := c.prodResult [(p, out)] [] 0 0 0
      let old := c.pkt.res
      some ({ reads := [], writes := out.st.writes,
              res := { old with
                codes := old.codes ++ r.codes, count0 := old.count0 + r.count0, watch := old.watch ++ r.watch,
                clipped := old.clipped + r.clipped, opflags := old.opflags ||| r.opflags } },
            if done.all fun x => x.arrived == 0 then [] else done)
    | none => none
  | _, _ => none

/-! MATMUL. -/

/-- The blocks of a row of a DENSE tensor along dimension 0: each with its exponent and its elements (R64). -/
def State.rowBlocks (s : State) (d : Desc) (c : List Nat) : List (Option Int × List Elt) :=
  (List.range (ceilDiv (d.e 0) 32)).map fun b =>
    let es := (List.range (min 32 (d.e 0 - 32 * b))).map fun i => s.elt d ((32 * b + i) :: c.drop 1)
    (blockExp d.fmt ((es.head?.map (·.scale)).getD 127) (es.map (·.v)), es)

/-- Whether a row of blocks holds a bad element. -/
def blocksBad (bs : List (Option Int × List Elt)) : Bool := bs.any fun b => b.2.any (·.bad)

/-- The dense window of two rows of blocks (R65–R68); `base` is the position of the first block in the reduction. -/
def densePairs (base : Nat) (as bs : List (Option Int × List Elt)) : List (Nat × BlockPair) :=
  ((List.range as.length).zip (as.zip bs)).map fun (i, (a, b)) =>
    (base + 32 * i, ⟨expSum a.1 b.1, (a.2.zip b.2).map fun e => (e.1.v, e.2.v)⟩)

/-- The window of a dense dot product. -/
def denseWin (f : Nat) (as bs : List (Option Int × List Elt)) : OutWin :=
  let ps := densePairs 0 as bs
  ⟨anchorOf f ps.length (ps.map (·.2.e)), ps, blocksBad as || blocksBad bs⟩

/-- The epilogue of R112 on an exact window, c and m. A WIDE160 output is not rounded: ADD joins by R73. An output with a non-finite class
keeps in VALUE and ANCHOR what its finite terms left there (R71 gives its CLASS alone; DESIGN CHOICE, log entry 91). -/
def Ctx.epilogue (c : Ctx) (field : Nat) (d : Desc) (add mul : Option Elt) (sp : Spill) : OutElt :=
  let bad := (match add with | some e => e.bad | none => false) || (match mul with | some e => e.bad | none => false)
  if bad then OutElt.bad
  else if fmtIsWide d.fmt then
    let (w, l) := match add with
      | some e => sp.w.add (W160.ofBits e.code)
      | none => (sp.w, 0)
    c.scaled field ⟨w.num, some w, sp.losses + l, none, false⟩
  else
    let x := match add with
      | some e => sp.w.num.add e.v
      | none => sp.w.num
    let y := match mul with
      | some e => e.v.mul x
      | none => x
    c.scaled field ⟨y, none, sp.losses, none, false⟩

/-- The multiplier of an output of row `i` and column `j` by MUL_MODE (Table 5.5). -/
def Ctx.mulElt (c : Ctx) (i j : Nat) : Option Elt :=
  match c.u 0x2C 1 with
  | 1 => some ⟨c.f32 0x28, false, 127, 0⟩
  | 2 => some (c.s.eltAt 0 ((c.addr 0x20 + 4 * i) * 8) none)
  | 3 => some (c.s.eltAt 0 ((c.addr 0x20 + 4 * j) * 8) none)
  | _ => none

/-- The bytes of the multiplier vector. -/
def Ctx.mulLen (c : Ctx) : Nat :=
  match c.u 0x2C 1 with
  | 2 => 4 * (c.desc 2).e 1
  | 3 => 4 * (c.desc 2).e 0
  | _ => 0

/-- The outputs of tile `t` of a dense output cut in 64 × 64 tiles, batch-major, then row tile, then column tile (R114). -/
def Desc.tileOuts (d : Desc) (t : Nat) : List Nat :=
  let nt := ceilDiv (d.e 0) 64
  let mt := ceilDiv (d.e 1) 64
  let b := t / (mt * nt)
  let r0 := t / nt % mt * 64
  let c0 := t % nt * 64
  (List.range (min 64 (d.e 1 - r0))).flatMap fun i =>
    (List.range (min 64 (d.e 0 - c0))).map fun j => (b * d.e 1 + r0 + i) * d.e 0 + c0 + j

/-- The tiles of a dense output (R114). -/
def Desc.tileCount (d : Desc) : Nat := d.e 2 * d.e 3 * d.e 4 * ceilDiv (d.e 1) 64 * ceilDiv (d.e 0) 64

/-- The elements of pass `p` of a reduction of `k` elements in passes of `kp` (R105). -/
def passLen (k kp p : Nat) : Nat := min ((p + 1) * kp) k - p * kp

/-- A dense product (R112): operands and output by descriptor, the fields of D and ADD, and whether the multiplier applies. -/
def Ctx.denseProd (c : Ctx) (a b d : Desc) (field : Nat) (add : Option Desc) (withMul : Bool) : Prod :=
  let kp := kpOf a.fmt
  { f := a.fmt, d := d, field := field, passes := ceilDiv (a.e 0) kp, width := kp, tiles := d.tileCount, outs := d.tileOuts,
    plain := fun _ => none,
    win := fun n =>
      let x := d.coords n
      let j := x[0]?.getD 0
      denseWin a.fmt (c.s.rowBlocks a x) (c.s.rowBlocks b (0 :: j :: x.drop 2)),
    epi := fun n sp =>
      let x := d.coords n
      c.epilogue field d (add.map fun e => c.s.elt e x)
        (if withMul then c.mulElt (x[1]?.getD 0) (x[0]?.getD 0) else none) sp,
    cycles := fun _ ps => (ps.map fun p => ceilDiv (passLen (a.e 0) kp p) (pairsOf a.fmt)).sum, whole := false }

/-- The shape checks of a product of dense operands (R63, R111), over descriptor fields `fa`, `fb`, `fd`, `fadd`. -/
def Ctx.denseFails (c : Ctx) (fa fb fd fadd : Nat) : List Fail :=
  let a := c.desc fa
  let b := c.desc fb
  let d := c.desc fd
  let add := c.desc fadd
  let bad := fun (x : Bool) (f : Nat) => failIf x 4 f ERR_DESCRIPTOR
  c.descFails fa false ++ c.descFails fb false ++ c.descFails fd true ++ c.descFails fadd false
    ++ bad (decide (a.kind ≠ 0)) fa ++ bad (decide (7 ≤ a.fmt)) fa
    ++ bad (decide (b.kind ≠ 0)) fb ++ bad (decide (7 ≤ b.fmt)) fb ++ bad (a.fmt != b.fmt) fb
    ++ bad (a.e 0 != b.e 0 || a.e 2 != b.e 2 || a.e 3 != b.e 3 || a.e 4 != b.e 4) fb
    ++ bad (decide (d.kind ≠ 0)) fd ++ bad (fmtIsGri d.fmt) fd
    ++ bad (d.e 1 != a.e 1 || d.e 0 != b.e 1 || d.e 2 != a.e 2 || d.e 3 != a.e 3 || d.e 4 != a.e 4) fd
    ++ (if c.has fadd then
          bad (decide (add.kind ≠ 0)) fadd ++ bad (fmtIsGri add.fmt) fadd ++ bad (add.ext != d.ext) fadd
            ++ bad (fmtIsWide d.fmt && !fmtIsWide add.fmt) fadd
        else [])

/-- The checks of the epilogue and the engine that MATMUL and the SPMM opcodes share (R111). -/
def Ctx.epilogueFails (c : Ctx) : List Fail :=
  let mode := c.u 0x2C 1
  failIf (decide (3 < mode)) 4 6 ERR_DESCRIPTOR ++ failIf (fmtIsWide (c.desc 2).fmt && mode != 0) 4 6 ERR_DESCRIPTOR
    ++ c.engineFails 7 0x2E ++ c.rmodeFails 11 0x38

/-- The checks of C3 mode (R98). -/
def Ctx.c3Fails (c : Ctx) : List Fail :=
  let bad := fun (x : Bool) (f : Nat) => failIf x 4 f ERR_DESCRIPTOR
  if c.snap.c3 then
    bad (decide (1 < (c.desc 0).fmt)) 0 ++ bad (decide (1 < (c.desc 1).fmt)) 1 ++ bad (decide (1 < (c.desc 2).fmt)) 2
      ++ bad (c.has 3) 3 ++ bad (c.u 0x2C 1 != 0) 6 ++ bad (c.u 0x44 1 != 0) 11
  else []

/-- The arrays that MATMUL's operands name besides the sparse one. -/
def Ctx.mulAcc (c : Ctx) : List Acc := if c.mulLen = 0 then [] else accMem 4 false (c.addr 0x20) c.mulLen 64

/-- MUL_PTR misaligned: checked whatever the length of the vector (R111). -/
def Ctx.mulFails (c : Ctx) : List Fail :=
  let mode := c.u 0x2C 1
  failIf ((mode == 2 || mode == 3) && decide (c.addr 0x20 % 64 ≠ 0)) 7 4 ERR_ALIGN

/-- The MATMUL job: one dense product. -/
def Ctx.matmulJob (c : Ctx) : Job :=
  let a := c.loc 0
  let b := c.loc 1
  let d := c.loc 2
  let add := if c.has 3 then some (c.loc 3) else none
  { prods := [c.denseProd a b d 2 add true], leaves := c.snap.leaves, splitMax := clampNat 1 64 (c.u 0x30 2),
    rg := c.rgroup 0x38, canSplit := !c.snap.c3,
    reads := if d.total = 0 then [] else
      a.spans ++ b.spans ++ (match add with | some e => e.spans | none => [])
        ++ (if c.mulLen = 0 then [] else [(c.addr 0x20, c.mulLen)]),
    codes := [], count1 := d.tileCount, opflags := 0,
    tern := c.s.ternDense a + c.s.ternDense b + (match add with | some e => c.s.ternDense e | none => 0), late := [] }

/-- The combine areas of a job, 128 KiB for each tile of a split packet (R115). -/
def Job.buffers (j : Job) : List Buffer := if j.split = 1 then [] else List.replicate j.tCount ⟨0x20000, false⟩

/-- The work of a C3-mode MATMUL (R99, R100): no window, no split, and a pass of L elements streams 8L cycles (R481). -/
def Ctx.c3Work (c : Ctx) (j : Job) : WorkOut :=
  let a := c.loc 0
  let b := c.loc 1
  let d := c.loc 2
  let kp := kpOf a.fmt
  let j' : Job := { j with prods := j.prods.map fun p => { p with cycles := fun _ ps => (ps.map fun x => 8 * passLen (a.e 0) kp x).sum } }
  let div := j'.divide c.s.faultyArrays
  let nt := ceilDiv (d.e 0) 64
  let mt := ceilDiv (d.e 1) 64
  let one := fun (n : Nat) =>
    let x := d.coords n
    let i := x[1]?.getD 0
    let jj := x[0]?.getD 0
    let t := (n / d.e 0 / d.e 1 * mt + i / 64) * nt + jj / 64
    let as := (List.range (a.e 0)).map fun k => c.s.elt a (k :: x.drop 1)
    let bs := (List.range (a.e 0)).map fun k => c.s.elt b (k :: jj :: x.drop 2)
    if !d.owned x then (⟨[], .zero, 1, 0⟩ : StoreOut)
    else if div.poisoned.contains (0, t) || as.any (·.bad) || bs.any (·.bad) then storeOne d.fmt .rne (d.bitAddr x / 8) .bad
    else
      let (acc, fl) := c3dot ((as.map (·.v)).zip (bs.map (·.v)))
      let (code, cnt) := c3encode d.fmt acc fl
      ⟨[⟨d.bitAddr x / 8, toLe (d.w / 8) code, false⟩], cnt, 0, 1⟩
  let st := ((List.range d.total).map one).foldr StoreOut.add .empty
  let w : WorkOut := { reads := j.reads, writes := st.writes, res := c.result 2 st [] 0 j.count1 0 j.tern }
  { (j'.onArrays div c w) with banks := [] }

/-- The classes that may issue tensor opcodes and expert opcodes (Table 2.8). -/
def tensorClasses : List StreamClass := [.F, .B, .U]

/-- The descriptor pointers that MATMUL and the SPMM opcodes share. -/
def matmulPtrs : List Byte → List (Nat × Nat) := ptrs [(0, 0), (1, 8), (2, 0x10)] [(3, 0x18)]

/-- MATMUL (R111–R113). -/
def specMatmul : OpSpec :=
  { code := 0x0201, classes := tensorClasses, len := fun _ => 80, descs := matmulPtrs, engine := some 0x2E,
    fails := fun c => c.denseFails 0 1 2 3 ++ c.epilogueFails ++ c.c3Fails ++ c.mulFails,
    accs := fun c => c.acc 0 false ++ c.acc 1 false ++ c.acc 2 true ++ c.acc 3 false ++ c.mulAcc,
    exempt := [(2, 3)], buffers := fun c => c.matmulJob.buffers,
    clamps := fun c => clampBit 8 1 64 (c.u 0x30 2) ++ (if (c.desc 2).trimClamped then [2] else []) }

/-- MATMUL runs (R112). -/
def execMatmul (p : PacketRef) (s : State) : Host.Outcome State Fault Refusal :=
  match s.packet p with
  | some k =>
    if (k.snap.map (·.c3)) == some true then
      .next (runOpcode 0x0201 (fun _ => true) (fun c => c.c3Work c.matmulJob) p s)
    else .next (runProduct 0x0201 Ctx.matmulJob p s)
  | none => .next s

end Sys2Proof.Machine
end

