-- ==== Sys2Proof/Machine/Spmm.lean ====
section
/-! DEFINITION. Sparse-times-dense products: SPMM_CSR with its transposed, gathered and audited forms, and SPMM_NM
(R165–R170, R180, R181, R186–R189). -/

namespace Sys2Proof.Machine

/-- A row of the sparse operand as a product reads it: its values by column with the number of the scale block of each, the
exponents of those blocks, the index faults met, whether an index item reads as bad, and whether a tile of it is in dense form. -/
structure BRow where
  cells : List (Nat × Nat × Elt)
  exps : List (Nat × Option Int)
  faults : Nat
  bad : Bool
  dense : Bool
  deriving Repr

/-- The exponents of the scale blocks that cells fall in (R64, R153, R157). -/
def cellExps (f : Nat) (cells : List (Nat × Elt)) : List (Nat × Option Int) :=
  (dedupNat (cells.map (·.1))).map fun b =>
    let es := (cells.filter fun x => x.1 == b).map (·.2)
    (b, blockExp f ((es.head?.map (·.scale)).getD 127) (es.map (·.v)))

/-- Row `j` of the sparse operand, or of a DENSE operand read through an active list (R154, R165). -/
def State.bRow (s : State) (d : Desc) (j : Nat) : BRow :=
  if d.kind = 0 then
    let bs := s.rowBlocks d [0, j, 0, 0, 0]
    let nb := (List.range bs.length).zip bs
    ⟨nb.flatMap fun (b, (_, es)) => ((List.range es.length).zip es).map fun (i, e) => (32 * b + i, b, e),
      nb.map fun (b, (x, _)) => (b, x), 0, false, false⟩
  else
    let r := if d.kind = 1 then s.csrRow d j else s.nmRow d j
    let es := r.cells.map fun cl => (cl, s.cellElt d j cl)
    ⟨(es.filter fun e => e.1.good).map fun (cl, e) => (cl.col, d.cellBlock j cl, e),
      cellExps d.fmt (es.map fun (cl, e) => (d.cellBlock j cl, e)), r.faults, r.bad, r.dense⟩

/-- The largest exponent of a list. -/
def maxExp (es : List (Option Int)) : Option Int :=
  es.foldl (fun m e => match m, e with
    | none, e => e
    | some x, some y => some (max x y)
    | some x, none => some x) none

/-- The anchor of R168 and R187: max eA + max eB + c + an allowance; 0 when either maximum is empty. -/
def pairAnchor (f : Nat) (ea eb : List (Option Int)) (extra : Int) : Int :=
  match maxExp ea, maxExp eb with
  | some a, some b => a + b + fmtC f + extra
  | _, _ => 0

/-- The scale bytes of a row of a scaled DENSE tensor that read as bad. -/
def State.rowScalesBad (s : State) (d : Desc) (c : List Nat) : Bool :=
  d.isScaled && (List.range (ceilDiv (d.e 0) 32)).any fun b => s.badIn (d.scaleAddr ((32 * b) :: c.drop 1)) 1

/-- Whether a row of the dense operand spoils an output: an element that enters it, a scale byte, or a derived exponent (R274). -/
def State.denseRowBad (s : State) (d : Desc) (c : List Nat) (bs : List (Option Int × List Elt)) (used : List Nat) : Bool :=
  if s.poison.isEmpty && s.faults.isEmpty then false
  else (if fmtDerived d.fmt then blocksBad bs else used.any fun k => (s.elt d (k :: c.drop 1)).bad) || s.rowScalesBad d c

/-- The element of a row of blocks at a position. -/
def eltOf (bs : List (Option Int × List Elt)) (k : Nat) : Num :=
  match bs[k / 32]? with
  | some (_, es) => (es[k % 32]?.map (·.v)).getD (.fin 0)
  | none => .fin 0

/-- The exponent of the block of a position. -/
def expOf (bs : List (Option Int × List Elt)) (k : Nat) : Option Int :=
  match bs[k / 32]? with
  | some (e, _) => e
  | none => none

/-- The window of an output of SPMM_CSR: segments share a block of A and a scale block of B (R168). -/
def csrWin (f nb : Nat) (as : List (Option Int × List Elt)) (b : BRow) : OutWin :=
  let segs := b.cells.foldl (fun acc (x : Nat × Nat × Elt) =>
    let key := (x.1 / 32, x.2.1)
    if acc.any fun g => g.1 == key then acc else acc ++ [(key, b.cells.filter fun y => (y.1 / 32, y.2.1) == key)])
    ([] : List ((Nat × Nat) × List (Nat × Nat × Elt)))
  ⟨pairAnchor f (as.map (·.1)) (b.exps.map (·.2)) ((ceilLog2 nb : Nat) + 1),
   segs.map fun (key, cs) =>
    (32 * key.1, ⟨expSum (expOf as (32 * key.1)) ((b.exps.lookup key.2).getD none),
      cs.map fun x => (eltOf as x.1, x.2.2.v)⟩), b.cells.any fun x => x.2.2.bad⟩

/-- The window of an output of SPMM_NM: every block of A with the scale block of B that covers it (R167). `vpc` is columns per
scale block: 64 for NM24, 128 for the others. -/
def nmWin (f cols : Nat) (as : List (Option Int × List Elt)) (b : BRow) : OutWin :=
  let ps := (List.range as.length).map fun a =>
    (32 * a, (⟨expSum (expOf as (32 * a)) ((b.exps.lookup (32 * a / cols)).getD none),
      (b.cells.filter fun x => x.1 / 32 == a).map fun x => (eltOf as x.1, x.2.2.v)⟩ : BlockPair))
  ⟨anchorOf f ps.length (ps.map (·.2.e)), ps, b.cells.any fun x => x.2.2.bad⟩

/-- SFLAGS.TRANS and SFLAGS.AUDIT (Table 7.5). -/
def Ctx.trans (c : Ctx) : Bool := (c.u 0x6E 1).testBit 0

/-- SFLAGS.AUDIT. -/
def Ctx.audit (c : Ctx) : Bool := (c.u 0x6E 1).testBit 1

/-- ACTIVE_SLOT. -/
def Ctx.activeSlot (c : Ctx) : Nat := c.u 0x6C 2

/-- Whether ACTIVE_SLOT names a slot. -/
def Ctx.gathers (c : Ctx) : Bool := c.activeSlot != 0xFFFF

/-- The good entries of the active list and its faults (R158, R180); every row when no slot is named. -/
def Ctx.active (c : Ctx) (n : Nat) : List Nat × Nat :=
  if c.gathers then c.s.activeList (c.addr 0x58) (c.slot c.activeSlot).2 n else (List.range n, 0)

/-- The rows of B whose active-list entry reads as bad (Table 11.2). -/
def Ctx.activeBad (c : Ctx) : Bool := c.gathers && c.s.badIn (c.addr 0x58) (4 * (c.slot c.activeSlot).2)

/-- The active-list entry of a gathered row reads as bad. -/
def Ctx.entryBad (c : Ctx) (j : Nat) : Bool :=
  c.activeBad && (List.range (c.slot c.activeSlot).2).any fun i =>
    c.s.readNat (c.addr 0x58 + 4 * i) 4 == j && c.s.badIn (c.addr 0x58 + 4 * i) 4

/-- The outputs of a tile whose 64 columns are those of a list (R104, R180). -/
def Desc.gatherOuts (d : Desc) (cols : List Nat) (keep : Nat → Bool) (t : Nat) : List Nat :=
  let nt := ceilDiv cols.length 64
  let mt := ceilDiv (d.e 1) 64
  let b := t / (mt * nt)
  let r0 := t / nt % mt * 64
  let mine := ((cols.drop (t % nt * 64)).take 64).filter keep
  (List.range (min 64 (d.e 1 - r0))).flatMap fun i => mine.map fun j => (b * d.e 1 + r0 + i) * d.e 0 + j

/-- The tiles over a list of columns. -/
def Desc.gatherTiles (d : Desc) (n : Nat) : Nat := d.e 2 * d.e 3 * d.e 4 * ceilDiv (d.e 1) 64 * ceilDiv n 64

/-- The index faults of a sparse operand's rows in a packet that reads them. -/
def State.rowFaults (s : State) (d : Desc) (rows : List Nat) : Nat :=
  if d.kind = 0 then 0
  else (rows.map fun r => (if d.kind = 1 then s.csrRow d r else s.nmRow d r).faults).sum

/-- The intervals of a sparse operand's rows. -/
def State.sparseSpans (s : State) (d : Desc) (rows : List Nat) : List (Nat × Nat) :=
  if d.kind = 1 then s.csrSpans d rows true
  else if d.kind = 0 then rows.flatMap fun r =>
    (d.bitAddr [0, r, 0, 0, 0] / 8, d.e 0 * d.w / 8)
      :: (if d.isScaled then [(d.scaleAddr [0, r, 0, 0, 0], ceilDiv (d.e 0) 32)] else [])
  else d.nmSpans rows true

/-- The stream cycles of a pass of a sparse tile (Table 7.6, R180). -/
def spmmCycles (d : Desc) (p lo len : Nat) (rows : List BRow) : Nat :=
  if kindIsNm d.kind then ceilDiv len ((if d.kind = 2 then 2 else 4) * p)
  else
    let nmax := (rows.map fun r => (r.cells.filter fun x => decide (lo ≤ x.1 ∧ x.1 < lo + len)).length).foldl max 0
    max (ceilDiv len (8 * p)) (ceilDiv nmax p)

/-- The ADD operand. -/
def Ctx.addDesc (c : Ctx) : Option Desc := if c.has 3 then some (c.loc 3) else none

/-- The epilogue of output `n` of D. -/
def Ctx.outEpilogue (c : Ctx) (d : Desc) (n : Nat) (sp : Spill) : OutElt :=
  let x := d.coords n
  c.epilogue 2 d (c.addDesc.map fun e => c.s.elt e x) (c.mulElt (x[1]?.getD 0) (x[0]?.getD 0)) sp

/-- The window of output (row, j) of an untransposed SPMM. -/
def Ctx.spmmWin (c : Ctx) (a b : Desc) (rows : Tbl BRow) (tileBad : Nat → Bool) (d : Desc) (n : Nat) : OutWin :=
  let x := d.coords n
  let j := x[0]?.getD 0
  let br := (List.lookup j rows).getD ⟨[], [], 0, false, false⟩
  let as := c.s.rowBlocks a x
  let w := if kindIsNm b.kind then nmWin a.fmt (if b.kind = 2 then 64 else 128) as br else csrWin a.fmt as.length as br
  { w with bad := w.bad || tileBad j || c.s.denseRowBad a x as (br.cells.map (·.1)) }

/-- The audit record of Table 7.9 (R181, R75): `val` gives the exact epilogue value of an output. -/
def auditRecord (thresh : Num) (cols rows : Nat) (listed : Nat → Bool) (val : Nat → Nat → Num) : List Byte :=
  let js := List.range cols
  let vals := fun (j : Nat) => (List.range rows).map fun i => val i j
  let above := fun (v : Num) => !v.isNan && thresh.below v
  let missed := js.filter fun j => !listed j && (vals j).any above
  let outs := (js.filter fun j => !listed j).flatMap vals
  let idle := js.filter fun j => listed j && !((vals j).any above)
  let peak := (outs.filter fun v => !v.isNan).foldl (fun m v => match m with
    | none => some v
    | some x => some (if x.below v then v else x)) (none : Option Num)
  let code := match peak with
    | none => 0
    | some v => (encodeUnscaled 0 .rne (.ofNum v)).1
  toLe 8 missed.length ++ toLe 8 (outs.filter above).length ++ toLe 8 idle.length ++ toLe 4 code
    ++ toLe 4 ((missed.head?).getD 0xFFFFFFFF) ++ List.replicate 32 0

/-- The job of an untransposed SPMM (R166–R170, R180, R181). -/
def Ctx.spmmJob (c : Ctx) : Job :=
  let a := c.loc 0
  let b := c.loc 1
  let d := c.loc 2
  let nAll := b.e 1
  let (list, listFaults) := c.active nAll
  let cols := if c.audit then List.range nAll else list
  let rows : Tbl BRow := cols.map fun j => (j, c.s.bRow b j)
  let groupOf := fun (j : Nat) => cols.findIdx (· == j) / 64
  let badGroups := dedupNat ((rows.filter fun r => r.2.bad || c.entryBad r.1).map fun r => groupOf r.1)
  let listed := fun (j : Nat) => !c.gathers || list.contains j
  let kp := kpOf a.fmt
  let nt := max 1 (ceilDiv cols.length 64)
  let tileRows := fun (t : Nat) => ((rows.drop (t % nt * 64)).take 64).map (·.2)
  let win := c.spmmWin a b rows (fun j => badGroups.contains (groupOf j)) d
  let prod : Prod :=
    { f := a.fmt, d := d, field := 2, passes := ceilDiv (a.e 0) kp, width := kp, tiles := d.gatherTiles cols.length,
      outs := d.gatherOuts cols listed, plain := fun n => if listed (n % d.e 0) then none else some (.ofNum (.fin 0)),
      win := win, epi := c.outEpilogue d,
      cycles := fun t ps => (ps.map fun p => spmmCycles b (pairsOf a.fmt) (p * kp) (passLen (a.e 0) kp p) (tileRows t)).sum,
      whole := c.gathers && d.isScaled }
  let read := if b.kind = 1 ∧ (!c.gathers || c.audit) then b.csrRows else cols
  let faults := if d.total = 0 then 0 else c.s.rowFaults b read + listFaults
  let rowsOut := d.outer
  let judged := fun (n : Nat) => let w := win n; prod.element false n w.bad (prod.partWin 1 0 w)
  let late := if c.audit then
      [⟨c.addr 0x60, auditRecord (c.f32 0x68) nAll rowsOut listed fun i j => (judged (i * d.e 0 + j)).v,
        (List.range d.total).any fun n => (judged n).poison⟩] else []
  { prods := [prod], leaves := c.snap.leaves, splitMax := clampNat 1 64 (c.u 0x30 2), rg := c.rgroup 0x38, canSplit := true,
    reads := if d.total = 0 then [] else
      a.spans ++ c.s.sparseSpans b read ++ (match c.addDesc with | some e => e.spans | none => [])
        ++ (if c.mulLen = 0 then [] else [(c.addr 0x20, c.mulLen)])
        ++ (if c.gathers then [(c.addr 0x58, 4 * (c.slot c.activeSlot).2)] else []),
    codes := if faults = 0 then [] else [ERR_INDEX_RANGE], count1 := faults,
    opflags := if rows.any (fun r => r.2.dense) then 4 else 0,
    tern := c.s.ternDense a + (match c.addDesc with | some e => c.s.ternDense e | none => 0)
      + (if b.fmt = 5 then ((rows.map fun r => (r.2.cells.filter fun x => x.2.2.code == 2).length)).sum else 0),
    late := late }

/-! Transposed products (R186–R189). -/

/-- The row of a tile that holds a slot: the last of its 64 entries whose START does not lie above it (R183). -/
def State.rowOfSlot (s : State) (d : Desc) (rt t slot : Nat) : Nat :=
  (List.range 64).foldl (fun best i =>
    if (s.rowEntry d (d.entryNo (rt * 64 + i) t)).start ≤ slot then rt * 64 + i else best) (rt * 64)

/-- The values of column `k` as a transposed product reads them: through the twin for compressed tiles, through R154 for dense-form
tiles; by row, with the slot (R183). -/
def State.colCells (s : State) (d : Desc) (twin k : Nat) : List (Nat × Nat) :=
  let t := k / 65536
  let cc := k % 65536
  (List.range (ceilDiv (d.e 1) 64)).flatMap fun rt =>
    match s.tileForm d rt t with
    | .broken => []
    | .dense => (List.range 64).filterMap fun i =>
        let r := rt * 64 + i
        if d.e 1 ≤ r ∨ s.entryFault d (d.entryNo r t) then none
        else some (r, (s.rowEntry d (d.entryNo r t)).start + cc)
    | .compressed =>
        let lo := s.readNat (d.cpAddr twin rt t cc) 4
        let hi := s.readNat (d.cpAddr twin rt t (cc + 1)) 4
        let b := (s.rowEntry d (d.entryNo (rt * 64) t)).start
        (List.range (min (hi - lo) d.csrCapacity)).filterMap fun i =>
          let slot := s.readNat (d.permAddr twin (b + lo + i)) 4
          let r := s.rowOfSlot d rt t slot
          if d.e 1 ≤ r ∨ s.entryFault d (d.entryNo r t) then none else some (r, slot)

/-- The faults of row entries that a transposed product meets in a row (R158): it reads no column index. -/
def State.entryFaults (s : State) (d : Desc) (row : Nat) : Nat :=
  ((List.range d.ct).map fun t =>
    let e := d.entryNo row t
    match s.tileForm d (row / 64) t with
    | .broken => if s.brokenFault d row t then 1 else 0
    | .dense => if d.e 1 ≤ row then 0 else if s.entryFault d e then 1 else 0
    | .compressed =>
      if (if d.e 1 ≤ row then s.paddingFault d e else s.entryFault d e) then 1 else 0).sum

/-- The intervals of the twin's pointers and permutation. -/
def Desc.twinSpans (d : Desc) (twin : Nat) : List (Nat × Nat) := [(twin, d.twinBytes d.csrCapacity)]

/-- The job of a transposed product (R186–R189). -/
def Ctx.transJob (c : Ctx) : Job :=
  let a := c.loc 0
  let b := c.loc 1
  let d := c.loc 2
  let twin := c.addr 0x50
  let (list, listFaults) := c.active (b.e 1)
  let kp := kpOf a.fmt
  let p := pairsOf a.fmt
  let rows := if c.gathers then list else b.csrRows
  let elts := fun (k : Nat) => ((c.s.colCells b twin k).filter fun x => list.contains x.1).map fun (r, slot) =>
    (r, slot, c.s.cellElt b r ⟨k, slot, true⟩)
  let cols : List (Nat × List (Nat × Nat × Elt)) := (List.range (b.e 0)).map fun k => (k, elts k)
  let twinBad := c.s.badIn twin (b.twinBytes b.csrCapacity) || c.activeBad
    || c.s.badIn (b.entryAddr 0) (8 * b.csrEntries)
  let blockExpOf := fun (slot : Nat) =>
    let b0 := slot / 32 * 32
    let vs := (List.range 32).map fun i => c.s.eltAt b.fmt (b.base * 8 + (b0 + i) * b.w)
      (if b.isScaled then some (b.scalePtr + b0 / 32) else none)
    let held := if fmtDerived b.fmt then
        (cols.flatMap (·.2)).filter (fun x => x.2.1 / 32 == slot / 32) |>.map fun x => x.2.2.v
      else vs.map (·.v)
    blockExp b.fmt ((vs.head?.map (·.scale)).getD 127) held
  let win := fun (n : Nat) =>
    let x := d.coords n
    let cells := (cols.lookup (x[0]?.getD 0)).getD []
    let as := c.s.rowBlocks a x
    let es := cells.map fun y => (y, blockExpOf y.2.1)
    (⟨if cells.isEmpty then 0 else pairAnchor a.fmt (as.map (·.1)) (es.map (·.2)) (ceilLog2 cells.length : Nat),
      es.map fun (y, e) => (y.1, ⟨expSum (expOf as y.1) e, [(eltOf as y.1, y.2.2.v)]⟩),
      twinBad || (cells.any fun y => y.2.2.bad) || c.s.denseRowBad a x as (cells.map (·.1))⟩ : OutWin)
  let cyc := fun (t pn : Nat) =>
    let nt := max 1 (ceilDiv (d.e 0) 64)
    let inPass := fun (r : Nat) => decide (pn * kp ≤ r ∧ r < (pn + 1) * kp)
    let len := (list.filter inPass).length
    let nmax := (((cols.drop (t % nt * 64)).take 64).map fun kc => (kc.2.filter fun x => inPass x.1).length).foldl max 0
    max (ceilDiv len (4 * p)) (ceilDiv nmax p)
  let faults := if d.total = 0 then 0 else (rows.map (c.s.entryFaults b)).sum + listFaults
  let denseTile := (List.range (ceilDiv (b.e 1) 64)).any fun rt => (List.range b.ct).any fun t =>
    c.s.tileForm b rt t == .dense && list.any fun r => r / 64 == rt
  { prods := [{ f := a.fmt, d := d, field := 2, passes := ceilDiv (b.e 1) kp, width := kp, tiles := d.tileCount,
                outs := d.tileOuts, plain := fun _ => none, win := win, epi := c.outEpilogue d,
                cycles := fun t ps => (ps.map (cyc t)).sum, whole := false }],
    leaves := c.snap.leaves, splitMax := clampNat 1 64 (c.u 0x30 2), rg := c.rgroup 0x38, canSplit := true,
    reads := if d.total = 0 then [] else
      a.spans ++ [(b.entryAddr 0, 8 * b.csrEntries)] ++ b.twinSpans twin
        ++ ((cols.flatMap (·.2)).flatMap fun x => [(b.base + x.2.1 * b.w / 8, max 1 (b.w / 8))]
          ++ (if b.isScaled then [(b.scalePtr + x.2.1 / 32, 1)] else []))
        ++ (match c.addDesc with | some e => e.spans | none => [])
        ++ (if c.mulLen = 0 then [] else [(c.addr 0x20, c.mulLen)])
        ++ (if c.gathers then [(c.addr 0x58, 4 * (c.slot c.activeSlot).2)] else []),
    codes := if faults = 0 then [] else [ERR_INDEX_RANGE], count1 := faults, opflags := if denseTile then 4 else 0,
    tern := c.s.ternDense a + (match c.addDesc with | some e => c.s.ternDense e | none => 0)
      + (if b.fmt = 5 then ((cols.flatMap (·.2)).filter fun x => x.2.2.code == 2).length else 0),
    late := [] }

/-- The job of an SPMM. -/
def Ctx.sparseJob (c : Ctx) : Job := if c.pkt.hdr.opcode = 0x0202 ∧ c.trans then c.transJob else c.spmmJob

/-! Checks. -/

/-- The shape-slot number rule of R133. -/
def slotStatus (q n : Nat) : Option Nat := idStatus q 4096 n

/-- The checks of the two SPMM opcodes (R165, R186); `nm` tells SPMM_NM. -/
def Ctx.spmmFails (c : Ctx) (nm : Bool) : List Fail :=
  let a := c.desc 0
  let b := c.desc 1
  let d := c.desc 2
  let add := c.desc 3
  let bad := fun (x : Bool) (f : Nat) => failIf x 4 f ERR_DESCRIPTOR
  let tr := !nm && c.trans
  let outN := if tr then b.e 0 else b.e 1
  let inK := if tr then b.e 1 else b.e 0
  c.descFails 0 false ++ c.descFails 1 false ++ c.descFails 2 true ++ c.descFails 3 false
    ++ bad (decide (a.kind ≠ 0)) 0 ++ bad (decide (7 ≤ a.fmt)) 0
    ++ bad (if nm then !kindIsNm b.kind else !(b.kind == 1 || (b.kind == 0 && c.gathers && !tr))) 1
    ++ bad (decide (7 ≤ b.fmt)) 1 ++ bad (a.fmt != b.fmt) 1 ++ bad (a.e 0 != inK) 1
    ++ bad (b.e 2 != 1 || b.e 3 != 1 || b.e 4 != 1) 1
    ++ bad (decide (d.kind ≠ 0)) 2 ++ bad (fmtIsGri d.fmt) 2
    ++ bad (d.e 1 != a.e 1 || d.e 0 != outN || d.e 2 != a.e 2 || d.e 3 != a.e 3 || d.e 4 != a.e 4) 2
    ++ (if c.has 3 then
          bad (decide (add.kind ≠ 0)) 3 ++ bad (fmtIsGri add.fmt) 3 ++ bad (add.ext != d.ext) 3
            ++ bad (fmtIsWide d.fmt && !fmtIsWide add.fmt) 3
        else [])
    ++ c.epilogueFails
    ++ (if tr then bad (!b.twinCurrent (c.item 12)) 12 else [])
    ++ bad (c.f32 0x68).isNan 15
    ++ (if c.gathers then failOpt (slotStatus c.q c.activeSlot) 4 16 else [])
    ++ bad (nm && c.trans) 17 ++ bad (c.audit && !c.gathers) 17 ++ bad (c.audit && c.trans) 17
    ++ c.mulFails

/-- The arrays of an SPMM (R165, R186). -/
def Ctx.spmmAccs (c : Ctx) (nm : Bool) : List Acc :=
  let tr := !nm && c.trans
  c.acc 0 false ++ c.acc 1 false ++ c.acc 2 true ++ c.acc 3 false ++ c.mulAcc
    ++ (if tr then accMem 12 false (c.addr 0x50) ((c.desc 1).twinBytes (c.desc 1).csrCapacity) 64 else [])
    ++ (if c.gathers then [⟨13, false, regionOf (c.addr 0x58) (4 * (c.slot c.activeSlot).1), decide (c.addr 0x58 % 64 = 0), none⟩]
        else [])
    ++ (if c.audit then accMem 14 true (c.addr 0x60) 64 64 else [])

/-- The items that the snapshot of a transposed product reads: the twin header (R185). -/
def Ctx.twinItem (c : Ctx) : List Item := if c.trans then [⟨12, c.addr 0x50, 64, 64⟩] else []

/-- SPMM_CSR (R165–R170, R186). -/
def specSpmmCsr : OpSpec :=
  { code := 0x0202, classes := tensorClasses, len := fun _ => 112, descs := matmulPtrs, engine := some 0x2E,
    slots := fun b => if fieldAt b 0x6C 2 = 0xFFFF then [] else [fieldAt b 0x6C 2], items := Ctx.twinItem,
    fails := fun c => c.spmmFails false, accs := fun c => c.spmmAccs false, exempt := [(2, 3)],
    buffers := fun c => c.sparseJob.buffers,
    clamps := fun c => clampBit 8 1 64 (c.u 0x30 2) ++ (if (c.desc 2).trimClamped then [2] else []) }

/-- SPMM_NM (R165–R170). -/
def specSpmmNm : OpSpec :=
  { code := 0x0203, classes := tensorClasses, len := fun _ => 112, descs := matmulPtrs, engine := some 0x2E,
    slots := fun b => if fieldAt b 0x6C 2 = 0xFFFF then [] else [fieldAt b 0x6C 2],
    fails := fun c => c.spmmFails true, accs := fun c => c.spmmAccs true, exempt := [(2, 3)],
    buffers := fun c => c.sparseJob.buffers,
    clamps := fun c => clampBit 8 1 64 (c.u 0x30 2) ++ (if (c.desc 2).trimClamped then [2] else []) }

/-- SPMM_CSR runs (R166). -/
def execSpmmCsr (p : PacketRef) (s : State) : Host.Outcome State Fault Refusal :=
  .next (runProduct 0x0202 Ctx.sparseJob p s)

/-- SPMM_NM runs (R167). -/
def execSpmmNm (p : PacketRef) (s : State) : Host.Outcome State Fault Refusal :=
  .next (runProduct 0x0203 Ctx.sparseJob p s)

end Sys2Proof.Machine
end

