-- ==== Sys2Proof/Machine/Compress.lean ====
section
/-! DEFINITION. Writing sparse tensors: COMPRESS (R160–R164), the CSR settling procedure and writer, TWIN_BUILD (R184), SPSP
(R171–R175) and PREDICT_ACTIVE (R177–R179). -/

namespace Sys2Proof.Machine

/-- How a CSR is laid out (R163): the slack settled on, the slots used, and for each sparse tile in entry order whether it is in dense
form, with the START and COUNT of its 64 tile rows. -/
structure CsrPlan where
  slack : Nat
  total : Nat
  tiles : List ((Nat × Nat) × Bool × List (Nat × Nat))
  deriving DecidableEq, Repr

/-- The sparse tiles of a CSR in entry order. -/
def Desc.csrTiles (d : Desc) : List (Nat × Nat) :=
  (List.range (ceilDiv (d.e 1) 64)).flatMap fun r => (List.range d.ct).map fun t => (r, t)

/-- The form and the capacities of one tile at a slack (R163). -/
def Desc.settleTile (d : Desc) (noFallback : Bool) (s wt : Nat) (counts : List Nat) : Bool × List Nat :=
  let caps := counts.map fun n => roundUp (n + s) 32
  let scaleBytes := fun (x : Nat) => if d.isScaled then x / 32 else 0
  let dense := 64 * roundUp wt 32
  let bSparse := caps.sum * (d.w + 16) + 8 * scaleBytes caps.sum + 8 * 512
  let bDense := dense * d.w + 8 * scaleBytes dense + 8 * 512
  if noFallback || decide (bSparse < bDense) then (false, caps) else (true, List.replicate 64 (roundUp wt 32))

/-- The layout at a slack, tiles one after the other from slot 0. -/
def Desc.layAt (d : Desc) (noFallback : Bool) (s : Nat) (counts : List ((Nat × Nat) × List Nat)) : CsrPlan :=
  counts.foldl (fun pl (rt, ns) =>
    let (dense, caps) := d.settleTile noFallback s (d.tileWidth rt.2) ns
    let rows := (caps.zip ns).foldl (fun (acc : Nat × List (Nat × Nat)) cn =>
      (acc.1 + cn.1, acc.2 ++ [(acc.1, if dense then d.tileWidth rt.2 else cn.2)])) (pl.total, [])
    { pl with total := rows.1, tiles := pl.tiles ++ [(rt, dense, rows.2)] }) ⟨s, 0, []⟩

/-- The settling procedure of R163: the largest slack whose layout fits the limit. -/
def Desc.settle (d : Desc) (noFallback : Bool) (limit : Nat) (counts : List ((Nat × Nat) × List Nat)) : Nat → Option CsrPlan
  | 0 => let pl := d.layAt noFallback 0 counts; if pl.total ≤ limit then some pl else none
  | s + 1 =>
    let pl := d.layAt noFallback (s + 1) counts
    if pl.total ≤ limit then some pl else d.settle noFallback limit counts s

/-- The stored positions of every tile row: their number, by tile. -/
def Desc.patternCounts (d : Desc) (has : Nat → Nat → Bool) : List ((Nat × Nat) × List Nat) :=
  d.csrTiles.map fun (r, t) => ((r, t), (List.range 64).map fun i =>
    if d.e 1 ≤ r * 64 + i then 0 else ((List.range (d.tileWidth t)).filter fun cc => has (r * 64 + i) (65536 * t + cc)).length)

/-- Values stored from a slot on, each 32-slot block with a scale of its own (R79, R161). -/
def Desc.storeSlots (d : Desc) (rg : RGroup) (slot : Nat) (os : List OutElt) : StoreOut :=
  let rnd := fun (i : Nat) => rg.rnd (d.indexBase + i)
  if d.isScaled then
    let bs := chunks 32 os.length os
    (((List.range bs.length).zip bs).map fun (b, es) =>
      let s0 := slot + 32 * b
      storeBlock d.fmt .choose ((List.range es.length).map fun i => rnd (s0 + i)) (d.base + s0 * d.w / 8)
        (d.scalePtr + s0 / 32) es).foldr StoreOut.add .empty
  else
    (((List.range os.length).zip os).map fun (i, o) =>
      storeOne d.fmt (rnd (slot + i)) (d.base + (slot + i) * d.w / 8) o).foldr StoreOut.add .empty

/-- A CSR written by its plan (R153, R154, R164): values and scales, column indices of compressed tiles, row entries, and the header;
`has` gives the pattern and `val` the value at a (row, column), and `bad` the row entries and indices of a (row, tile) that are poisoned. -/
def Desc.writeCsr (d : Desc) (rg : RGroup) (pl : CsrPlan) (nnz : Nat) (has bad : Nat → Nat → Bool) (val : Nat → Nat → OutElt) :
    StoreOut × List Write :=
  let one : ((Nat × Nat) × Bool × List (Nat × Nat)) → StoreOut × List Write := fun (rt, dense, rows) =>
    let rowsOut := ((List.range 64).zip rows).map fun (i, (start, count)) =>
      let row := rt.1 * 64 + i
      let pad := decide (d.e 1 ≤ row)
      let cols : List Nat := (List.range (d.tileWidth rt.2)).filter fun cc => dense || (!pad && has row (65536 * rt.2 + cc))
      let os := cols.map fun cc =>
        if pad || !has row (65536 * rt.2 + cc) then OutElt.ofNum (.fin 0) else val row (65536 * rt.2 + cc)
      let e := d.entryNo row rt.2
      (d.storeSlots rg start os,
       (if dense then ([] : List Write) else [⟨d.idx1 + 2 * start, cols.flatMap (toLe 2), bad row rt.2⟩])
         ++ [(⟨d.entryAddr e, toLe 8 (RowEntry.mk start count dense).bits, bad row rt.2⟩ : Write)])
    ((rowsOut.map (·.1)).foldr StoreOut.add StoreOut.empty, rowsOut.flatMap (·.2))
  let ts := pl.tiles.map one
  ((ts.map (·.1)).foldr StoreOut.add .empty,
   ts.flatMap (·.2) ++ [⟨d.idx0, toLe 4 pl.total ++ toLe 4 nnz ++ toLe 4 (d.csrGen + 1), false⟩])

/-- Tiles of a plan in dense form. -/
def CsrPlan.denseTiles (pl : CsrPlan) : Nat := (pl.tiles.filter (·.2.1)).length

/-! COMPRESS. -/

/-- CAP_LIMIT clamped down to a multiple of 32 (R160). -/
def Ctx.capLimit (c : Ctx) (off : Nat) : Nat := c.u off 4 / 32 * 32

/-- An element of X at a (row, column), outside D's owned window a zero (R161). -/
def Ctx.compressElt (c : Ctx) (x d : Desc) (row col : Nat) : Elt :=
  if d.owned [col, row] then c.s.elt x [col, row, 0, 0, 0] else ⟨.fin 0, false, 127, 0⟩

/-- A nonzero of R161. An element that reads as bad is taken as one (DESIGN CHOICE, log entry 13). -/
def Elt.nonzero (e : Elt) : Bool := e.bad || !e.v.isZero

/-- The output element of an element read. -/
def Elt.out (e : Elt) : OutElt := { OutElt.ofNum e.v with poison := e.bad }

/-- The output of an element of X: a WIDE160 source keeps no anchor in a sparse format. -/
def Ctx.compressHas (c : Ctx) (x d : Desc) (row col : Nat) : Bool := (c.compressElt x d row col).nonzero

/-- The plan of a COMPRESS into CSR, by the sweep of R163. -/
def Ctx.compressPlan (c : Ctx) : Option CsrPlan :=
  let x := c.loc 0
  let d := c.loc 1
  d.settle ((c.u 0x16 1).testBit 0) (c.capLimit 0x10) (d.patternCounts (c.compressHas x d)) (clampNat 0 4096 (c.u 0x14 2))

/-- The number of elements of X outside D's owned window. -/
def Ctx.compressClipped (c : Ctx) : Nat :=
  let d := c.desc 1
  ((List.range (d.e 0 * d.e 1)).filter fun n => !d.owned [n % d.e 0, n / d.e 0]).length

/-- The rank of a value for the choice of R162: NaN above ±∞ above every finite value. -/
def magLt (a b : Num) : Bool :=
  match a, b with
  | .nan, _ => false
  | _, .nan => true
  | x, y => x.abs.lt y.abs

/-- The positions an N:M group keeps, ascending, and whether it was truncated (R162). `vs` are the group's elements. -/
def nmChoose (n : Nat) (vs : List Elt) : List Nat × Bool :=
  let cand := (List.range vs.length).filter fun i => ((vs[i]?).map Elt.nonzero).getD false
  let v := fun (i : Nat) => ((vs[i]?).map (·.v)).getD (.fin 0)
  let beats := fun (a b : Nat) => magLt (v b) (v a) || (!magLt (v a) (v b) && decide (a < b))
  let kept := cand.filter fun i => decide ((cand.filter fun k => beats k i).length < n)
  let free := (List.range vs.length).filter fun i => !kept.contains i && !cand.contains i
  let fill := free.take (n - kept.length)
  ((List.range vs.length).filter fun i => kept.contains i || fill.contains i, decide (n < cand.length))

/-- A row of an N:M tensor written (R157, R162): its stores, its position bytes, and its nonzero values and truncated groups. A zero that fills
a group keeps the sign that X has at its column (DESIGN CHOICE, log entry 89). -/
def Ctx.compressNmRow (c : Ctx) (x d : Desc) (rg : RGroup) (row : Nat) : StoreOut × Nat × Nat :=
  let (m, n, b) := nmShape d.kind
  let gs := (List.range (d.e 0 / m)).map fun g =>
    let vs := (List.range m).map fun i => c.compressElt x d row (g * m + i)
    (vs, nmChoose n vs)
  let vals := gs.flatMap fun (vs, (ps, _)) => ps.map fun i => (vs[i]?).getD ⟨.fin 0, false, 127, 0⟩
  let os := vals.map fun e => c.scaled 1 e.out
  let g0 := row * d.vpr
  let rnd := fun (i : Nat) => rg.rnd (d.indexBase + g0 + i)
  let st :=
    if d.isScaled then
      let bs := chunks 32 os.length os
      (((List.range bs.length).zip bs).map fun (k, es) =>
        storeBlock d.fmt .choose ((List.range es.length).map fun i => rnd (32 * k + i)) (d.base + (g0 + 32 * k) * d.w / 8)
          (d.scalePtr + row * d.scaleStride + k) es).foldr StoreOut.add .empty
    else (((List.range os.length).zip os).map fun (i, o) =>
      storeOne d.fmt (rnd i) (d.base + (g0 + i) * d.w / 8) o).foldr StoreOut.add .empty
  let pos := packCodes b (gs.flatMap (·.2.1))
  let bad := gs.any fun g => g.1.any (·.bad)
  (st.add ⟨[⟨d.idx0 + b * g0 / 8, toLe (ceilDiv (b * d.vpr) 8) pos, bad⟩], .zero, 0, 0⟩,
   (vals.filter Elt.nonzero).length, (gs.filter (·.2.2)).length)

/-- The work of COMPRESS (R161–R164). -/
def Ctx.compressWork (c : Ctx) : WorkOut :=
  let x := c.loc 0
  let d := c.loc 1
  let rg := c.rgroup 0x18
  let clipped := c.compressClipped
  let tern := c.s.ternDense x
  if d.kind = 1 then
    match c.compressPlan with
    | none => { reads := x.spans, writes := [], res := { Result.of [ERR_DESCRIPTOR] 0 0 0 with field := 2 } }
    | some pl =>
      let has := c.compressHas x d
      let inTile := fun (rt : Nat × Nat) => ((List.range 64).map fun i => ((List.range (d.tileWidth rt.2)).filter fun cc =>
        decide (rt.1 * 64 + i < d.e 1) && has (rt.1 * 64 + i) (65536 * rt.2 + cc)).length).sum
      let stored := ((pl.tiles.filter fun t => !t.2.1).map fun t => inTile t.1).sum
      let within := ((pl.tiles.filter fun t => t.2.1).map fun t => inTile t.1).sum
      let (st, ws) := d.writeCsr rg pl (stored + within) has (fun _ _ => false) fun r k =>
        c.scaled 1 (c.compressElt x d r k).out
      let r := c.result 1 { st with clipped := clipped } [] (stored + within) pl.denseTiles
        (if pl.denseTiles = 0 then 0 else 1) tern
      { reads := x.spans, writes := st.writes ++ ws,
        res := { r with clamps := if pl.slack < clampNat 0 4096 (c.u 0x14 2) then [3] else [] } }
  else
    let rows := (List.range (d.e 1)).map (c.compressNmRow x d rg)
    let st := (rows.map (·.1)).foldr StoreOut.add .empty
    let trunc := (rows.map (·.2.2)).sum
    { reads := x.spans, writes := st.writes,
      res := c.result 1 { st with clipped := clipped } (if trunc = 0 then [] else [OK_NM_TRUNCATED]) (rows.map (·.2.1)).sum trunc 0
        tern }

/-- COMPRESS (R160, R163). -/
def specCompress : OpSpec :=
  { code := 0x0208, classes := tensorClasses, len := fun _ => 48, descs := ptrs [(0, 0), (1, 8)] [],
    fails := fun c =>
      let x := c.desc 0
      let d := c.desc 1
      let bad := fun (b : Bool) (f : Nat) => failIf b 4 f ERR_DESCRIPTOR
      c.descFails 0 false ++ c.descFails 1 true ++ bad (decide (x.kind ≠ 0)) 0 ++ bad (decide (x.rank ≠ 2)) 0
        ++ bad (fmtIsGri x.fmt) 0 ++ bad (x.ext != d.ext) 0 ++ bad (decide (d.kind = 0)) 1 ++ c.rmodeFails 7 0x18,
    accs := fun c => c.acc 0 false ++ c.accCap 1 true (c.capLimit 0x10),
    late := fun c => if (c.desc 1).kind = 1 ∧ c.compressPlan.isNone then [failAt 9 2 ERR_DESCRIPTOR] else [],
    clamps := fun c => (if (c.desc 1).trimClamped then [1] else []) ++
      (if (c.desc 1).kind = 1 then (if c.u 0x10 4 % 32 = 0 then [] else [2]) ++ clampBit 3 0 4096 (c.u 0x14 2) else []) }

/-- COMPRESS runs (R163). -/
def execCompress (p : PacketRef) (s : State) : Host.Outcome State Fault Refusal :=
  .next (runOpcode 0x0208 (fun _ => true) Ctx.compressWork p s)

/-! TWIN_BUILD. -/

/-- The index faults of every tile row of a CSR (R158, R159). -/
def State.csrFaults (s : State) (d : Desc) : Nat := ((Desc.csrRows d).map fun r => (s.csrRow d r).faults).sum

/-- TWIN_BUILD (R184). -/
def specTwinBuild : OpSpec :=
  { code := 0x020A, classes := tensorClasses, len := fun _ => 24, descs := ptrs [(0, 0)] [], engine := some 0x10,
    fails := fun c => c.descFails 0 false ++ failIf (decide ((c.desc 0).kind ≠ 1)) 4 0 ERR_DESCRIPTOR ++ c.engineFails 2 0x10,
    accs := fun c => c.acc 0 false ++ accMem 1 true (c.addr 8) ((c.desc 0).twinBytes (c.desc 0).csrCapacity) 64 }

/-- The work of TWIN_BUILD (R184): the header is written last, at step 1 of R40. -/
def Ctx.twinWork (c : Ctx) : WorkOut :=
  let d := c.loc 0
  let (ws, n) := twinWrites d (c.addr 8) (fun r t => (c.s.rowEntry d (d.entryNo (r * 64) t)).start) (c.s.tileForm d)
    (fun row t => c.s.tileRow d row t)
  let faults := c.s.csrFaults d
  { reads := c.s.csrSpans d d.csrRows false, writes := ws,
    res := { Result.of (if faults = 0 then [] else [ERR_INDEX_RANGE]) n faults 0 with
      late := [⟨c.addr 8, d.twinHeader d.csrGen d.csrCapacity, false⟩] } }

/-- TWIN_BUILD runs (R184). -/
def execTwinBuild (p : PacketRef) (s : State) : Host.Outcome State Fault Refusal :=
  .next (runOpcode 0x020A (fun _ => true) Ctx.twinWork p s)

/-! SPSP. -/

/-- The products of an output of SPSP (R172): the columns stored in both rows, with the scale blocks and values of each. -/
def spspHits (a b : BRow) : List (Nat × (Nat × Nat) × (Num × Num) × Bool) :=
  a.cells.filterMap fun x => (b.cells.find? fun y => y.1 == x.1).map fun y =>
    (x.1, (x.2.1, y.2.1), (x.2.2.v, y.2.2.v), x.2.2.bad || y.2.2.bad)

/-- The window of an output of SPSP (R174): a segment shares a scale block of A and one of B. A segment belongs to the part of its
lowest column (DESIGN CHOICE, log entry 14). -/
def spspWin (f nb : Nat) (a b : BRow) : OutWin :=
  let hits := spspHits a b
  let keys := dedupNat (hits.map fun h => h.2.1.1 * 2 ^ 40 + h.2.1.2)
  ⟨pairAnchor f (a.exps.map (·.2)) (b.exps.map (·.2)) ((ceilLog2 nb : Nat) + 1),
   keys.map fun k =>
    let mine := hits.filter fun h => h.2.1.1 * 2 ^ 40 + h.2.1.2 == k
    ((mine.map (·.1)).foldl min (2 ^ 40),
      ⟨expSum ((a.exps.lookup (k / 2 ^ 40)).getD none) ((b.exps.lookup (k % 2 ^ 40)).getD none), mine.map (·.2.2.1)⟩),
   hits.any (·.2.2.2) || a.bad || b.bad⟩

/-- The ranges of a part of a tile over the distinct columns of its B rows (R173): at most 2,048 of them, ended at column-tile
boundaries. Each is its first and last column and how many it holds. -/
def riddleRanges (lo hi : Nat) (cols : List Nat) : List (Nat × Nat × Nat) :=
  (List.range (ceilDiv hi 65536)).flatMap fun t =>
    let a := max lo (65536 * t)
    let z := min hi (65536 * (t + 1))
    if z ≤ a then []
    else
      let cs := chunks 2048 (cols.length + 1) (cols.filter fun k => decide (a ≤ k ∧ k < z))
      let starts := a :: (cs.drop 1).map fun x => x.headD a
      let cs' := if cs.isEmpty then [[]] else cs
      ((List.range cs'.length).zip cs').map fun (i, x) => ((starts[i]?).getD a, (starts[i + 1]?).getD z, x.length)

/-- The ranges that the riddle takes one after the other over some passes of a tile. -/
def spspRanges (k : Nat) (cols : List Nat) (ps : List Nat) : List (Nat × Nat × Nat) :=
  match ps.head?, ps.getLast? with
  | some p0, some p1 => riddleRanges (8192 * p0) (min k (8192 * (p1 + 1))) cols
  | _, _ => []

/-- The cycles of a part of a tile of SPSP (R173). -/
def spspCycles (k : Nat) (as bs : List BRow) (ps : List Nat) : Nat :=
  let cols := ((bs.flatMap fun r => r.cells.map (·.1)).foldl setIns [])
  ((spspRanges k cols ps).map fun (lo, hi, n) =>
    let na := (as.map fun r => (r.cells.filter fun x => decide (lo ≤ x.1 ∧ x.1 < hi)).length).foldl max 0
    ceilDiv n 64 + na + 8).sum

/-- A load of the riddle (R171): the distinct columns of a range stored in the B rows of a tile, each with the rows that hold it and their
value slots. The riddle is cleared first, so that it then holds these entries alone. -/
def riddleLoad (rows : List SparseRow) (lo hi : Nat) : List RiddleEntry :=
  let held := ((List.range rows.length).zip rows).flatMap fun ir =>
    (ir.2.cells.filter fun cl => cl.good && decide (lo ≤ cl.col ∧ cl.col < hi)).map fun cl => (cl.col, ir.1, cl.slot)
  ((held.map (·.1)).foldl setIns []).map fun k =>
    let mine := held.filter fun x => x.1 == k
    ⟨k % 65536, (mine.map fun x => 2 ^ x.2.1).sum, mine.map fun x => x.2.2⟩

/-- A lookup of a column in the riddle: its entry, or a miss. -/
def riddleLookup (es : List RiddleEntry) (k : Nat) : Option RiddleEntry := es.find? fun e => e.col == k % 65536

/-- The rows of the two operands of SPSP. -/
def Ctx.spspRows (c : Ctx) : List BRow × List BRow :=
  (((List.range ((c.desc 0).e 1)).map (c.s.bRow (c.loc 0))), ((List.range ((c.desc 1).e 1)).map (c.s.bRow (c.loc 1))))

/-- The empty row. -/
def BRow.empty : BRow := ⟨[], [], 0, false, false⟩

/-- The pattern of a CSR D of SPSP (R175): the outputs that have a hit, inside D's owned window. -/
def spspHas (d : Desc) (as bs : List BRow) (i j : Nat) : Bool :=
  d.owned [j, i] && !(spspHits ((as[i]?).getD .empty) ((bs[j]?).getD .empty)).isEmpty

/-- The plan of a CSR D of SPSP (R163, R175). -/
def Ctx.spspPlan (c : Ctx) : Option CsrPlan :=
  let (as, bs) := c.spspRows
  let d := c.loc 2
  d.settle ((c.u 0x22 1).testBit 0) (c.capLimit 0x18) (d.patternCounts (spspHas d as bs)) (clampNat 0 4096 (c.u 0x1C 2))

/-- D of SPSP as a dense output of the division of R114, whatever its kind. -/
def Ctx.spspOut (c : Ctx) : Desc := let d := c.loc 2; { d with ext := [d.e 0, d.e 1, 1, 1, 1] }

/-- The job of SPSP with a DENSE D (R172–R175). -/
def Ctx.spspJob (c : Ctx) : Job :=
  let a := c.loc 0
  let b := c.loc 1
  let d := c.spspOut
  let (as, bs) := c.spspRows
  let k := a.e 0
  let row := fun (l : List BRow) (i : Nat) => (l[i]?).getD .empty
  let nt := max 1 (ceilDiv (d.e 0) 64)
  let badA := fun (i : Nat) => ((as.drop (i / 64 * 64)).take 64).any (·.bad)
  let badB := fun (j : Nat) => ((bs.drop (j / 64 * 64)).take 64).any (·.bad)
  let faults := c.s.csrFaults a + c.s.csrFaults b
  { prods := [{ f := a.fmt, d := d, field := 2, passes := ceilDiv k 8192, width := 8192, tiles := d.tileCount,
                outs := d.tileOuts, plain := fun _ => none,
                win := fun n =>
                  let i := n / d.e 0
                  let j := n % d.e 0
                  let w := spspWin a.fmt (ceilDiv k 32) (row as i) (row bs j)
                  { w with bad := w.bad || badA i || badB j },
                epi := fun n sp =>
                  if (spspHits (row as (n / d.e 0)) (row bs (n % d.e 0))).isEmpty then OutElt.ofNum (.fin 0)
                  else c.epilogue 2 d none none sp,
                cycles := fun t ps => spspCycles k ((as.drop (t / nt * 64)).take 64) ((bs.drop (t % nt * 64)).take 64) ps,
                whole := decide ((c.desc 2).kind = 1) }],
    leaves := c.snap.leaves, splitMax := clampNat 1 64 (c.u 0x20 2), rg := c.rgroup 0x28, canSplit := true,
    reads := c.s.csrSpans a a.csrRows true ++ c.s.csrSpans b b.csrRows true,
    codes := if faults = 0 then [] else [ERR_INDEX_RANGE], count1 := faults, opflags := 0,
    tern := if a.fmt = 5 then (((as ++ bs).map fun r => (r.cells.filter fun x => x.2.2.code == 2).length)).sum else 0,
    late := [],
    riddle := fun t ps =>
      let rows := ((List.range 64).map fun i => t % nt * 64 + i).filter fun x => decide (x < b.e 1)
      let srs := rows.map (c.s.csrRow b)
      let cols := (srs.flatMap fun r => (r.cells.filter (·.good)).map (·.col)).foldl setIns []
      match (spspRanges k cols ps).getLast? with
      | some (lo, hi, _) => riddleLoad srs lo hi
      | none => [] }

/-- A CSR D of SPSP written from the windows of its outputs (R175): the stores, the index arrays, the window losses, and the tiles in
dense form with the clamp of a smaller slack. -/
def Ctx.spspCsr (c : Ctx) (j : Job) (elem : Nat → OutElt) : StoreOut × List Write × Nat × Nat × List Nat :=
  match c.spspPlan with
  | none => (.empty, [], 0, 0, [])
  | some pl =>
    let d := c.loc 2
    let (as, bs) := c.spspRows
    let has := spspHas d as bs
    let ns := (List.range (d.e 0 * d.e 1)).filter fun n => has (n / d.e 0) (n % d.e 0)
    let clipped := ((List.range (d.e 0 * d.e 1)).filter fun n =>
      !d.owned [n % d.e 0, n / d.e 0] && !(spspHits ((as[n / d.e 0]?).getD .empty) ((bs[n % d.e 0]?).getD .empty)).isEmpty).length
    let bad := fun (r t : Nat) => ((as[r]?).getD .empty).bad || ((bs.drop (65536 * t)).take 65536).any (·.bad)
    let (st, ws) := d.writeCsr j.rg pl ns.length has bad fun r k => elem (r * d.e 0 + k)
    ({ st with clipped := clipped }, ws, (ns.map fun n => if (elem n).poison then 0 else (elem n).losses).sum, pl.denseTiles,
      if pl.slack < clampNat 0 4096 (c.u 0x1C 2) then [4] else [])

/-- SPSP's result for a CSR D, added to what the packet already reports. -/
def Ctx.spspCsrResult (c : Ctx) (j : Job) (elem : Nat → OutElt) (base : Result) : Result × List Write :=
  let (st, ws, losses, dense, clamps) := c.spspCsr j elem
  ({ base with codes := base.codes ++ lossNote losses, count0 := base.count0 + losses,
               opflags := base.opflags ||| (if dense = 0 then 0 else 4) ||| (if st.clipped = 0 then 0 else 128),
               watch := base.watch ++ c.watchDelta 2 st, clipped := base.clipped + st.clipped, clamps := base.clamps ++ clamps },
   st.writes ++ ws)

/-- SPSP with a CSR D whose reductions are not split. -/
def Ctx.spspCsrWork (c : Ctx) (j : Job) : WorkOut :=
  let div := j.divide c.s.faultyArrays
  let d := c.spspOut
  let elem := fun (n : Nat) =>
    match j.prods.head? with
    | some p =>
      let t := n / d.e 0 / 64 * ceilDiv (d.e 0) 64 + n % d.e 0 / 64
      let w := p.win n
      p.element (div.poisoned.contains (0, t)) n w.bad (p.partWin 1 0 w)
    | none => .bad
  let (r, ws) := c.spspCsrResult j elem
    { Result.of j.codes 0 j.count1 (c.pkt.spillFlag + if j.split = 1 then 0 else 1) with ternInvalid := j.tern }
  let w : WorkOut := { reads := j.reads, writes := ws, res := r }
  j.onArrays div c w

/-- SPSP (R172, R175). -/
def specSpsp : OpSpec :=
  { code := 0x0204, classes := tensorClasses, len := fun _ => 64, descs := ptrs [(0, 0), (1, 8), (2, 0x10)] [],
    engine := some 0x1E,
    fails := fun c =>
      let a := c.desc 0
      let b := c.desc 1
      let d := c.desc 2
      let bad := fun (x : Bool) (f : Nat) => failIf x 4 f ERR_DESCRIPTOR
      c.descFails 0 false ++ c.descFails 1 false ++ c.descFails 2 true ++ bad (decide (a.kind ≠ 1)) 0
        ++ bad (decide (b.kind ≠ 1)) 1 ++ bad (!a.sameFormat b || a.e 0 != b.e 0) 1
        ++ bad (decide (1 < d.kind)) 2 ++ bad (fmtIsGri d.fmt) 2 ++ bad (d.ext != [b.e 1, a.e 1, 1, 1, 1]) 2
        ++ c.engineFails 5 0x1E ++ c.rmodeFails 10 0x28,
    accs := fun c => c.acc 0 false ++ c.acc 1 false ++ c.accCap 2 true (c.capLimit 0x18),
    late := fun c => if (c.desc 2).kind = 1 ∧ c.spspPlan.isNone then [failAt 9 3 ERR_DESCRIPTOR] else [],
    buffers := fun c => c.spspJob.buffers,
    clamps := fun c => clampBit 6 1 64 (c.u 0x20 2) ++ (if (c.desc 2).trimClamped then [2] else [])
      ++ (if (c.desc 2).kind = 1 then (if c.u 0x18 4 % 32 = 0 then [] else [3]) ++ clampBit 4 0 4096 (c.u 0x1C 2) else []) }

/-- SPSP runs (R173). A CSR D is written whole, when the last window of its outputs is known. -/
def execSpsp (p : PacketRef) (s : State) : Host.Outcome State Fault Refusal :=
  match s.packet p with
  | some k =>
    match s.ctx p.part k with
    | some c =>
      if (c.desc 2).kind = 1 ∧ c.spspJob.split = 1 then .next (runOpcode 0x0204 (fun _ => true) (fun c => c.spspCsrWork c.spspJob) p s)
      else .next (runProduct 0x0204 Ctx.spspJob p s)
    | none => .next s
  | none => .next s

/-! PREDICT_ACTIVE. -/

/-- T[m, n] of R178: exact, or |H[m, n]| for OBSERVE; NaN where an input is not a number. -/
def Ctx.predictT (c : Ctx) : List (List Num) × Bool :=
  if c.u 0x32 1 = 2 then
    let h := c.loc 3
    let at_ := fun (m n : Nat) => c.s.elt h [n, m, 0, 0, 0]
    ((List.range (h.e 0)).map fun n => (List.range (h.e 1)).map fun m => (at_ m n).v.abs,
     (List.range (h.e 0)).any fun n => (List.range (h.e 1)).any fun m => (at_ m n).bad)
  else
    let x := c.loc 0
    let p1 := c.loc 1
    let p2 := c.loc 2
    let s := (List.range (x.e 1)).map fun m => (List.range (p1.e 1)).map fun j =>
      let w := denseWin x.fmt (c.s.rowBlocks x [0, m, 0, 0, 0]) (c.s.rowBlocks p1 [0, j, 0, 0, 0])
      (decodeElt 1 (encodeUnscaled 1 .rne (OutElt.ofNum (windowAt x.fmt w.anchor (w.terms.map (·.2))).w.num)).1, w.bad)
    let t := (List.range (p2.e 1)).map fun n => s.map fun row =>
      ((List.range row.length).zip row).foldl (fun acc (j, sv) =>
        let e := c.s.elt p2 [j, n, 0, 0, 0]
        ((acc.1.add (sv.1.mul e.v)), acc.2 || sv.2 || e.bad)) (Num.fin 0, false)
    (t.map fun r => r.map (·.1), t.any fun r => r.any (·.2))

/-- The largest T of a neuron; `none` when every one is NaN or there is no token (R178). -/
def peakOf (ts : List Num) : Option Num :=
  (ts.filter fun v => !v.isNan).foldl (fun m v => match m with
    | none => some v
    | some x => some (if x.below v then v else x)) none

/-- The neurons in descending peak, the lower first on a tie; a neuron without a peak ranks last (R179). -/
def rankPeaks (ps : List (Nat × Option Num)) : List (Nat × Option Num) :=
  let before := fun (a b : Nat × Option Num) =>
    match a.2, b.2 with
    | none, none => decide (a.1 < b.1)
    | none, some _ => false
    | some _, none => true
    | some x, some y => if y.below x then true else if x.below y then false else decide (a.1 < b.1)
  sortBy before ps

/-- The neurons chosen, and those that qualified before the cap (R179). -/
def Ctx.predict (c : Ctx) : List Nat × Nat × Bool :=
  let (t, bad) := c.predictT
  let thresh := c.f32 0x28
  let n := t.length
  let idx := (List.range n).zip t
  let peaks := idx.map fun (i, r) => (i, peakOf r)
  let qual :=
    if c.u 0x32 1 = 1 then ((rankPeaks peaks).take (clampNat 1 (max 1 n) (c.u 0x2C 4))).map (·.1)
    else (idx.filter fun (_, r) => decide (clampNat 1 255 (c.u 0x33 1) ≤ (r.filter fun v => !v.isNan && thresh.below v).length)).map (·.1)
  let cap := (c.slot (c.u 0x30 2)).1
  let kept := if qual.length ≤ cap then qual
    else ((rankPeaks (peaks.filter fun q => qual.contains q.1)).take cap).map (·.1)
  ((List.range n).filter fun i => kept.contains i, qual.length, bad)

/-- The work of PREDICT_ACTIVE (R178, R179). -/
def Ctx.predictWork (c : Ctx) : WorkOut :=
  let (list, qual, bad) := c.predict
  let cap := (c.slot (c.u 0x30 2)).1
  let fs := if c.u 0x32 1 = 2 then [3] else [0, 1, 2]
  { reads := fs.flatMap fun f => (c.loc f).spans, writes := [⟨c.addr 0x20, list.flatMap (toLe 4), bad⟩],
    res := { Result.of [] list.length qual 0 with
      slots := [(c.u 0x30 2, list.length)], clamps := if cap < qual then [30] else [],
      ternInvalid := (fs.map fun f => c.s.ternDense (c.loc f)).sum } }

/-- PREDICT_ACTIVE (R177). Its product S takes M × J BF16 values of working space (R178). -/
def specPredictActive : OpSpec :=
  { code := 0x0207, classes := tensorClasses, len := fun _ => 56,
    descs := fun b => if fieldAt b 0x32 1 = 2 then [(3, 0x18)] else if fieldAt b 0x32 1 < 2 then [(0, 0), (1, 8), (2, 0x10)] else [],
    produces := fun b => [fieldAt b 0x30 2], engine := some 0x34,
    fails := fun c =>
      let x := c.desc 0
      let p1 := c.desc 1
      let p2 := c.desc 2
      let h := c.desc 3
      let bad := fun (b : Bool) (f : Nat) => failIf b 4 f ERR_DESCRIPTOR
      let flat := fun (d : Desc) => d.e 2 == 1 && d.e 3 == 1 && d.e 4 == 1
      let obs := c.u 0x32 1 == 2
      c.descFails 0 false ++ c.descFails 1 false ++ c.descFails 2 false ++ c.descFails 3 false
        ++ (if obs then bad (decide (h.kind ≠ 0) || fmtIsGri h.fmt || !flat h) 3
            else bad (decide (x.kind ≠ 0) || decide (7 ≤ x.fmt) || !flat x) 0
              ++ bad (decide (p1.kind ≠ 0) || decide (7 ≤ p1.fmt) || x.fmt != p1.fmt || x.e 0 != p1.e 0 || !flat p1
                  || decide (4096 < p1.e 1)) 1
              ++ bad (c.u 0x32 1 < 2 && (decide (p2.kind ≠ 0) || p2.fmt != 1 || p2.e 0 != p1.e 1 || !flat p2)) 2)
        ++ bad (c.f32 0x28).isNan 5 ++ failOpt (slotStatus c.q (c.u 0x30 2)) 4 7 ++ bad (decide (2 < c.u 0x32 1)) 8
        ++ c.engineFails 10 0x34,
    accs := fun c => c.acc 0 false ++ c.acc 1 false ++ c.acc 2 false ++ c.acc 3 false
      ++ accMem 4 true (c.addr 0x20) (4 * (c.slot (c.u 0x30 2)).1) 64,
    buffers := fun c => if c.u 0x32 1 = 2 ∨ (c.desc 0).e 1 * (c.desc 1).e 1 = 0 then []
      else [⟨2 * ((c.desc 0).e 1 * (c.desc 1).e 1), false⟩],
    clamps := fun c =>
      let n := if c.u 0x32 1 = 2 then (c.desc 3).e 0 else (c.desc 2).e 1
      clampBit 6 1 (max 1 n) (c.u 0x2C 4) ++ clampBit 9 1 255 (c.u 0x33 1) }

/-- PREDICT_ACTIVE runs (R179). -/
def execPredictActive (p : PacketRef) (s : State) : Host.Outcome State Fault Refusal :=
  .next (runOpcode 0x0207 (fun _ => true) Ctx.predictWork p s)

end Sys2Proof.Machine
end

