-- ==== Sys2Proof/Machine/Ingest.lean ====
section
/-! DEFINITION. Video ingest: TS_DEMUX (R355–R359), DECODE (R360–R366), PATCHIFY (R367–R370) and SHUFFLE_PLAN (R371). -/

namespace Sys2Proof.Machine

/-! TS_DEMUX. -/

/-- Bytes per transport packet, by PKT (Table 15.2). -/
def tsSize (pkt : Nat) : Nat := if pkt = 1 then 192 else 188

/-- REC_CAP after its clamp (R356). -/
def Ctx.recCap (c : Ctx) : Nat := clampNat 1 65536 (c.u 0x30 4)

/-- Whether a live packet of the partition with the same opcode names the same area at an offset (R357, R362). -/
def Ctx.areaTaken (c : Ctx) (off : Nat) : Bool :=
  (c.s.part c.p).packets.any fun k =>
    k.hdr.opcode == c.pkt.hdr.opcode && !(k.ring == c.pkt.ring && k.idx == c.pkt.idx)
      && (match k.snap with
          | some sn => fieldAt sn.params off 8 == c.addr off
          | none => false)

/-- The rule for a named shape slot (R133); 0xFFFF names none. -/
def Ctx.namedSlot (c : Ctx) (n field : Nat) : List Fail := if n = 0xFFFF then [] else failOpt (idStatus c.q 4096 n) 4 field

/-- A slot number at an offset of the parameter block, none for 0xFFFF. -/
def slotAt (off : Nat) (b : List Byte) : List Nat := if fieldAt b off 2 = 0xFFFF then [] else [fieldAt b off 2]

/-- TS_DEMUX (Table 15.3). -/
def specTsDemux : OpSpec :=
  { code := 0x0701, classes := [.I], len := fun _ => 80, produces := slotAt 0x34,
    fails := fun c =>
      let auto := (c.u 0xD 1).testBit 0
      failIf (decide (1 < c.u 0xC 1)) 4 2 ERR_DESCRIPTOR ++ failIf (c.areaTaken 0x10) 4 5 ERR_DESCRIPTOR
        ++ failIf (decide (0x1FFF < c.u 0x24 2) || (!auto && c.u 0x24 2 == 0x1FFF)) 4 8 ERR_DESCRIPTOR
        ++ failIf (decide (0x1FFF < c.u 0x26 2)) 4 9 ERR_DESCRIPTOR ++ c.namedSlot (c.u 0x34 2) 12
        ++ failIf (decide (c.u 8 4 % tsSize (c.u 0xC 1) ≠ 0)) 7 1 ERR_ALIGN ++ failIf (decide (c.u 0x20 4 % 64 ≠ 0)) 7 7 ERR_ALIGN
        ++ failIf (decide (c.u 0x40 4 % 64 ≠ 0)) 7 14 ERR_ALIGN,
    accs := fun c => accMem 0 false (c.addr 0) (c.u 8 4) 64 ++ accMem 5 true (c.addr 0x10) 512 64
      ++ accMem 6 true (c.addr 0x18) (c.u 0x20 4) 64 ++ accMem 10 true (c.addr 0x28) (32 * c.recCap) 64
      ++ (if c.addr 0x38 = 0 then [] else accMem 13 true (c.addr 0x38) (c.u 0x40 4) 64),
    clamps := fun c => clampBit 11 1 65536 (c.u 0x30 4) }

/-- A byte of a packet as a number. -/
def byteAt (b : List Byte) (i : Nat) : Nat := (b[i]?.getD 0).toNat

/-- A PES packet that is open: its header as far as it has come, the running offset of its first payload byte, its payload bytes, those
its length still announces, its FLAGS, and whether it is formed from poison. -/
structure Pes where
  head : List Byte
  off : Nat
  len : Nat
  left : Option Nat
  flags : Nat
  bad : Bool
  deriving DecidableEq, Repr

/-- The settings of a TS_DEMUX. -/
structure DemuxSet where
  esPtr : Nat
  esLen : Nat
  auto : Bool
  program : Nat
  audPid : Nat
  audPtr : Nat
  audLen : Nat
  deriving DecidableEq, Repr

/-- The progress of a TS_DEMUX: what the context keeps, with the audio PES packets dropped and the scrambled packets discarded in the stream so
far, and what this packet has put out. -/
structure Demux where
  off : Nat
  count : Nat
  pid : Option Nat
  pmt : Option Nat
  codec : Nat
  ccs : List (Nat × Nat)
  pes : Option Pes
  audio : Option (List Byte × Bool)
  sections : List (Nat × List Byte)
  ring : List Write
  recs : List (List Byte × Bool)
  audOut : List Write
  audUsed : Nat
  dropped : Nat
  scrambled : Nat
  marked : Bool
  deriving DecidableEq, Repr

/-- The open PES packet marked (R355). -/
def Demux.mark (d : Demux) (flag : Nat) : Demux :=
  match d.pes with
  | none => d
  | some p => { d with pes := some { p with flags := p.flags ||| flag }, marked := d.marked || flag == 2 }

/-- A time stamp of a PES header at an offset, with its valid bit (Table 15.4). -/
def pesStamp (h : List Byte) (i : Nat) : Nat :=
  2 ^ 63 + byteAt h i / 2 % 8 * 2 ^ 30 + byteAt h (i + 1) * 2 ^ 22 + byteAt h (i + 2) / 2 * 2 ^ 15 + byteAt h (i + 3) * 2 ^ 7
    + byteAt h (i + 4) / 2

/-- Whether a stream_id has no optional header (ISO/IEC 13818-1). -/
def plainStream (id : Nat) : Bool := [0xBC, 0xBE, 0xBF, 0xF0, 0xF1, 0xF2, 0xF8, 0xFF].contains id

/-- The bytes of the header as far as it is known. -/
def pesHeadLen (h : List Byte) : Nat :=
  if h.length < 6 then 6 else if plainStream (byteAt h 3) then 6 else if h.length < 9 then 9 else 9 + byteAt h 8

/-- The open PES packet ends and its record is made (R358, R359). -/
def Demux.close (cfg : DemuxSet) (d : Demux) : Demux :=
  match d.pes with
  | none => d
  | some p =>
    let n := cfg.esLen
    let long := decide (n < p.len)
    let short := decide (p.head.length < pesHeadLen p.head)
    let flags := if long || short || leNat (p.head.take 3) != 0x010000 then p.flags ||| 2 else p.flags
    let first := if long then p.off + p.len - n else p.off
    let opt := !plainStream (byteAt p.head 3) && decide (9 ≤ p.head.length)
    let marks := if opt then byteAt p.head 7 / 64 else 0
    let codec := if cfg.auto then d.codec else (Config.recordCodec d.count).toNat
    let r := toLe 4 (if n = 0 then 0 else first % n) ++ toLe 4 (min p.len n)
      ++ toLe 8 (if 2 ≤ marks ∧ 14 ≤ p.head.length then pesStamp p.head 9 else 0)
      ++ toLe 8 (if marks = 3 ∧ 19 ≤ p.head.length then pesStamp p.head 14 else 0)
      ++ toLe 2 flags ++ toLe 1 codec ++ toLe 1 0 ++ toLe 4 d.count
    { d with pes := none, recs := d.recs ++ [(r, p.bad)], count := d.count + 1, marked := d.marked || flags.testBit 1 }

/-- Bytes put into the ring at a running offset; `fuel` bounds the turns of the ring. -/
def ringWrites (ptr len : Nat) : Nat → Nat → List Byte → Bool → List Write
  | 0, _, _, _ => []
  | _, _, [], _ => []
  | fuel + 1, off, bs, bad =>
    if len = 0 then []
    else
      let n := len - off % len
      ⟨ptr + off % len, bs.take n, bad⟩ :: ringWrites ptr len fuel (off + n) (bs.drop n) bad

/-- Bytes of the video PID that belong to the open PES packet: its header first, then its payload into the ring. -/
def Demux.feed (cfg : DemuxSet) : Nat → List Byte → Bool → Demux → Demux
  | 0, _, _, d => d
  | fuel + 1, bs, bad, d =>
    match d.pes with
    | none => d
    | some p =>
      let want := pesHeadLen p.head
      if p.head.length < want then
        if bs.isEmpty then d
        else
          let h := p.head ++ bs.take (want - p.head.length)
          let total := byteAt h 4 * 256 + byteAt h 5
          let left := if h.length < 6 ∨ total = 0 then none else some (total + 6 - pesHeadLen h)
          Demux.feed cfg fuel (bs.drop (want - p.head.length)) bad
            { d with pes := some { p with head := h, off := d.off, left := left, bad := p.bad || bad } }
      else
        let take := match p.left with | some n => bs.take n | none => bs
        let p1 := { p with len := p.len + take.length, left := p.left.map (· - take.length), bad := p.bad || bad }
        let d1 := { d with pes := some p1, off := d.off + take.length,
                           ring := d.ring ++ ringWrites cfg.esPtr cfg.esLen (take.length / 64 + 2) d.off take bad }
        if p1.left = some 0 then d1.close cfg else d1

/-- The audio PES packet that is open ends and is put out where it fits; else it is dropped whole and counted (R359). -/
def Demux.putAudio (cfg : DemuxSet) (d : Demux) : Demux :=
  match d.audio with
  | none => d
  | some (bs, bad) =>
    if cfg.audLen < d.audUsed + bs.length then { d with dropped := d.dropped + 1, audio := none }
    else { d with audOut := d.audOut ++ [⟨cfg.audPtr + d.audUsed, bs, bad⟩], audUsed := d.audUsed + bs.length, audio := none }

/-- Bytes of the audio PID, which belong to the open PES packet until its PES_packet_length is reached (R358). -/
def Demux.feedAudio (cfg : DemuxSet) (bs : List Byte) (bad : Bool) (d : Demux) : Demux :=
  match d.audio with
  | none => d
  | some (old, b) =>
    let a := old ++ bs
    let n := byteAt a 4 * 256 + byteAt a 5
    if n ≠ 0 ∧ 6 + n ≤ a.length then { d with audio := some (a.take (6 + n), b || bad) }.putAudio cfg else { d with audio := some (a, b || bad) }

/-- CODEC of a stream type that Table 15.2 lists as video, with whether its descriptors register "AV01". -/
def videoCodec (streamType : Nat) (av1 : Bool) : Option Nat :=
  if streamType = 0x02 then some 0 else if streamType = 0x1B then some 1 else if streamType = 0x24 then some 2
  else if streamType = 0x06 ∧ av1 then some 3 else none

/-- Whether descriptors hold a registration descriptor "AV01"; `fuel` bounds their number. -/
def registersAv1 : Nat → List Byte → Bool
  | 0, _ => false
  | fuel + 1, b =>
    if b.length < 2 then false
    else if byteAt b 0 = 5 ∧ 4 ≤ byteAt b 1 ∧ (b.drop 2).take 4 = [0x41, 0x56, 0x30, 0x31] then true
    else registersAv1 fuel (b.drop (2 + byteAt b 1))

/-- The first video stream of a PMT's stream loop: its PID and CODEC; `fuel` bounds the streams. -/
def firstVideo : Nat → List Byte → Option (Nat × Nat)
  | 0, _ => none
  | fuel + 1, b =>
    if b.length < 5 then none
    else
      let n := byteAt b 3 % 16 * 256 + byteAt b 4
      match videoCodec (byteAt b 0) (registersAv1 (n / 2 + 1) ((b.drop 5).take n)) with
      | some k => some (byteAt b 1 % 32 * 256 + byteAt b 2, k)
      | none => firstVideo fuel (b.drop (5 + n))

/-- The PMT's PID of a program in the loop of a PAT; `fuel` bounds the programs. -/
def patProgram (program : Nat) : Nat → List Byte → Option Nat
  | 0, _ => none
  | fuel + 1, b =>
    if b.length < 4 then none
    else if byteAt b 0 * 256 + byteAt b 1 = program ∧ program ≠ 0 then some (byteAt b 2 % 32 * 256 + byteAt b 3)
    else patProgram program fuel (b.drop 4)

/-- A whole section of the PAT or the PMT taken (R355, R358): one that fails its CRC, or is not yet current, is ignored. -/
def Demux.takeSection (cfg : DemuxSet) (pid : Nat) (b : List Byte) (d : Demux) : Demux :=
  if crcMpeg b ≠ 0 ∨ byteAt b 5 % 2 = 0 then d
  else
    let body := b.take (b.length - 4)
    if pid = 0 ∧ byteAt b 0 = 0 then
      match d.pmt, patProgram cfg.program (b.length / 4 + 1) (body.drop 8) with
      | none, some p => { d with pmt := some p }
      | _, _ => d
    else if d.pmt = some pid ∧ byteAt b 0 = 2 ∧ d.pid = none ∧ byteAt b 3 * 256 + byteAt b 4 = cfg.program then
      let info := byteAt b 10 % 16 * 256 + byteAt b 11
      match firstVideo (b.length / 5 + 1) (body.drop (12 + info)) with
      | some (p, k) => { d with pid := some p, codec := k }
      | none => d
    else d

/-- The whole sections at the front of collected bytes; `fuel` bounds their number. -/
def Demux.takeSections (cfg : DemuxSet) (pid : Nat) : Nat → List Byte → Demux → Demux × List Byte
  | 0, b, d => (d, b)
  | fuel + 1, b, d =>
    if b.length < 3 ∨ byteAt b 0 = 0xFF then (d, if byteAt b 0 = 0xFF then [] else b)
    else
      let n := 3 + byteAt b 1 % 16 * 256 + byteAt b 2
      if b.length < n then (d, b) else Demux.takeSections cfg pid fuel (b.drop n) (d.takeSection cfg pid (b.take n))

/-- A packet's payload given to the section that its PID collects. -/
def Demux.feedSection (cfg : DemuxSet) (pid : Nat) (start : Bool) (bs : List Byte) (d : Demux) : Demux :=
  let old := List.lookup pid d.sections
  let put := fun (d : Demux) (b : Option (List Byte)) =>
    { d with sections := d.sections.filter (·.1 ≠ pid) ++ (match b with | some b => [(pid, b)] | none => []) }
  if start then
    let ptr := byteAt bs 0
    let d1 := match old with
      | some o => (d.takeSections cfg pid 64 (o ++ (bs.drop 1).take ptr)).1
      | none => d
    let (d2, rest) := d1.takeSections cfg pid 64 (bs.drop (1 + ptr))
    put d2 (some rest)
  else
    match old with
    | none => d
    | some o => let (d2, rest) := d.takeSections cfg pid 64 (o ++ bs); put d2 (some rest)

/-- One transport packet of 188 bytes (R355, R358). -/
def Demux.packet (cfg : DemuxSet) (b : List Byte) (bad : Bool) (d : Demux) : Demux :=
  let pid := byteAt b 1 % 32 * 256 + byteAt b 2
  let video := d.pid == some pid
  let audio := cfg.audPtr != 0 && cfg.audPid != 0x1FFF && cfg.audPid == pid
  let tables := cfg.auto && (pid == 0 || d.pmt == some pid)
  let markIf := fun (x : Demux) => if video then x.mark 2 else x
  if !(video || audio || tables) then d
  else if byteAt b 0 ≠ 0x47 ∨ 128 ≤ byteAt b 1 then markIf d
  else if byteAt b 3 / 64 ≠ 0 then markIf { d with scrambled := d.scrambled + 1 }
  else
    let afc := byteAt b 3 / 16 % 4
    let hasAf := decide (2 ≤ afc)
    let afLen := if hasAf then byteAt b 4 else 0
    let afFlags := if hasAf ∧ 0 < afLen then byteAt b 5 else 0
    let load := if afc = 1 then b.drop 4 else if afc = 3 then b.drop (5 + afLen) else []
    let cc := byteAt b 3 % 16
    let last := List.lookup pid d.ccs
    let hasLoad := afc % 2 == 1
    if hasLoad && last == some cc && !afFlags.testBit 7 then d
    else
      let gap := hasLoad && !afFlags.testBit 7 && (match last with | some l => (l + 1) % 16 != cc | none => false)
      let start := byteAt b 1 / 64 % 2 == 1
      let d0 := if gap then markIf d else d
      let d1 := if hasLoad then { d0 with ccs := d0.ccs.filter (·.1 ≠ pid) ++ [(pid, cc)] } else d0
      if video then
        let d2 := if start && hasLoad then
          { d1.close cfg with pes := some ⟨[], (d1.close cfg).off, 0, none, 0, bad⟩ } else d1
        let d3 := if afFlags.testBit 6 then d2.mark 1 else d2
        let d4 := if afFlags.testBit 7 then d3.mark 4 else d3
        d4.feed cfg 6 load bad
      else if audio then
        let d2 := if start && hasLoad then { d1.putAudio cfg with audio := some ([], false) } else d1
        d2.feedAudio cfg load bad
      else if hasLoad then d1.feedSection cfg pid start load
      else d1

/-- The transport packets taken in order until the records run out (R359): the progress, and the packets consumed. -/
def Demux.run (cfg : DemuxSet) (cap : Nat) : List (List Byte × Bool) → Demux × Nat → Demux × Nat
  | [], acc => acc
  | (b, bad) :: rest, (d, n) =>
    let d1 := d.packet cfg b bad
    if cap < d1.recs.length then (d, n) else Demux.run cfg cap rest (d1, n + 1)

/-- The context as the model lays it out (R357; DESIGN CHOICE, log entry 25, but for bytes 0x00–0x0B). -/
def Demux.context (d : Demux) : List Byte :=
  let bit := fun (b : Bool) (n : Nat) => if b then 2 ^ n else 0
  let p := d.pes.getD ⟨[], 0, 0, none, 0, false⟩
  let cc := fun (i : Nat) => match d.ccs[i]? with
    | some (pid, c) => toLe 2 pid ++ toLe 1 c ++ toLe 1 1
    | none => toLe 4 0
  let body := toLe 8 d.off ++ toLe 4 d.count
    ++ toLe 1 (bit d.pid.isSome 0 + bit d.pmt.isSome 1 + bit d.pes.isSome 2 + bit p.left.isSome 3 + bit d.audio.isSome 4 + bit p.bad 5
      + bit (!d.sections.isEmpty) 6)
    ++ toLe 1 d.codec ++ toLe 2 (d.pid.getD 0) ++ toLe 2 (d.pmt.getD 0) ++ cc 0 ++ cc 1 ++ cc 2 ++ cc 3 ++ toLe 2 p.flags
    ++ toLe 2 p.head.length ++ toLe 2 0 ++ toLe 8 p.off ++ toLe 4 p.len ++ toLe 4 (p.left.getD 0) ++ toLe 4 d.scrambled ++ toLe 4 d.dropped ++ p.head
  body ++ List.replicate (512 - body.length) 0

/-- What a stream keeps beside its context. -/
def Demux.tail (d : Demux) (area : Nat) : Option DemuxTail :=
  if d.sections.isEmpty && d.audio.isNone then none else some ⟨area, d.sections, d.audio.getD ([], false)⟩

/-- The progress that a context holds, with what the stream keeps beside it. -/
def Demux.ofContext (b : List Byte) (tail : Option DemuxTail) (auto : Bool) (pid : Nat) : Demux :=
  let f := fun (off w : Nat) => fieldAt b off w
  let bit := fun (n : Nat) => (f 12 1).testBit n
  let hl := f 0x24 2
  { off := f 0 8, count := f 8 4, pid := if !auto then some pid else if bit 0 then some (f 14 2) else none,
    pmt := if bit 1 then some (f 16 2) else none, codec := f 13 1,
    ccs := (List.range 4).filterMap fun i => if f (18 + 4 * i + 3) 1 = 1 then some (f (18 + 4 * i) 2, f (18 + 4 * i + 2) 1) else none,
    pes := if bit 2 then some ⟨(b.drop 0x40).take hl, f 0x28 8, f 0x30 4, if bit 3 then some (f 0x34 4) else none, f 0x22 2, bit 5⟩
      else none,
    audio := if bit 4 then some ((tail.map (·.audio)).getD ([], false)) else none,
    sections := if bit 6 then (tail.map (·.sections)).getD [] else [],
    ring := [], recs := [], audOut := [], audUsed := 0, dropped := f 0x3C 4, scrambled := f 0x38 4, marked := false }

/-- The context's address. -/
def Ctx.demuxArea (c : Ctx) : Nat := c.shift (c.addr 0x10)

/-- The stream before a TS_DEMUX. -/
def Ctx.demuxBefore (c : Ctx) : Demux :=
  Demux.ofContext (c.s.read c.demuxArea 512) ((c.s.part c.p).demuxes.find? fun t => t.area == c.demuxArea) ((c.u 0xD 1).testBit 0) (c.u 0x24 2)

/-- The stream after it, and the transport packets consumed (R358, R359). -/
def Ctx.demuxed (c : Ctx) : Demux × Nat :=
  let size := tsSize (c.u 0xC 1)
  let ts := c.shift (c.addr 0)
  let cfg : DemuxSet :=
    { esPtr := c.shift (c.addr 0x18), esLen := c.u 0x20 4, auto := (c.u 0xD 1).testBit 0, program := c.u 0xE 2, audPid := c.u 0x26 2,
      audPtr := c.addr 0x38, audLen := c.u 0x40 4 }
  let allBad := c.s.badIn c.demuxArea 512
  let packets := (List.range (c.u 8 4 / size)).map fun i =>
    let a := ts + size * i
    (c.s.read (a + (size - 188)) 188, allBad || c.s.badIn a size)
  Demux.run cfg c.recCap packets (c.demuxBefore, 0)

/-- The work of a TS_DEMUX. -/
def Ctx.demuxWork (c : Ctx) : WorkOut :=
  let used := tsSize (c.u 0xC 1) * c.demuxed.2
  let old := c.demuxBefore
  let d := c.demuxed.1
  let rec_ := c.shift (c.addr 0x28)
  let recs := ((List.range d.recs.length).zip d.recs).map fun (i, r) => (⟨rec_ + 32 * i, r.1, r.2⟩ : Write)
  let flags := (if d.marked then 1 else 0) + (if old.dropped < d.dropped then 2 else 0) + if old.scrambled < d.scrambled then 4 else 0
  { reads := [(c.shift (c.addr 0), used), (c.demuxArea, 512)],
    writes := d.ring ++ recs ++ d.audOut ++ [⟨c.demuxArea, d.context, c.s.badIn c.demuxArea 512⟩],
    res := { Result.of [] d.recs.length used flags with slots := if c.u 0x34 2 = 0xFFFF then [] else [(c.u 0x34 2, d.recs.length)] } }

/-- What the stream keeps beside its context after a TS_DEMUX: the 512 B hold neither a section in part nor an open audio PES packet (R357, R358;
DESIGN CHOICE, log entry 25). -/
def Ctx.keepDemux (c : Ctx) (s : State) : State :=
  s.modPart c.p fun pt => { pt with demuxes := (pt.demuxes.filter fun t => t.area != c.demuxArea) ++ (c.demuxed.1.tail c.demuxArea).toList }

/-- TS_DEMUX runs (R358). -/
def execTsDemux (p : PacketRef) (s : State) : Host.Outcome State Fault Refusal :=
  .next (runThen 0x0701 (fun _ => true) Ctx.demuxWork Ctx.keepDemux p s)

/-! DECODE. -/

/-- NREC after its clamp (R362). -/
def Ctx.nrec (c : Ctx) : Nat := clampNat 1 4096 (c.u 0xE 2)

/-- FRM_CAP after its clamp. -/
def Ctx.frmCap (c : Ctx) : Nat := clampNat 1 1024 (c.u 0x2C 2)

/-- The bytes of a state area. -/
def stateArea : Nat := 2 ^ 28

/-- DECODE (Table 15.6). -/
def specDecode : OpSpec :=
  { code := 0x0702, classes := [.I], len := fun _ => 64, produces := slotAt 0x38,
    fails := fun c =>
      failIf (decide (3 < c.u 0xC 1)) 4 2 ERR_DESCRIPTOR ++ failIf (c.areaTaken 0x18) 4 6 ERR_DESCRIPTOR
        ++ c.namedSlot (c.u 0x38 2) 11 ++ failIf (decide (c.u 8 4 % 64 ≠ 0)) 7 1 ERR_ALIGN
        ++ failIf (decide (c.u 0x28 4 % 64 ≠ 0)) 7 8 ERR_ALIGN,
    accs := fun c => accMem 0 false (c.addr 0) (c.u 8 4) 64 ++ accMem 5 false (c.addr 0x10) (32 * c.nrec) 64
      ++ accMem 6 true (c.addr 0x18) stateArea 64 ++ accMem 7 true (c.addr 0x20) (c.frmCap * c.u 0x28 4) 64
      ++ accMem 10 true (c.addr 0x30) (32 * c.frmCap) 64,
    clamps := fun c => clampBit 4 1 4096 (c.u 0xE 2) ++ clampBit 9 1 1024 (c.u 0x2C 2) }

/-- Bytes of one sample. -/
def sampleBytes (bits : Nat) : Nat := if bits = 8 then 1 else 2

/-- PITCH of a picture (R363). -/
def picPitch (p : Picture) : Nat := roundUp (p.width * sampleBytes p.bits) 64

/-- The bytes of a picture. -/
def picSize (p : Picture) : Nat := picPitch p * p.height + picPitch p * (p.height / 2)

/-- A picture of one value, 2^(b − 1) (R365). -/
def picGrey (p : Picture) (w h b : Nat) : Picture :=
  { p with width := w, height := h, bits := b, luma := List.replicate (w * h) (2 ^ (b - 1)), mono := true }

/-- The row of a plane from which row `y` of a field's picture comes (R364): the field's own line, or the mean of its neighbours. -/
def bobRow (plane : List Nat) (w h first y : Nat) : List Nat :=
  let row := fun (r : Nat) => (plane.drop (r * w)).take w
  if y % 2 = first then row y
  else if y = 0 then row (y + 1)
  else if h ≤ y + 1 then row (y - 1)
  else ((row (y - 1)).zip (row (y + 1))).map fun x => (x.1 + x.2 + 1) / 2

/-- One field of a frame as a picture of its own. -/
def picBob (p : Picture) (parity : Nat) : Picture :=
  let plane := fun (s : List Nat) (w h : Nat) => (List.range h).flatMap (bobRow s w h parity)
  { p with luma := plane p.luma p.width p.height, chroma := plane p.chroma p.width (p.height / 2) }

/-- A picture to be written: its samples, and the bits of FFLAGS besides INTERLACED, FULL_RANGE and GRAIN_PRESENT. -/
structure Shown where
  pic : Picture
  flags : Nat
  deriving DecidableEq, Repr

/-- The pictures that one picture of the stream becomes (R364). -/
def picShown (p : Picture) (bob : Bool) : List Shown :=
  if !p.interlaced then [⟨p, 0⟩]
  else
    match p.field with
    | some f => [⟨picBob p f, 4⟩]
    | none =>
      let f := if p.bottomFirst then 1 else 0
      if bob then [⟨picBob p f, 4⟩, ⟨picBob p (1 - f), 12⟩] else [⟨p, 0⟩]

/-- MATRIX of a frame record (Table 15.7). -/
def frameMatrix (m : Nat) : Nat := if m = 1 then 2 else if m = 5 ∨ m = 6 then 1 else if m = 9 then 3 else 0

/-- The samples of a row as bytes. -/
def sampleRow (bits : Nat) (xs : List Nat) : List Byte := xs.flatMap fun x => toLe (sampleBytes bits) (x % 2 ^ bits)

/-- The writes of a picture at an address (R363). -/
def Shown.writes (x : Shown) (a : Nat) (bad : Bool) : List Write :=
  let p := x.pic
  let row := fun (s : List Nat) (y : Nat) => sampleRow p.bits ((s.drop (y * p.width)).take p.width)
  let grey := sampleRow p.bits (List.replicate p.width (2 ^ (p.bits - 1)))
  ((List.range p.height).map fun y => ⟨a + picPitch p * y, row p.luma y, bad⟩)
    ++ (List.range (p.height / 2)).map fun y => ⟨a + picPitch p * (p.height + y), if p.mono then grey else row p.chroma y, bad⟩

/-- The frame record of a picture at an address (Table 15.7). -/
def Shown.record (x : Shown) (a : Nat) : List Byte :=
  let p := x.pic
  let bit := fun (b : Bool) (n : Nat) => if b then 2 ^ n else 0
  toLe 8 a ++ toLe 8 p.pts ++ toLe 2 p.width ++ toLe 2 p.height ++ toLe 4 (picPitch p) ++ toLe 1 p.bits
    ++ toLe 1 (x.flags + bit p.interlaced 1 + bit p.fullRange 4 + bit p.grain 5) ++ toLe 1 (frameMatrix p.matrix) ++ toLe 1 0
    ++ toLe 4 p.seq

/-- The progress of a DECODE: the pictures written with their poison, the last picture of the stream, whether it skips, and the
access units done. -/
structure Decoding where
  out : List (Shown × Bool)
  last : Option Picture
  skips : Bool
  units : Nat
  corrupt : Bool
  opflags : Nat
  stopAt : Option Nat
  deriving DecidableEq, Repr

/-- The picture that stands for a lost one (R365): the last written, or a grey picture of the sequence's size. -/
def Decoding.conceal (d : Decoding) (p : Picture) (sequence : Option (Nat × Nat × Nat)) : Option Picture :=
  match d.last, sequence with
  | some l, _ => some { l with pts := p.pts, seq := p.seq, interlaced := p.interlaced, field := none }
  | none, some (w, h, b) => some (picGrey p w h b)
  | none, none => none

/-- One access unit handled (R363–R366). `marked` tells the records that carry a CORRUPT mark or another CODEC, `bad` those that are
formed from poison. -/
def Decoding.unit (d : Decoding) (dmode stride cap : Nat) (marked bad : Nat → Bool) (u : CodedUnit) : Decoding :=
  let skip := dmode.testBit 0
  let bob := dmode.testBit 1
  let corrupt := marked u.record || u.broken || u.unsupported || u.pics.any fun p => !p.lost && decide (stride < picSize p)
  let flags := fun (f : Nat) => f ||| (if u.unsupported then 4 else 0) ||| (if marked u.record then 8 else 0)
  let step := fun (acc : List (Shown × Bool) × Option Picture × Bool × Bool) (p : Picture) =>
    let (out, last, hid, ok) := acc
    if corrupt || p.lost then
      match Decoding.conceal { d with last := last } p u.sequence with
      | some q => (out ++ (picShown q bob).map fun x => ({ x with flags := x.flags + 1 }, bad u.record), some q, true, ok)
      | none => (out, last, hid, false)
    else (out ++ (picShown p bob).map fun x => (x, bad u.record), some p, hid, ok)
  if corrupt && skip then
    { d with skips := true, units := d.units + 1, corrupt := true, opflags := flags d.opflags ||| 2 }
  else if d.skips && !(u.randomAccess && !corrupt) then
    { d with units := d.units + 1, corrupt := d.corrupt || corrupt, opflags := flags d.opflags ||| 2 }
  else
    let (out, last, hid, ok) := u.pics.foldl step ([], d.last, false, true)
    if cap < d.out.length + out.length then { d with stopAt := some u.record }
    else
      { d with out := d.out ++ out, last := last, skips := !ok, units := d.units + 1, corrupt := d.corrupt || corrupt,
               opflags := flags d.opflags ||| (if hid then 1 else 0) ||| (if ok then 0 else 2) }

/-- The access units handled in order until the picture slots run out. -/
def Decoding.run (dmode stride cap : Nat) (marked bad : Nat → Bool) : List CodedUnit → Decoding → Decoding
  | [], d => d
  | u :: us, d =>
    let d1 := d.unit dmode stride cap marked bad u
    if d1.stopAt.isSome then d1 else Decoding.run dmode stride cap marked bad us d1

/-- The work of a DECODE (R363–R366). -/
def Ctx.decodeWork (c : Ctx) : WorkOut :=
  let es := c.shift (c.addr 0)
  let esLen := c.u 8 4
  let codec := c.u 0xC 1
  let dmode := c.u 0xD 1 % 8
  let rec_ := c.shift (c.addr 0x10)
  let area := c.shift (c.addr 0x18)
  let frm := c.shift (c.addr 0x20)
  let stride := c.u 0x28 4
  let frec := c.shift (c.addr 0x30)
  let held := (c.s.mem.filter fun x => decide (area ≤ x.1 ∧ x.1 < area + stateArea)).map fun x => (x.1 - area, x.2)
  let old := if held.any fun x => decide (x.1 < 64) then held else []
  let recs := (List.range c.nrec).map fun i => c.s.read (rec_ + 32 * i) 32
  let ringAt := fun (off len : Nat) => if esLen = 0 then [] else
    (List.range (min len esLen)).map fun i => es + (off + i) % esLen
  let addrs := recs.map fun r => ringAt (fieldAt r 0 4) (fieldAt r 4 4)
  let input := (recs.zip addrs).map fun x => (x.1, x.2.map c.s.byte)
  let areaBad := c.s.badIn area stateArea
  let recBad := fun (i : Nat) => areaBad || c.s.badIn (rec_ + 32 * i) 32 || (addrs[i]?.getD []).any fun a => c.s.badIn a 1
  let bad := fun (i : Nat) => (List.range (i + 1)).any recBad
  let marked := fun (i : Nat) => let r := recs[i]?.getD []; (fieldAt r 0x18 2).testBit 1 || fieldAt r 0x1A 1 != codec
  let units := Config.accessUnits codec dmode old input
  let d := Decoding.run dmode stride c.frmCap marked bad units
    ⟨[], Config.lastPicture old, Config.decoderSkips old, 0, false, 0, none⟩
  let consumed := match d.stopAt with | some r => min r c.nrec | none => c.nrec
  let pics := ((List.range d.out.length).zip d.out).flatMap fun (i, x) =>
    x.1.writes (frm + stride * i) x.2 ++ [⟨frec + 32 * i, x.1.record (frm + stride * i), x.2⟩]
  let new := (Config.decoderArea codec dmode old input d.units).filter fun x => decide (x.1 < stateArea)
  let spans := (List.range consumed).flatMap fun i =>
    let r := recs[i]?.getD []
    let o := if esLen = 0 then 0 else fieldAt r 0 4 % esLen
    let n := min (fieldAt r 4 4) esLen
    if o + n ≤ esLen then [(es + o, n)] else [(es + o, esLen - o), (es, n - (esLen - o))]
  { reads := (rec_, 32 * c.nrec) :: (area, stateArea) :: spans,
    writes := pics ++ new.map fun x => ⟨area + x.1, [x.2], bad consumed⟩,
    res := { Result.of (if d.corrupt then [ERR_BITSTREAM] else []) d.out.length consumed d.opflags
      with slots := if c.u 0x38 2 = 0xFFFF then [] else [(c.u 0x38 2, d.out.length)] } }

/-- DECODE runs (R363). -/
def execDecodeVideo (p : PacketRef) (s : State) : Host.Outcome State Fault Refusal :=
  .next (runOpcode 0x0702 (fun _ => true) Ctx.decodeWork p s)

/-! PATCHIFY. -/

/-- PT, PH and PW after their clamps (R367). -/
def Ctx.pt (c : Ctx) : Nat := clampNat 1 16 (c.u 0x1A 1)

/-- PH. -/
def Ctx.ph (c : Ctx) : Nat := clampNat 1 64 (c.u 0x1B 1)

/-- PW. -/
def Ctx.pw (c : Ctx) : Nat := clampNat 1 64 (c.u 0x1C 1)

/-- NFRAMES. -/
def Ctx.nframes (c : Ctx) : Nat := c.u 0x18 2

/-- A field of a frame record (Table 15.7). -/
def Ctx.frameAt (c : Ctx) (i off w : Nat) : Nat := fieldAt (c.item 0) (32 * i + off) w

/-- WIDTH, HEIGHT and BITDEPTH of the frames. -/
def Ctx.frameW (c : Ctx) : Nat := c.frameAt 0 0x10 2

/-- HEIGHT. -/
def Ctx.frameH (c : Ctx) : Nat := c.frameAt 0 0x12 2

/-- BITDEPTH. -/
def Ctx.frameB (c : Ctx) : Nat := c.frameAt 0 0x18 1

/-- The nearest even value of a range, midway down (R367). -/
def nearestEven (lo hi v : Nat) : Nat := nearestStep lo (max lo (hi / 2 * 2)) 2 v

/-- CX, CY, CW and CH after their clamps. -/
def Ctx.crop (c : Ctx) : Nat × Nat × Nat × Nat :=
  let cx := nearestEven 0 (c.frameW - 2) (c.u 0x20 2)
  let cy := nearestEven 0 (c.frameH - 2) (c.u 0x22 2)
  (cx, cy, nearestEven 2 (c.frameW - cx) (c.u 0x24 2), nearestEven 2 (c.frameH - cy) (c.u 0x26 2))

/-- OW and OH after their clamps. -/
def Ctx.ow (c : Ctx) : Nat := nearestStep c.pw (8192 / c.pw * c.pw) c.pw (c.u 0x28 2)

/-- OH. -/
def Ctx.oh (c : Ctx) : Nat := nearestStep c.ph (8192 / c.ph * c.ph) c.ph (c.u 0x2A 2)

/-- NTOK (R367). -/
def Ctx.ntok (c : Ctx) : Nat := c.nframes / c.pt * (c.oh / c.ph) * (c.ow / c.pw)

/-- PATCHIFY (Table 15.8). -/
def specPatchify : OpSpec :=
  { code := 0x0703, classes := [.I], len := fun _ => 96, descs := ptrs [(1, 8)] [],
    items := fun c => [⟨0, c.addr 0, 32 * min 1024 c.nframes, 64⟩],
    fails := fun c =>
      let n := c.nframes
      let d := c.desc 1
      let fs := List.range (min 1024 n)
      failIf (fs.any fun i => decide (c.frameAt i 0x10 2 ≠ c.frameW ∨ c.frameAt i 0x12 2 ≠ c.frameH ∨ c.frameAt i 0x18 1 ≠ c.frameB)) 4 0
          ERR_DESCRIPTOR
        ++ c.descFails 1 true
        ++ failIf (c.has 1 && (d.kind != 0 || d.rank != 2 || decide (7 ≤ d.fmt) || d.e 1 != c.ntok
            || decide (d.e 0 < 3 * c.pt * c.ph * c.pw) || (d.regions 0).any fun r => inSump r.1.toNat)) 4 1 ERR_DESCRIPTOR
        ++ failIf (decide (n = 0 ∨ 1024 < n ∨ n % c.pt ≠ 0)) 4 3 ERR_DESCRIPTOR
        ++ failIf (decide (1 < c.u 0x1D 1)) 4 7 ERR_DESCRIPTOR ++ failIf (decide (3 < c.u 0x1E 1)) 4 8 ERR_DESCRIPTOR
        ++ failIf (decide (2 < c.u 0x1F 1)) 4 9 ERR_DESCRIPTOR
        ++ failIf ((List.range 3).any fun k => !(c.f32 (0x30 + 4 * k)).isFinite) 4 16 ERR_DESCRIPTOR
        ++ failIf ((List.range 3).any fun k => !(c.f32 (0x3C + 4 * k)).isFinite) 4 17 ERR_DESCRIPTOR ++ c.rmodeFails 20 0x50,
    accs := fun c =>
      ((List.range (min 1024 c.nframes)).flatMap fun i =>
        let pitch := c.frameAt i 0x14 4
        accMem 0 false (c.frameAt i 0 8) (pitch * (c.frameH + c.frameH / 2)) 1) ++ c.acc 1 true
        ++ (if c.addr 0x10 = 0 then [] else accMem 2 true (c.addr 0x10) (8 * c.ntok) 64),
    clamps := fun c =>
      let (cx, cy, cw, ch) := c.crop
      let diff := fun (bit a b : Nat) => if a = b then [] else [bit]
      clampBit 4 1 16 (c.u 0x1A 1) ++ clampBit 5 1 64 (c.u 0x1B 1) ++ clampBit 6 1 64 (c.u 0x1C 1)
        ++ diff 10 cx (c.u 0x20 2) ++ diff 11 cy (c.u 0x22 2) ++ diff 12 cw (c.u 0x24 2) ++ diff 13 ch (c.u 0x26 2)
        ++ diff 14 c.ow (c.u 0x28 2) ++ diff 15 c.oh (c.u 0x2A 2) ++ (if (c.desc 1).trimClamped then [1] else []) }

/-- The taps of an output coordinate (R368): two indices and the weight of the second in 64ths. -/
def tapsOf (x wc wo : Nat) : Nat × Nat × Nat :=
  let u0 : Rat := (((2 * x + 1) * wc : Nat) - (wo : Int) : Int) / ((2 * wo : Nat) : Rat)
  let u := min (max u0 0) (((wc : Int) - 1 : Int) : Rat)
  let i := u.floor.toNat
  (i, min (i + 1) (wc - 1), (64 * (u - (i : Rat))).floor.toNat)

/-- A plane of a frame: its address, pitch, bytes from one of its samples to the next and bytes of one, and its crop. -/
structure Plane where
  addr : Nat
  pitch : Nat
  step : Nat
  bytes : Nat
  x0 : Nat
  y0 : Nat
  wc : Nat
  hc : Nat
  deriving DecidableEq, Repr

/-- The address of a sample of a plane. -/
def Plane.at (pl : Plane) (x y : Nat) : Nat := pl.addr + pl.pitch * (pl.y0 + y) + pl.step * (pl.x0 + x)

/-- A sample of a plane, and whether it reads as bad. -/
def State.sampleAt (s : State) (pl : Plane) (x y : Nat) : Nat × Bool :=
  let a := pl.at x y
  (if pl.bytes = 1 then s.readNat a 1 else s.readNat a 2 % 1024, s.badIn a pl.bytes)

/-- The scaled sample at an output pixel (R368). -/
def State.scaledSample (s : State) (pl : Plane) (ow oh x y : Nat) : Nat × Bool :=
  let (i0, i1, f) := tapsOf x pl.wc ow
  let (j0, j1, g) := tapsOf y pl.hc oh
  let a := s.sampleAt pl i0 j0
  let b := s.sampleAt pl i1 j0
  let d := s.sampleAt pl i0 j1
  let e := s.sampleAt pl i1 j1
  let h0 := a.1 * (64 - f) + b.1 * f
  let h1 := d.1 * (64 - f) + e.1 * f
  ((h0 * (64 - g) + h1 * g + 2048) / 4096, a.2 || b.2 || d.2 || e.2)

/-- The planes Y, Cb and Cr of frame `i`. -/
def Ctx.planes (c : Ctx) (i : Nat) : Plane × Plane × Plane :=
  let (cx, cy, cw, ch) := c.crop
  let a := c.shift (c.frameAt i 0 8)
  let pitch := c.frameAt i 0x14 4
  let sb := sampleBytes c.frameB
  let ca := a + pitch * c.frameH
  (⟨a, pitch, sb, sb, cx, cy, cw, ch⟩, ⟨ca, pitch, 2 * sb, sb, cx / 2, cy / 2, cw / 2, ch / 2⟩,
   ⟨ca + sb, pitch, 2 * sb, sb, cx / 2, cy / 2, cw / 2, ch / 2⟩)

/-- The colour coefficients Kr and Kb (R369). -/
def colourK (matrix : Nat) : Rat × Rat :=
  if matrix = 1 then (299 / 1000, 114 / 1000) else if matrix = 3 then (2627 / 10000, 593 / 10000) else (2126 / 10000, 722 / 10000)

/-- The three channels of a pixel from its samples (R369). -/
def channelsOf (b : Nat) (full rgb : Bool) (matrix y cb cr : Nat) : List Rat :=
  let k : Rat := (2 : Rat) ^ (b - 8)
  let n : Rat := (2 : Rat) ^ b - 1
  let half : Rat := (2 : Rat) ^ (b - 1)
  let y' : Rat := if full then (y : Rat) / n else ((y : Rat) - 16 * k) / (219 * k)
  let pb : Rat := if full then ((cb : Rat) - half) / n else ((cb : Rat) - 128 * k) / (224 * k)
  let pr : Rat := if full then ((cr : Rat) - half) / n else ((cr : Rat) - 128 * k) / (224 * k)
  if rgb then
    let (kr, kb) := colourK matrix
    let r := y' + 2 * (1 - kr) * pr
    let bl := y' + 2 * (1 - kb) * pb
    [r, (y' - kr * r - kb * bl) / (1 - kr - kb), bl]
  else [y', pb, pr]

/-- A channel of an output pixel of a frame, normalised, and whether it is formed from poison (R368, R369). -/
def Ctx.pixel (c : Ctx) (i x y ch : Nat) : Rat × Bool :=
  let (py, pb, pr) := c.planes i
  let sy := c.s.scaledSample py c.ow c.oh x y
  let sb := c.s.scaledSample pb c.ow c.oh x y
  let sr := c.s.scaledSample pr c.ow c.oh x y
  let rgb := c.u 0x1D 1 == 1
  let range := c.u 0x1F 1
  let matrix := if c.u 0x1E 1 = 0 then c.frameAt i 0x1A 1 else c.u 0x1E 1
  let full := if range = 0 then (c.frameAt i 0x19 1).testBit 4 else range == 2
  let v := (channelsOf c.frameB full rgb matrix sy.1 sb.1 sr.1)[ch]?.getD 0
  let bad := if rgb then sy.2 || (ch != 2 && sr.2) || (ch != 0 && sb.2) else if ch = 0 then sy.2 else if ch = 1 then sb.2 else sr.2
  ((v - (c.f32 (0x30 + 4 * ch)).q) * (c.f32 (0x3C + 4 * ch)).q, bad)

/-- The rows that a plane's taps touch, as intervals. -/
def Plane.spans (pl : Plane) (oh : Nat) : List (Nat × Nat) :=
  (dedupNat ((List.range oh).flatMap fun y => let (j0, j1, _) := tapsOf y pl.hc oh; [j0, j1])).map fun j => (pl.at 0 j, pl.step * pl.wc)

/-- The work of a PATCHIFY (R368–R370). -/
def Ctx.patchWork (c : Ctx) : WorkOut :=
  let d := c.loc 1
  let used := 3 * c.pt * c.ph * c.pw
  let cols := c.ow / c.pw
  let rows := c.oh / c.ph
  let val := fun (n : Nat) =>
    let j := n % d.e 0
    let tok := n / d.e 0
    if used ≤ j then some (OutElt.ofNum (.fin 0))
    else
      let pix := j / 3
      let (v, bad) := c.pixel (tok / cols / rows * c.pt + pix / (c.ph * c.pw)) (tok % cols * c.pw + pix % c.pw)
        (tok / cols % rows * c.ph + pix / c.pw % c.ph) (j % 3)
      some { c.scaled 1 (OutElt.ofNum (.fin v)) with poison := bad }
  let st := storeDense d (c.rgroup 0x50) val chooseScale noMove
  let pos : List Write := if c.addr 0x10 = 0 then [] else
    [⟨c.shift (c.addr 0x10), (List.range c.ntok).flatMap fun n =>
      toLe 2 (n % cols) ++ toLe 2 (n / cols % rows) ++ toLe 4 (n / cols / rows * c.pt), false⟩]
  let tokens := ((List.range c.ntok).filter fun n => (List.range (d.e 0)).any fun j => d.owned [j, n]).length
  let reads := (List.range c.nframes).flatMap fun i =>
    let (py, pb, _) := c.planes i
    py.spans c.oh ++ pb.spans c.oh
  { reads := reads, writes := st.writes ++ pos, res := c.result 1 st [] tokens st.clipped 0 0 }

/-- PATCHIFY runs (R370). -/
def execPatchify (p : PacketRef) (s : State) : Host.Outcome State Fault Refusal :=
  .next (runOpcode 0x0703 (fun _ => true) Ctx.patchWork p s)

/-! SHUFFLE_PLAN. -/

/-- N of a SHUFFLE_PLAN. -/
def Ctx.planN (c : Ctx) : Nat := c.u 0x10 8

/-- COUNT after its clamp (R371). -/
def Ctx.planCount (c : Ctx) : Nat := clampNat 1 (min (2 ^ 24) (c.planN - c.u 0x18 8)) (c.u 0x20 4)

/-- SHUFFLE_PLAN (Table 15.9). -/
def specShufflePlan : OpSpec :=
  { code := 0x0704, classes := [.I], len := fun _ => 48,
    fails := fun c =>
      failIf (decide (c.planN = 0 ∨ 2 ^ 40 < c.planN)) 4 2 ERR_DESCRIPTOR ++ failIf (decide (c.planN ≤ c.u 0x18 8)) 4 3 ERR_DESCRIPTOR,
    accs := fun c => accMem 0 true (c.addr 0) (8 * c.planCount) 64,
    clamps := fun c => clampBit 4 1 (min (2 ^ 24) (c.planN - c.u 0x18 8)) (c.u 0x20 4) }

/-- One pass of the six rounds (R371). -/
def feistel (seed epoch h x : Nat) : Nat :=
  let m := 2 ^ h
  let st := (List.range 6).foldl (fun (st : Nat × Nat) k =>
    let a := gen16 seed epoch (k * 2 ^ 40 + st.2)
    let b := gen16 seed epoch (2 ^ 44 + k * 2 ^ 40 + st.2)
    (st.2, st.1 ^^^ (a * 2 ^ 16 + b) % m)) (x / m, x % m)
  st.1 * m + st.2

/-- The cycle walk from a value: the entry and the steps taken; `fuel` bounds the walk. -/
def walkPlan (seed epoch h n : Nat) : Nat → Nat → Nat → Nat × Nat
  | 0, y, k => (y, k)
  | fuel + 1, y, k => if n ≤ y then walkPlan seed epoch h n fuel (feistel seed epoch h y) (k + 1) else (y, k)

/-- plan(i) and the cycle-walk steps taken (R371). -/
def planEntry (seed epoch n i : Nat) : Nat × Nat :=
  let h := max 1 (ceilDiv (ceilLog2 n) 2)
  walkPlan seed epoch h n (2 ^ (2 * h)) (feistel seed epoch h i) 0

/-- The work of a SHUFFLE_PLAN. -/
def Ctx.planWork (c : Ctx) : WorkOut :=
  let es := (List.range c.planCount).map fun i => planEntry (c.u 8 8) (c.u 0x24 4) c.planN (c.u 0x18 8 + i)
  { reads := [], writes := [⟨c.shift (c.addr 0), es.flatMap fun e => toLe 8 e.1, false⟩],
    res := Result.of [] es.length (es.map (·.2)).sum 0 }

/-- SHUFFLE_PLAN runs (R371). -/
def execShufflePlan (p : PacketRef) (s : State) : Host.Outcome State Fault Refusal :=
  .next (runOpcode 0x0704 (fun _ => true) Ctx.planWork p s)

end Sys2Proof.Machine
end

