-- ==== Sys2Proof/Machine/Resets.lean ====
section
/-! DEFINITION. Bootstrap rings (R30, R389), the destruction of keys, and the STREAM, PARTITION and UNIT resets (R51, R455–R457, Tables
19.2 and 20.9). -/

namespace Sys2Proof.Machine

/-! Bootstrap rings. -/

/-- The binding that the boot registers of a partition's lowest quarter give, when it is legal (R389). -/
def State.bootBinding (s : State) (p : Nat) : Option Binding :=
  let w := s.window p
  let base := w.bootRingBase.toNat
  let cq := w.bootCqBase.toNat
  let rl := w.bootSizes.toNat % 256
  let cl := w.bootSizes.toNat / 256
  let apart := decide (base + 256 * 2 ^ rl ≤ cq ∨ cq + 32 * 2 ^ cl ≤ base)
  if 4 ≤ rl ∧ rl ≤ 16 ∧ 4 ≤ cl ∧ cl ≤ 16 ∧ base % 256 = 0 ∧ cq % 64 = 0
      ∧ (s.inMemory p base (256 * 2 ^ rl) && s.inMemory p cq (32 * 2 ^ cl) && apart) = true then
    some { cls := .S, ringLog2 := rl, cqLog2 := cl, haltOnError := true, quota := false, waitLimit := 64, base := base, cqBase := cq,
           quotaGrants := 1 }
  else none

/-- The bootstrap ring of a partition bound (R30, R389): its completion queue is zeroed first. `first` is what its ring head, ring tail
and completion tail read (R25). -/
def State.bindBootstrap (s : State) (p first : Nat) : State :=
  let good := s.bootBinding p
  let b : Binding := good.getD
    { cls := .S, ringLog2 := 8, cqLog2 := 8, haltOnError := true, quota := false, waitLimit := 64, base := p * hbmQuarter,
      cqBase := p * hbmQuarter + 0x100000, quotaGrants := 1 }
  let s1 := s.zeroRange b.cqBase (b.cqBase + 32 * 2 ^ b.cqLog2)
  let s2 := (s.quarters p).foldl (fun s q => s.modWindow q fun w => { w with ringDefault := good.isNone }) s1
  let s3 := if good.isNone then s2.log p (mkEvent 0x50 p 0) else s2
  s3.modRing p (64 * s.quartersPer - 1) fun r =>
    { Ring.unbound with binding := some b, head := first, tail := first, cqTail := first, c3 := r.c3 }

/-! Keys. -/

/-- The keys of a port destroyed: an up port retrains into clear mode (R319, R462). -/
def State.destroyPortKeys (s : State) (i : Nat) : State :=
  let p := s.port i
  if p.keys.isNone && p.switching.isNone then s
  else
    let s1 := s.modPort i fun p => { p with keys := none, switching := none }
    if p.state = .up then s1.beginRetrain i else s1

/-- The host keys of a partition destroyed, with its pending pair and its bounce queues and counters (Table 19.8). -/
def State.destroyHostKeys (s : State) (p : Nat) : State := s.modPart p fun pt => { pt with host := .none, bounce := [] }

/-- Keys of every kind of a partition destroyed. -/
def State.destroyKeys (s : State) (p : Nat) : State := (s.allowedPorts p).foldl State.destroyPortKeys (s.destroyHostKeys p)

/-! The steps of Table 19.2 that resets share. -/

/-- The merge-buffer entries of a partition drained. -/
def State.drainPart (s : State) (p : Nat) : State :=
  ((s.merge.map (·.granule)).filter fun g => s.ownerOf g == some p).foldl State.drain s

/-- The requests that a function's bridge still owes discarded. -/
def State.dropRequests (s : State) (p : Nat) : State :=
  { s with bridgeReqs := s.bridgeReqs.filter fun r => r.fn != p, bridgeHeld := s.bridgeHeld.filter fun r => r.fn != p }

/-- Steps 1 and 2: READY clears, every packet ends ABORTED, the rings are unbound, and what is under way drains or is discarded. -/
def State.closePart (s : State) (p : Nat) : State :=
  let s1 := s.modPart p fun pt => { pt with ready := false }
  let s2 := (s1.abortWhere p fun _ => true).completeAborted p
  ((s2.modPart p fun pt => { pt with rings := [], packets := [], progress := [], spilled := [], window := 0, pendingLayout := none }).drainPart p).dropRequests p

/-- Step 3: every setting that resets with the event counters returns to its reset value, the error log clears, and the keys are
destroyed. The catalogue, the confidential flag and the latest nonce stay. -/
def State.clearPart (s : State) (p : Nat) : State :=
  let s1 := s.destroyKeys p
  (s1.modPart p fun pt =>
    { Part.reset with confidential := pt.confidential, catalogue := pt.catalogue, nonce := pt.nonce }).updateSetPoints

/-- Every generation of a partition that is not committed freed, each with a record (R393). -/
def State.freeUncommitted (s : State) (p : Nat) : State :=
  let cat := (s.part p).catalogue
  let lost := ((List.range cat.length).zip cat).filter fun x => x.2.state != .free && x.2.state != .committed
  let s1 := s.modPart p fun pt =>
    { pt with catalogue := pt.catalogue.map fun g => if g.state = .committed then g else Generation.free }
  lost.foldl (fun s x => s.log p { mkEvent 0x4D x.1 0 with addr := x.2.gen }) s1

/-- The RW and RC registers of a window reset; the RWS registers stay (R377). -/
def Window.softReset (w : Window) (q : Nat) : Window :=
  { Window.reset q with scratchS := w.scratchS, bootRingBase := w.bootRingBase, bootCqBase := w.bootCqBase, bootSizes := w.bootSizes,
                        ringDefault := w.ringDefault }

/-- A window that repeats a partition's READY and bound ring (step 6). -/
def State.openPart (s : State) (p first : Nat) : State :=
  (s.bindBootstrap p first).modPart p fun pt => { pt with ready := true }

/-- A return from QUIESCE or a stopped entry (R460, R461). -/
def Part.activate (pt : Part) : Part := { pt with pstate := .active, pstateReq := 0 }

/-- A partition in QUIESCE or STANDBY brought back to ACTIVE: at once from QUIESCE, by a wake from STANDBY (R456, R461). -/
def State.wake (s : State) (p : Nat) : State :=
  match (s.part p).pstate with
  | .quiesce => s.modPart p Part.activate
  | .standby => s.modPart p fun pt => { pt with pstate := .waking, pstateReq := 0 }
  | _ => s

/-- Whether a change of Table 19.2 runs on a quarter of a partition. -/
def State.changing (s : State) (p : Nat) : Bool :=
  match s.change with
  | some c => c.quarters.any fun q => s.lowQ q == p
  | none => false

/-- Whether the module as a whole is booting: a wider reset that covers every narrower one (R456). -/
def State.booting (s : State) : Bool := !s.ready && !s.fatal

/-! STREAM (R51). -/

/-- The rings of a class: packets end ABORTED, unfetched slots are discarded, and the keys of the partition are destroyed (R462). -/
def State.streamReset (s : State) (p : Nat) (cls : StreamClass) : State :=
  let s1 := s.wake p
  let isX := fun (r : Ring) => match r.binding with | some b => b.cls == cls | none => false
  let rings := ((s1.part p).rings.filter fun e => isX e.2).map (·.1)
  let s2 := (s1.abortWhere p fun k => rings.contains k.ring).completeAborted p
  let s3 := rings.foldl (fun s r => s.modRing p r fun x => { x with head := x.tail, fetched := none }) s2
  s3.destroyKeys p

/-! PARTITION (R455). -/

/-- Steps 1–3 and 6 of Table 19.2 with uncommitted generations freed; memory is not zeroed. A partition in STANDBY first comes back. -/
def State.partitionReset (s : State) (p : Nat) : State :=
  let s1 := ((s.closePart p).clearPart p).freeUncommitted p
  let s2 := (s.quarters p).foldl (fun s q => s.modWindow q fun w => w.softReset q) s1
  s2.openPart p 0

/-! UNIT (R457). -/

/-- The execution resource that a UNIT_RESET value names. -/
def unitResources (kind n : Nat) : List Resource :=
  match kind with
  | 0 => [.array n, .vector n]
  | 1 => [.core n]
  | 3 => [.haul n]
  | 4 => [.dressing n]
  | _ => []

/-- Whether the work of a packet uses a resource of its partition (DESIGN CHOICE, log entry 31): arrays for the tensor opcodes and vector
engines for the others of their leaf list, a gang for a packet that names it; the layout opcodes a dressing engine where they convert and a
haul engine where they move (R144, R146–R148); DECODE a core; the rest haul engines. -/
def Packet.uses (k : Packet) (r : Resource) : Bool :=
  let leaves := match k.snap with | some sn => sn.leaves | none => []
  let op := k.hdr.opcode
  let layout := op / 256 == 4
  let working := k.phase == .ready || k.phase == .running || k.phase == .finished
  working && (match r with
    | .array n => op / 256 == 2 && leaves.contains n
    | .gang n => (k.snap.bind (·.engine)) == some (0x100 + n)
    | .vector n => op / 256 != 2 && leaves.contains n
    | .dressing _ => layout && k.converts
    | .core _ => op == 0x0702
    | .haul _ => leaves.isEmpty && op != 0x0702 && decide (4 ≤ op / 256 ∧ op / 256 ≤ 8) && !(layout && k.converts))

/-- Whether a resource lies in a partition's quarters (Table 1.1, R457). -/
def State.ownsResource (s : State) (p : Nat) (r : Resource) : Bool :=
  let q := match r with
    | .gang n => if n < 64 * s.quartersPer ∨ n = 256 then p else 4
    | .array n | .vector n => n / 64
    | .haul n => n / 16
    | .dressing n => n / 4
    | .core n => n / 8
  decide (p ≤ q ∧ q < p + s.quartersPer)

/-- Whether a grant of a resource is a grant of one of some units: a gang is its arrays (R116). -/
def State.grantsOne (s : State) (p : Nat) (rs : List Resource) (r : Resource) : Bool :=
  rs.contains r || (match r with
    | .gang n => (s.leaves p (0x100 + n)).any fun a => rs.contains (.array a) || rs.contains (.vector a)
    | _ => false)

/-- The packets that hold a grant of one of the resources end ABORTED, and the resources' progress clears. -/
def State.abortGranted (s : State) (p : Nat) (rs : List Resource) : State :=
  let held := (s.part p).progress.filter fun x => s.grantsOne p rs x.1
  let s1 := s.abortWhere p fun k => held.any fun x => x.2.1 == k.ring && k.uses x.1
  (s1.modPart p fun pt => { pt with progress := pt.progress.filter fun x => !s.grantsOne p rs x.1 }).completeAborted p

/-- The packets whose messages stand unacknowledged in a port's replay buffer, or whose responses were due through it, end (R316). -/
def State.failThrough (s : State) (i code : Nat) : State :=
  let owners := (s.port i).replay.flatMap fun x => x.2.1.owners
  let due := s.partList.flatMap fun p => ((s.part p).packets.filter fun k =>
    match k.remote with | some r => r.unacked.any fun u => u.2.2 == i | none => false).map (·.ref p)
  (owners ++ due).foldl (fun s ref =>
    match s.packet ref with
    | some k => if k.phase = .running then s.endFailed ref.part k code else s
    | none => s) (s.modPort i fun p => { p with replay := [] })

/-- The PCIe endpoint reset (R457, R462): its configuration space and link, the requests under way through it, and the host keys. -/
def State.endpointReset (s : State) : State :=
  let s1 := { s with msixTable := [], msixPending := [], pcieSpeed := 0, pcieWidth := 0, bridgeReqs := [], bridgeHeld := [] }
  s1.partList.foldl State.destroyHostKeys s1

/-- A port reset: its keys are destroyed, the messages in its replay buffer end, and it retrains (R457). -/
def State.portReset (s : State) (i : Nat) : State :=
  let s1 := (s.failThrough i ERR_PEER_UNREACHABLE).modPort i fun p => { p with keys := none, switching := none }
  if (s1.port i).state = .up then s1.beginRetrain i else s1

/-- A unit reset by its UNIT_RESET value. -/
def State.unitReset (s : State) (p v : Nat) : State :=
  let n := v / 256 % 65536
  match v % 16 with
  | 2 => if s.runsLanug n then s.portReset n else s
  | 5 => s.endpointReset
  | k => s.abortGranted p (unitResources k n)

/-- The value that a CONFIG_SET writes to UNIT_RESET. -/
def Ctx.unitResetValue (c : Ctx) : Nat := (c.configVals[0xF0000 - c.u 0 4]?).getD 0

/-- Whether the unit that a UNIT_RESET value names lies in a half that is off (Table 1.1). -/
def State.unitHalfOff (s : State) (v : Nat) : Bool :=
  let n := v / 256 % 65536
  match v % 16 with
  | 0 => s.halvesDown.contains (n / 128)
  | 1 => s.halvesDown.contains (n / 16)
  | 2 => s.halvesDown.contains (portHalf n)
  | 3 => s.halvesDown.contains (n / 32)
  | 4 => s.halvesDown.contains (n / 8)
  | _ => false

/-- A CONFIG_SET of UNIT_RESET runs (R457); a unit of a half that is off is not reached (R11). -/
def execUnitReset (p : PacketRef) (s : State) : Host.Outcome State Fault Refusal :=
  .next (runThen 0x0101 (fun c => c.configKind == 2)
    (fun c =>
      let w := c.configSetWork
      if c.configApplies && c.s.unitHalfOff c.unitResetValue then { w with res := Result.of [ERR_PEER_UNREACHABLE] 0 0 0 } else w)
    (fun c s =>
      if c.configApplies && c.s.unitHalfOff c.unitResetValue then s
      else
        let s1 := c.configSetEff s
        if c.configApplies then s1.unitReset c.p c.unitResetValue else s1) p s)

end Sys2Proof.Machine
end

