-- ==== Sys2Proof/Machine/Partition.lean ====
section
/-! DEFINITION. PARTITION_SET and changes of layout (R421–R425, Tables 19.1 and 19.2). -/

namespace Sys2Proof.Machine

/-- LAYOUT, CONF without the bits of numbers that the layout does not use, and PTAG. -/
def Ctx.layoutAsk (c : Ctx) : Nat × Nat × Nat :=
  let layout := c.u 0 1
  let used := match layout with | 0 => 1 | 1 => 5 | _ => 15
  (layout, c.u 1 1 &&& used, c.u 4 4)

/-- The quarters of each partition under a layout: 4, 2 or 1. -/
def layoutQuarters (layout : Nat) : Nat := match layout with | 0 => 4 | 1 => 2 | _ => 1

/-- The quarters that a layout and confidential flags reassign (R421). -/
def State.reassigned (s : State) (layout conf : Nat) : List Nat :=
  let per := layoutQuarters layout
  (List.range 4).filter fun q =>
    let low := q / per * per
    per != s.quartersPer || conf.testBit low != (s.part (s.lowQ q)).confidential

/-- The PARTITION_SETs that are pending. -/
def State.pendingLayouts (s : State) : List (Nat × PendingLayout) :=
  s.partList.filterMap fun p => (s.part p).pendingLayout.map fun l => (p, l)

/-- PARTITION_SET (Table 19.1, R422). -/
def specPartitionSet : OpSpec :=
  { code := 0x0B04, classes := [.S], len := fun _ => 16,
    fails := fun c =>
      let a := c.layoutAsk
      let ls := c.s.pendingLayouts.map (·.2)
      failIf (decide (2 < a.1) || ls.any fun l => l.layout != a.1) 4 0 ERR_DESCRIPTOR
        ++ failIf (ls.any fun l => l.conf != a.2.1) 4 1 ERR_DESCRIPTOR ++ failIf (ls.any fun l => l.ptag != a.2.2) 4 2 ERR_DESCRIPTOR }

/-- PARTITION_SET runs (R421, R422): it completes at once where it reassigns no quarter of its own partition, and is pending otherwise. -/
def execPartitionSet (p : PacketRef) (s : State) : Host.Outcome State Fault Refusal :=
  match s.packet p with
  | none => .next s
  | some k =>
    match s.ctx p.part k with
    | some c =>
      if k.hdr.opcode = 0x0B04 ∧ k.phase = .ready ∧ s.fatal = false then
        let a := c.layoutAsk
        let ls := s.pendingLayouts.map (·.2)
        let rs := s.reassigned a.1 a.2.1
        if ls.any fun l => l.layout != a.1 || l.conf != a.2.1 || l.ptag != a.2.2 then
          let field := if ls.any fun l => l.layout != a.1 then 0 else if ls.any fun l => l.conf != a.2.1 then 1 else 2
          .next (s.finish p.part k (WorkOut.of { Result.of [ERR_DESCRIPTOR] 0 0 0 with field := field }))
        else if (s.quarters p.part).any fun q => rs.contains q then
          let l : PendingLayout := ⟨k.ring, k.idx, k.hdr.tag, a.1, a.2.1, a.2.2⟩
          .next ((s.setPacket p.part { k with phase := .pending }).modPart p.part fun pt =>
            { pt with pendingLayout := some (pt.pendingLayout.getD l) })
        else .next (s.finish p.part k (WorkOut.of Result.empty))
      else .next s
    | none => .next s

/-- The memories of a quarter overwritten with zeros under fresh codes (step 4). -/
def State.zeroQuarter (s : State) (q : Nat) : State :=
  ((s.zeroRange (q * hbmQuarter) ((q + 1) * hbmQuarter)).zeroRange (sumpBase + q * sumpQuarter) (sumpBase + (q + 1) * sumpQuarter)).zeroRange
    (scratchBase + 64 * q * sliceBytes) (scratchBase + 64 * (q + 1) * sliceBytes)

/-- Steps 1 to 5 of Table 19.2 for a partition; `erase` tells whether the store is erased. Its pending PARTITION_SETs are not aborted: the
change completes them (R424). -/
def State.scrubPart (s : State) (erase : Bool) (p : Nat) : State :=
  let s0 := s.modPart p fun pt => { pt with packets := pt.packets.filter fun k => k.phase != .pending }
  let s1 := (s0.closePart p).clearPart p
  let s2 := s1.modPart p fun pt => { pt with nonce := List.replicate 32 0 }
  let s3 := if erase then s2.modPart p fun pt => { pt with catalogue := List.replicate 16 .free } else s2
  (s.quarters p).foldl State.zeroQuarter s3

/-- The partitions whose PARTITION_SETs a pending change awaits (R421, R422). -/
def State.concerned (s : State) (l : PendingLayout) : List Nat := dedupNat ((s.reassigned l.layout l.conf).map s.lowQ)

/-- PARTITION_CHANGE (R423): once every partition that holds a reassigned quarter has issued its PARTITION_SET, steps 1 to 5 run. -/
def execPartitionChange (s : State) : Host.Outcome State Fault Refusal :=
  match s.pendingLayouts.head? with
  | none => .next s
  | some (_, l) =>
    let ps := s.concerned l
    if s.change.isSome = true ∨ s.fatal = true ∨ (ps.all fun p => (s.part p).pendingLayout.isSome) = false then .next s
    else
      let quarters := s.reassigned l.layout l.conf
      let per := layoutQuarters l.layout
      let news := dedupNat (quarters.map fun q => q / per * per)
      let tags := news.map fun n => (n, ((s.part (s.lowQ n)).pendingLayout.map (·.tag)).getD 0)
      let s1 := ps.foldl (State.scrubPart · true) s
      .next { s1 with change := some ⟨l.layout, l.conf, quarters, tags⟩, changeStart := s.mclk }

/-- The faults of memory cells under another number of quarters per partition: they stay where they are and their device addresses move
(R248, R249). -/
def State.moveFaults (s : State) (per : Nat) : List SymFault :=
  s.faults.map fun f =>
    match s.localOf f.addr with
    | some (k, u, off) => { f with addr := { s with quartersPer := per }.addrOf k u off }
    | none => f

/-- The completion of a change as record 0 (R424). -/
def changeRecord (tag ring quarters ms : Nat) : List Byte :=
  toLe 4 tag ++ toLe 2 OK ++ toLe 2 0x0B04 ++ toLe 4 0 ++ toLe 4 0 ++ toLe 4 0xFF0000 ++ toLe 4 quarters ++ toLe 4 (min ms 0xFFFFFFFF)
    ++ toLe 2 ring ++ toLe 1 0 ++ toLe 1 1

/-- Step 6 of Table 19.2: the new partitions form with their confidential flags, bind their bootstrap rings and become ready. -/
def State.formParts (s : State) (c : LayoutChange) (ms : Nat) : State :=
  let per := layoutQuarters c.layout
  let fresh := fun (q : Nat) (pt : Part) =>
    if c.quarters.contains q then { Part.reset with confidential := decide (q % per = 0) && c.conf.testBit q } else pt
  let moved := if s.quartersPer = per then s.faults else s.moveFaults per
  let formed := ((List.range s.parts.length).zip s.parts).map fun (x : Nat × Part) => fresh x.1 x.2
  let s1 : State := { s with faults := moved, quartersPer := per, parts := formed, change := none }
  (c.tags.foldl (fun (s : State) t =>
    let s2 := s.bindBootstrap t.1 1
    let ring := 64 * per - 1
    match ((s2.part t.1).ring ring).binding with
    | some b => (s2.store ⟨b.cqBase, changeRecord t.2 ring c.quarters.length ms, false⟩).modPart t.1 fun pt => { pt with ready := true }
    | none => s2) s1).updateSetPoints

/-- PARTITION_CHANGE_COMPLETE (R424, R425): with `ms` from step 1 to step 6. A change of LAYOUT takes the PCIe link down. -/
def execPartitionChangeComplete (ms : Nat) (s : State) : Host.Outcome State Fault Refusal :=
  match s.change with
  | none => .next s
  | some c =>
    if s.fatal then .next s
    else
      let s1 := s.formParts c ms
      .next (if layoutQuarters c.layout ≠ s.quartersPer ∧ s.board.xLanug = false then s1.endpointReset else s1)

end Sys2Proof.Machine
end

