-- ==== Sys2Proof/Machine/Sddmm.lean ====
section
/-! DEFINITION. SDDMM (R190–R194), GROUPED_MATMUL (R236, R237), and the combining of split reductions (R115). -/

namespace Sys2Proof.Machine

/-- A position of SDDMM: its row and column, and the output element at which it is written. -/
structure Position where
  row : Nat
  col : Nat
  out : Nat
  deriving DecidableEq, Repr

/-- USES after its clamp (R190). -/
def Ctx.uses (c : Ctx) : Nat := clampNat 1 4 (c.u 0x58 1)

/-- N and K of SDDMM, from its first use. -/
def Ctx.sddmmDims (c : Ctx) : Nat × Nat := ((c.desc 0).e 1, (c.desc 1).e 1)

/-- Bit `x` of the bitmap at an address (R190). -/
def State.bitmap (s : State) (a x : Nat) : Bool := (s.byte (a + x / 8)).toNat.testBit (x % 8)

/-- The bits of a bitmap of a row or block pattern. -/
def maskBits (rows : Bool) (n k : Nat) : Nat := if rows then n else ceilDiv n 64 * ceilDiv k 64

/-- The row tiles of a CSR or N:M pattern with the positions each holds, the slots that read as +0, the index faults, and whether an
index item reads as bad (R158, R191). -/
def State.patternRows (s : State) (d : Desc) : List (List Position × List Nat × Bool) × Nat :=
  let rows := (List.range (d.e 1)).map fun r => (r, if d.kind = 1 then s.csrRow d r else s.nmRow d r)
  let tiles := (List.range (ceilDiv (d.e 1) 64)).map fun rt =>
    let mine := rows.filter fun x => x.1 / 64 == rt
    (mine.flatMap fun (r, sr) => (sr.cells.filter (·.good)).map fun cl => (⟨r, cl.col, cl.slot⟩ : Position),
     mine.flatMap fun (_, sr) => (sr.cells.filter fun cl => !cl.good).map (·.slot), mine.any fun x => x.2.bad)
  (tiles, if d.kind = 1 then s.csrFaults d else (rows.map fun x => x.2.faults).sum)

/-- The position tiles of SDDMM in order (R193), each with whether the pattern items it read are bad; the faulty slots; the faults. -/
def Ctx.positionTiles (c : Ctx) : List (List Position × Bool) × List Nat × Nat :=
  let (n, k) := c.sddmmDims
  let mask := c.addr 0x48
  let kt := ceilDiv k 64
  let cross := fun (rows : List Nat) (c0 : Nat) => rows.flatMap fun i =>
    (List.range (min 64 (k - c0))).map fun j => (⟨i, c0 + j, i * k + c0 + j⟩ : Position)
  let rowsOf := fun (rs : List Nat) => (chunks 64 (rs.length + 1) rs).flatMap fun g => (List.range kt).map fun t => cross g (64 * t)
  match c.u 0x59 1 with
  | 0 => ((rowsOf (List.range n)).map fun t => (t, false), [], 0)
  | 3 =>
    let bad := c.s.badIn mask (ceilDiv n 8)
    ((rowsOf ((List.range n).filter (c.s.bitmap mask))).map fun t => (t, bad), [], 0)
  | 4 =>
    let bits := maskBits false n k
    let bad := c.s.badIn mask (ceilDiv bits 8)
    (((List.range bits).filter (c.s.bitmap mask)).map fun b =>
      (cross ((List.range (min 64 (n - b / kt * 64))).map (b / kt * 64 + ·)) (b % kt * 64), bad), [], 0)
  | _ =>
    let (tiles, faults) := c.s.patternRows (c.loc 8)
    (tiles.flatMap fun (ps, _, bad) =>
      let cols := (ps.map (·.col)).foldl setIns []
      (chunks 64 (cols.length + 1) cols).map fun g => (ps.filter fun q => g.contains q.col, bad),
     tiles.flatMap (·.2.1), faults)

/-- The window of a position over all its uses, concatenated in ascending use (R192, R193). -/
def Ctx.sddmmWin (c : Ctx) (row col : Nat) : OutWin :=
  let us := (List.range c.uses).map fun u =>
    (c.s.rowBlocks (c.loc (2 * u)) [0, row, 0, 0, 0], c.s.rowBlocks (c.loc (2 * u + 1)) [0, col, 0, 0, 0], (c.desc (2 * u)).e 0)
  let ps := (us.foldl (fun (acc : Nat × List (Nat × BlockPair)) u =>
    (acc.1 + u.2.2, acc.2 ++ densePairs acc.1 u.1 u.2.1)) (0, [])).2
  let f := (c.desc 0).fmt
  ⟨anchorOf f ps.length (ps.map (·.2.e)), ps, us.any fun u => blocksBad u.1 || blocksBad u.2.1⟩

/-- The length of the whole reduction. -/
def Ctx.sddmmLen (c : Ctx) : Nat := ((List.range c.uses).map fun u => (c.desc (2 * u)).e 0).sum

/-- The job of SDDMM. -/
def Ctx.sddmmJob (c : Ctx) : Job :=
  let d := c.loc 10
  let f := (c.desc 0).fmt
  let kp := kpOf f
  let k := c.sddmmLen
  let (n, kk) := c.sddmmDims
  let pat := c.u 0x59 1
  let (tiles, zeros, faults) := c.positionTiles
  let all := tiles.flatMap fun t => t.1.map fun q => (q.out, q, t.2)
  let fs := (List.range (2 * c.uses))
  { prods := [{ f := f, d := d, field := 10, passes := ceilDiv k kp, width := kp, tiles := tiles.length,
                outs := fun t => ((tiles[t]?).getD ([], false)).1.map (·.out),
                plain := fun x => if zeros.contains x then some (.ofNum (.fin 0)) else none,
                win := fun x => match all.lookup x with
                  | some (q, bad) => let w := c.sddmmWin q.row q.col; { w with bad := w.bad || bad }
                  | none => ⟨0, [], false⟩,
                epi := fun _ sp => c.epilogue 10 d none none sp,
                cycles := fun _ ps => (ps.map fun p => ceilDiv (passLen k kp p) (pairsOf f)).sum,
                whole := d.isScaled && (pat == 1 || pat == 2) }],
    leaves := c.snap.leaves, splitMax := clampNat 1 64 (c.u 0x5C 2), rg := c.rgroup 0x60, canSplit := true,
    reads := (fs.flatMap fun x => (c.loc x).spans)
      ++ (match pat with
          | 1 => c.s.csrSpans (c.loc 8) (c.loc 8).csrRows false
          | 2 => (c.loc 8).nmSpans (List.range n) false
          | 3 => [(c.addr 0x48, ceilDiv n 8)]
          | 4 => [(c.addr 0x48, ceilDiv (maskBits false n kk) 8)]
          | _ => []),
    codes := if faults = 0 then [] else [ERR_INDEX_RANGE], count1 := faults, opflags := 0,
    tern := (fs.map fun x => c.s.ternDense (c.loc x)).sum, late := [] }

/-- The checks of SDDMM (R190). -/
def Ctx.sddmmFails (c : Ctx) : List Fail :=
  let bad := fun (b : Bool) (f : Nat) => failIf b 4 f ERR_DESCRIPTOR
  let (n, k) := c.sddmmDims
  let d := c.desc 10
  let p := c.desc 8
  let pat := c.u 0x59 1
  let flat := fun (x : Desc) => x.e 2 == 1 && x.e 3 == 1 && x.e 4 == 1
  let use := fun (u : Nat) =>
    let a := c.desc (2 * u)
    let b := c.desc (2 * u + 1)
    c.descFails (2 * u) false ++ c.descFails (2 * u + 1) false
      ++ bad (decide (a.kind ≠ 0) || decide (7 ≤ a.fmt) || !flat a || a.fmt != (c.desc 0).fmt || a.e 1 != n) (2 * u)
      ++ bad (decide (b.kind ≠ 0) || decide (7 ≤ b.fmt) || !flat b || b.fmt != (c.desc 0).fmt || b.e 1 != k || b.e 0 != a.e 0)
          (2 * u + 1)
  let shape := match pat with
    | 1 => [p.csrCapacity, 1, 1, 1, 1]
    | 2 => [n * p.vpr, 1, 1, 1, 1]
    | _ => [k, n, 1, 1, 1]
  (List.range c.uses).flatMap use
    ++ c.descFails 8 false
    ++ (if pat = 1 ∨ pat = 2 then
          bad (if pat = 1 then p.kind != 1 else !kindIsNm p.kind) 8 ++ bad (p.e 0 != k || p.e 1 != n) 8
        else [])
    ++ c.descFails 10 true ++ bad (decide (d.kind ≠ 0)) 10 ++ bad (fmtIsGri d.fmt) 10
    ++ bad (d.ext != shape || ((pat == 1 || pat == 2) && d.rank != 1)) 10
    ++ bad (decide (4 < pat)) 12 ++ c.engineFails 13 0x5A ++ c.rmodeFails 17 0x60

/-- The arrays of SDDMM. Of the pattern only the header and the index arrays are read (R190). -/
def Ctx.sddmmAccs (c : Ctx) : List Acc :=
  let (n, k) := c.sddmmDims
  let p := c.desc 8
  let pat := c.u 0x59 1
  let idx := if p.kind = 1 then regionOf p.idx0 (64 + 8 * p.csrEntries) ++ regionOf p.idx1 (2 * p.csrCapacity)
    else regionOf p.idx0 (ceilDiv (p.e 1 * p.vpr * (nmShape p.kind).2.2) 8)
  ((List.range (2 * c.uses)).flatMap fun f => c.acc f false)
    ++ (if c.has 8 then [⟨8, false, idx, p.aligned, none⟩] else [])
    ++ (if pat = 3 ∨ pat = 4 then accMem 9 false (c.addr 0x48) (ceilDiv (maskBits (pat == 3) n k) 8) 64 else [])
    ++ c.acc 10 true

/-- SDDMM (R190–R194). -/
def specSddmm : OpSpec :=
  { code := 0x0205, classes := tensorClasses, len := fun _ => 112, engine := some 0x5A,
    descs := fun b => ((List.range (2 * clampNat 1 4 (fieldAt b 0x58 1))).map fun f => (f, 8 * f))
      ++ (if fieldAt b 0x59 1 = 1 ∨ fieldAt b 0x59 1 = 2 then [(8, 0x40)] else []) ++ [(10, 0x50)],
    fails := Ctx.sddmmFails, accs := Ctx.sddmmAccs, buffers := fun c => c.sddmmJob.buffers,
    clamps := fun c => clampBit 11 1 4 (c.u 0x58 1) ++ clampBit 14 1 64 (c.u 0x5C 2)
      ++ (if (c.desc 10).trimClamped then [10] else []) }

/-- SDDMM runs (R191). -/
def execSddmm (p : PacketRef) (s : State) : Host.Outcome State Fault Refusal :=
  .next (runProduct 0x0205 Ctx.sddmmJob p s)

/-! GROUPED_MATMUL. -/

/-- G after its clamp (R236). -/
def Ctx.groups (c : Ctx) : Nat := clampNat 1 256 (c.u 0x0A 2)

/-- The field that stands for descriptor `k` (A, B, D, ADD) of group `g`. -/
def groupField (g k : Nat) : Nat := 256 + 4 * g + k

/-- The job of GROUPED_MATMUL: the groups with tiles, in order (R237). -/
def Ctx.groupedJob (c : Ctx) : Job :=
  let gs := List.range c.groups
  let add := fun (g : Nat) => if c.has (groupField g 3) then some (c.loc (groupField g 3)) else none
  let live := gs.filter fun g => decide (0 < (c.desc (groupField g 2)).tileCount)
  { prods := live.map fun g =>
      c.denseProd (c.loc (groupField g 0)) (c.loc (groupField g 1)) (c.loc (groupField g 2)) (groupField g 2) (add g) false,
    leaves := c.snap.leaves, splitMax := clampNat 1 64 (c.u 0x0C 2), rg := c.rgroup 0x10, canSplit := true,
    reads := live.flatMap fun g => (c.loc (groupField g 0)).spans ++ (c.loc (groupField g 1)).spans
      ++ (match add g with | some e => e.spans | none => []),
    codes := [], count1 := (gs.map fun g => (c.desc (groupField g 2)).tileCount).sum, opflags := 0,
    tern := (gs.map fun g => c.s.ternDense (c.loc (groupField g 0)) + c.s.ternDense (c.loc (groupField g 1))
      + (match add g with | some e => c.s.ternDense e | none => 0)).sum, late := [] }

/-- GROUPED_MATMUL (R236). -/
def specGroupedMatmul : OpSpec :=
  { code := 0x0206, classes := tensorClasses, len := fun _ => 32, engine := some 8,
    items := fun c => [⟨0, c.addr 0, 32 * c.groups, 64⟩],
    moreDescs := fun c => (List.range c.groups).flatMap fun g => (List.range 4).filterMap fun k =>
      let a := fieldAt (c.item 0) (32 * g + 8 * k) 8
      if k = 3 ∧ a = 0 then none else some (groupField g k, a),
    fails := fun c => ((List.range c.groups).flatMap fun g =>
        c.denseFails (groupField g 0) (groupField g 1) (groupField g 2) (groupField g 3))
      ++ c.engineFails 1 8 ++ c.rmodeFails 6 0x10,
    accs := fun c => (List.range c.groups).flatMap fun g =>
      c.acc (groupField g 0) false ++ c.acc (groupField g 1) false ++ c.acc (groupField g 2) true ++ c.acc (groupField g 3) false,
    exempt := (List.range 256).map fun g => (groupField g 2, groupField g 3),
    buffers := fun c => c.groupedJob.buffers,
    clamps := fun c => clampBit 2 1 256 (c.u 0x0A 2) ++ clampBit 3 1 64 (c.u 0x0C 2)
      ++ (if (List.range c.groups).any fun g => (c.desc (groupField g 2)).trimClamped then [0] else []) }

/-- GROUPED_MATMUL runs (R237). -/
def execGroupedMatmul (p : PacketRef) (s : State) : Host.Outcome State Fault Refusal :=
  .next (runProduct 0x0206 Ctx.groupedJob p s)

/-! Combining. -/

/-- The job of a product packet by its opcode. -/
def Ctx.job (c : Ctx) : Job :=
  match c.pkt.hdr.opcode with
  | 0x0202 => c.sparseJob
  | 0x0203 => c.sparseJob
  | 0x0204 => c.spspJob
  | 0x0205 => c.sddmmJob
  | 0x0206 => c.groupedJob
  | _ => c.matmulJob

/-- The last area of an SPSP with a CSR D read back: D is written whole (R175). -/
def Ctx.combineCsr (c : Ctx) (j : Job) (tile : Nat) : Option (WorkOut × List CombineArea) :=
  if arrivalDue c.pkt.combine tile then
    let done := readBack c.pkt.combine tile
    if done.all fun x => x.arrived == 0 then
      let es := done.flatMap j.areaElems
      let (r, ws) := c.spspCsrResult j (fun n => (es.lookup n).getD .bad) c.pkt.res
      some ({ reads := [], writes := ws, res := r }, [])
    else some ({ reads := [], writes := [], res := c.pkt.res }, done)
  else none

/-- The last leaf of a tile arrives, and its combine area is read back (R115); the packet is finished with its last one. Another occasion
leaves the state as it is (log entry 1). -/
def combineStep (p : PacketRef) (tile : Nat) (s : State) : State :=
  match s.packet p with
  | none => s
  | some k =>
    if k.phase = .running ∧ s.fatal = false then
      match s.ctx p.part k with
      | none => s
      | some c =>
        let j := c.job
        match (if k.hdr.opcode = 0x0204 ∧ (c.desc 2).kind = 1 then c.combineCsr j tile else c.combineTile j tile) with
        | none => s
        | some (w, areas) =>
          let codes := s.accessCodes k.carriers [] w.writes
          let up := !codes.contains ERR_PEER_UNREACHABLE
          let res := if up then { w.res with codes := w.res.codes ++ codes } else { k.res with codes := k.res.codes ++ codes }
          (if up then s.storeAll w.writes else s).setPacket p.part
            { k with phase := if areas.isEmpty then .finished else .running, combine := areas, res := res }
    else s

/-- SPLIT_K_COMBINE (R115). -/
def execSplitKCombine (p : PacketRef) (tile : Nat) (s : State) : Host.Outcome State Fault Refusal :=
  .next (combineStep p tile s)

end Sys2Proof.Machine
end

