-- ==== Sys2Proof/Machine/Integrity.lean ====
section
/-! DEFINITION. Scrubbing (R275, R276, R278, R279), and the timed drain of merge-buffer entries (R271). -/

namespace Sys2Proof.Machine

/-! Scrubbing. -/

/-- The populated granules of a unit (Table 11.4): a slice, a stack, or a channel with its DIMM. -/
def State.unitGranules (s : State) (k : MemKind) (unit : Nat) : Nat :=
  match k with
  | .scratchpad => sliceBytes / 64
  | .hbm => 48 * gib / 64
  | .sump => if s.channels.contains unit then s.sumpCapacity * gib / 64 else 0

/-- The units of a memory kind. -/
def unitCount (k : MemKind) : Nat := if k = .scratchpad then 256 else 8

/-- The scrubber of a unit, before its first read at the start of pass 0. -/
def State.scrubber (s : State) (k : MemKind) (unit : Nat) : Scrubber :=
  (s.scrubbers.find? fun x => x.mem == k && x.unit == unit).getD ⟨k, unit, 0, 0⟩

/-- A scrubber replaced. -/
def State.setScrubber (s : State) (x : Scrubber) : State :=
  { s with scrubbers := (s.scrubbers.filter fun y => !(y.mem == x.mem && y.unit == x.unit)) ++ [x] }

/-- Whether a unit is scrubbed (R276): powered, not retired, and not in STANDBY. -/
def State.scrubs (s : State) (k : MemKind) (unit : Nat) : Bool :=
  decide (unit < unitCount k) && s.unitUp k unit
    && (match (s.part (s.lowQ (quarterOfUnit k unit))).pstate with | .standby | .waking => false | _ => true)

/-- SCRUB_READ (R275): the next granule of a unit is read, its merge-buffer entry first; corrected and uncorrectable codewords are
written back. A pass whose granules have all been read waits for its end. -/
def execScrubRead (mem : MemKind) (unit : Nat) (s : State) : Host.Outcome State Fault Refusal :=
  let x := s.scrubber mem unit
  if s.scrubs mem unit && decide (x.granule < s.unitGranules mem unit) then
    let a := s.addrOf mem unit (64 * x.granule)
    let s1 := (granuleCodewords a).foldl (fun s cw => s.decodeStore cw 0 0xFFFF false false) (s.drain a)
    .next (s1.setScrubber { x with granule := x.granule + 1 })
  else .next s

/-- SCRUB_PASS_END (R279): the pass is counted, and the trackers of the unit clear. -/
def execScrubPassEnd (mem : MemKind) (unit : Nat) (s : State) : Host.Outcome State Fault Refusal :=
  let x := s.scrubber mem unit
  let mine := fun (t : Tracker) => t.mem == mem && (if mem = .hbm then t.unit / 64 else t.unit) == unit
  if s.scrubs mem unit && decide (0 < s.unitGranules mem unit ∧ s.unitGranules mem unit ≤ x.granule) then
    .next { s.setScrubber { x with granule := 0, passes := x.passes + 1 } with trackers := s.trackers.filter fun t => !mine t }
  else .next s

/-- MERGE_ENTRY_TIMEOUT (R271): an entry without a new write for 64 cycles drains. -/
def execMergeEntryTimeout (granule : Nat) (s : State) : Host.Outcome State Fault Refusal := .next (s.drain granule)

end Sys2Proof.Machine
end

