-- ==== Sys2Proof/Machine/Fabric.lean ====
section
/-! DEFINITION. Flits on the on-die fabric: links with their credits, replay buffers and dual-clock queues, the arbiters of router outputs, crossing
ports and memory controllers, the failure of links, and the state of the seam (R288, R291–R295, R298–R304). -/

namespace Sys2Proof.Machine

/-! Clocks (Table 12.6), by their numbers of Table 18.4; 42 is MCLK. -/

/-- Whether a half's NCLK runs at 600 MHz (R451): a partition that holds a quarter of it asks so. -/
def State.nclkSlow (s : State) (half : Nat) : Bool :=
  s.partList.any fun p => ((s.quarters p).any fun q => q / 2 == half) && (s.part p).clockReq.testBit (32 + half)

/-- A half's NCLK in MHz. -/
def State.nclkMhz (s : State) (half : Nat) : Nat := if s.nclkSlow half then 600 else 1200

/-- The frequency of a clock in MHz. LCLK, which the lane rate sets, is not given (log entry 104). -/
def State.clockMhz (s : State) (c : Nat) : Nat :=
  if c < 2 then (s.halves[c]?.map (·.aclk)).getD 0
  else if c < 4 then s.nclkMhz (c - 2)
  else if c < 12 then 1000
  else if c < 20 then s.sumpRate / 8
  else if c < 40 then Config.lclkMhz (c - 20)
  else if c = 40 then 1000
  else if c = 41 then 800
  else 500

/-- The clock of a unit. That of the snapshot store's controller is taken as MCLK (DESIGN CHOICE, log entry 104). -/
def State.unitClock (s : State) : FabUnit → Nat
  | .slice n => n / 128
  | .hbm st _ => 4 + st
  | .sump ch => 12 + ch
  | .lanug n => 20 + n
  | .dual n => if s.runsLanug (16 + n) then 36 + n else 40
  | .ingest _ => 41
  | .aon _ | .snapshot _ => 42
  | .haul n => 2 + n / 32
  | .dressing n => 2 + n / 8

/-- The clock of the unit at an attachment, that of the routers where none is. -/
def State.attachClock (s : State) (a : Attach) : Nat := ((unitAt a).map s.unitClock).getD (2 + routerHalf a.router)

/-- The clock at a link's sending end. -/
def State.sendClock (s : State) : FabricLink → Nat
  | .mesh n p => s.attachClock ⟨n, p⟩
  | .unit n _ => 2 + routerHalf n
  | .crossing _ toWest => if toWest then 2 else 3

/-- The clock at a link's receiving end. -/
def State.recvClock (s : State) : FabricLink → Nat
  | .mesh n _ => 2 + routerHalf n
  | .unit n p => s.attachClock ⟨n, p⟩
  | .crossing _ toWest => if toWest then 3 else 2

/-- Whether a link has a dual-clock queue (R301, R304). -/
def State.dualClock (s : State) (l : FabricLink) : Bool := s.sendClock l != s.recvClock l

/-- Whether a clock has an edge in the `t`-th sixth of a nanosecond. No clock is locked to another: the phases are free (log entry 104). -/
def State.ticks (s : State) (c t : Nat) : Bool :=
  let at_ := fun (t : Nat) => (t * s.clockMhz c + Config.clockPhase c) / 6000
  at_ t != at_ (t + 1) && !s.clocksLost.contains c && (c != 2 || !s.halvesDown.contains 0) && (c != 3 || !s.halvesDown.contains 1)

/-! Links. -/

/-- A link that has carried nothing yet: the sender holds every credit. -/
def FabLink.start (l : FabricLink) : FabLink := ⟨l, 0, false, 0, 0, 0, false, 0, [], [0, 0, 0, 0], [], [], [], [], [], []⟩

/-- The state of a link. -/
def State.link (s : State) (l : FabricLink) : FabLink := (s.fabric.find? fun x => x.link == l).getD (FabLink.start l)

/-- A link's state replaced. -/
def State.setLink (s : State) (x : FabLink) : State :=
  { s with fabric := (s.fabric.filter fun y => y.link != x.link) ++ [x] }

/-- Whether a link exists and carries flits: its half is up, and for a crossing port the far half too, the port not retired. -/
def State.linkUp (s : State) (l : FabricLink) : Bool :=
  match l with
  | .mesh n p => meshLink n p && !s.halvesDown.contains (routerHalf n)
  | .unit n p => decide (n < 128) && (unitAt ⟨n, p⟩).isSome && !s.halvesDown.contains (routerHalf n)
  | .crossing p _ => decide (p < 64) && s.halvesDown.isEmpty && !s.crossingsRetired.contains p

/-- Whether the sender holds a credit of a channel: 16 entries for each channel at a router's or unit's port (R292), and at a crossing port 4 private
and 2 shared entries for VC0–VC2 and 2 for VC3 (R301). -/
def FabLink.credit (x : FabLink) (vc : Nat) : Bool :=
  let n := fun (v : Nat) => x.taken[v]?.getD 0
  match x.link with
  | .crossing _ _ => if vc = 3 then decide (n 3 < 2) else decide (n vc < 4 ∨ (n 0 - 4) + (n 1 - 4) + (n 2 - 4) < 2)
  | _ => decide (n vc < 16)

/-- Whether a sender can send a flit of a channel: it holds a credit, and no flit not yet accepted would leave its replay buffer (R292, R298; DEDUCED,
log entry 105). -/
def FabLink.ready (x : FabLink) (vc : Nat) : Bool := x.credit vc && decide (x.next < x.expect + 32)

/-- A flit sent: it takes a credit, and the replay buffer keeps the last 32 (R292, R298). -/
def FabLink.send (x : FabLink) (f : FabricFlit) : FabLink :=
  { x with next := x.next + 1, sent := (x.sent ++ [{ f with seq := x.next, crcOk := true }]).drop (x.sent.length + 1 - 32),
           taken := x.taken.modify f.vc (· + 1) }

/-- A credit of a channel given back. -/
def FabLink.giveBack (x : FabLink) (vc : Nat) : FabLink := { x with taken := x.taken.modify vc (· - 1) }

/-- A flit that leaves a link's buffer: its credit goes back, through a dual-clock queue at the second sending edge after the read (R292, R302). -/
def FabLink.credited (x : FabLink) (dual : Bool) (vc : Nat) : FabLink := if dual then { x with back := x.back ++ [(vc, 0)] } else x.giveBack vc

/-- An edge of the sending clock: each credit on its way back is usable at the second (R302). -/
def FabLink.sendEdge (x : FabLink) : FabLink :=
  let aged := x.back.map fun b => (b.1, b.2 + 1)
  (aged.filter fun b => b.2 == 2).foldl (fun x b => x.giveBack b.1) { x with back := aged.filter fun b => b.2 != 2 }

/-- The flits of a channel in a link's buffer. -/
def FabLink.heldOf (x : FabLink) (vc : Nat) : List FabricFlit := x.held.filter fun f => f.vc == vc

/-- Flits read out of a dual-clock queue at a receiving edge, oldest first, at most `fuel`: one is readable at the second edge after it was written, and
the input port behind the queue holds 16 of a channel (R292, R302); a unit takes what it reads. -/
def FabLink.readOut : Nat → FabLink → FabLink
  | 0, x => x
  | fuel + 1, x =>
    match x.queued with
    | [] => x
    | e :: rest =>
      if e.edges < 2 || (x.link.isPort && decide (16 ≤ (x.heldOf e.flit.vc).length)) then x
      else
        let y := { x with queued := rest, held := x.held ++ [e.flit] }
        FabLink.readOut fuel (match x.link with | .mesh _ _ => y | _ => y.credited true e.flit.vc)

/-- An edge of the receiving clock. -/
def FabLink.recvEdge (x : FabLink) : FabLink :=
  FabLink.readOut x.link.flitsPerCycle { x with queued := x.queued.map fun e => { e with edges := e.edges + 1 } }

/-- A good flit taken in: into the dual-clock queue, or the buffer behind it. -/
def FabLink.take (x : FabLink) (dual : Bool) (f : FabricFlit) : FabLink :=
  if dual then { x with queued := x.queued ++ [⟨f, 0⟩] }
  else
    let y := { x with held := x.held ++ [f] }
    if x.link.isPort then y else y.giveBack f.vc

/-! Messages on the fabric. -/

/-- The flits of a link that have not left it: sent and not yet accepted, queued, and held. -/
def FabLink.flits (x : FabLink) : List FabricFlit := (x.sent.filter fun f => decide (x.expect ≤ f.seq)) ++ x.queued.map (·.flit) ++ x.held

/-- The messages of which some flit is on the fabric. -/
def State.fabricMessages (s : State) : List FabricMsg :=
  (s.fabric.flatMap FabLink.flits).foldl (fun ms f => if ms.contains f.msg then ms else ms ++ [f.msg]) []

/-- Whether a message cannot arrive: its destination's half is down (R303), or a link of its route has failed (R299). -/
def State.messageFails (s : State) (m : FabricMsg) : Bool :=
  s.halvesDown.contains (routerHalf m.dst.router) || s.routeFails m.kind.vc m.src m.dst

/-- A packet whose work has not ended stops with ERR_PEER_UNREACHABLE. -/
def State.stopPacket (s : State) (p : Nat) (k : Packet) : State :=
  if k.phase = .running then s.endFailed p k ERR_PEER_UNREACHABLE
  else if k.phase = .ready then s.endPacket p { k with res := Result.empty } ERR_PEER_UNREACHABLE
  else s

/-- A request that is lost completes at its requester with ERR_PEER_UNREACHABLE (R299, R303), and so does the packet for which it was made; an answer is
dropped. -/
def State.loseMessage (s : State) (m : FabricMsg) : State :=
  if m.kind.response then s
  else
    let s1 := s.emit (.fabricFailed m.id)
    match m.owner with
    | none => s1
    | some r => match s1.packet r with | some k => s1.stopPacket r.part k | none => s1

/-- A link without the flits of some messages that are queued or held: the room they leave is credited. -/
def FabLink.drop (x : FabLink) (gone : FabricMsg → Bool) : FabLink :=
  let queued := (x.queued.map (·.flit)).filter fun f => gone f.msg
  let held := x.held.filter fun f => gone f.msg
  let y := { x with queued := x.queued.filter (fun e => !gone e.flit.msg), held := x.held.filter (fun f => !gone f.msg) }
  (match x.link with | .mesh _ _ => queued ++ held | _ => queued).foldl (fun x (f : FabricFlit) => x.giveBack f.vc) y

/-- Messages taken off the fabric. -/
def State.dropMessages (s : State) (gone : FabricMsg → Bool) : State := { s with fabric := s.fabric.map (·.drop gone) }

/-- The messages that can no longer arrive complete at their requesters, and their flits go. -/
def State.settleRoutes (s : State) : State :=
  let ms := s.fabricMessages.filter s.messageFails
  ms.foldl State.loseMessage (s.dropMessages ms.contains)

/-- A retry counted in its window of 2,048 receiving NCLK cycles (R299), by the MCLK of 500 MHz. -/
def FabLink.countRetry (x : FabLink) (mclk mhz : Nat) : FabLink :=
  if 2048 * 500 ≤ (mclk - x.windowAt) * mhz then { x with inWindow := 1, windowAt := mclk } else { x with inWindow := x.inWindow + 1 }

/-- The flit that arrives on a link in the place of `f`: what its sender keeps for a replay, or `f` itself, which its sender then sends now; none where
the sender cannot. -/
def FabLink.arriving (x : FabLink) (f : FabricFlit) : Option (FabricFlit × FabLink) :=
  match x.sent.find? fun g => g.seq == f.seq with
  | some g => some (g, x)
  | none => if x.ready f.vc then some (f, x.send f) else none

/-- FABRIC_FLIT_RECEIVE (R298): a good flit in sequence is accepted; one whose CRC fails is discarded with every later one until the
replay, which is asked for from the failed flit. A flit for which its sender holds no credit does not come. A message that cannot arrive completes at
its requester when its first flit enters the mesh, and its flits go no further (R299, R303). -/
def execFabricFlitReceive (link : FabricLink) (flit : FabricFlit) (s : State) : Host.Outcome State Fault Refusal :=
  let x := s.link link
  if !s.linkUp link || x.failed || flit.seq != x.expect then .next s
  else
    match x.arriving flit with
    | none => .next s
    | some (f, y) =>
      if !flit.crcOk then
        .next ((s.setLink { y.countRetry s.mclk (s.nclkMhz (routerHalf link.router)) with awaiting := true, inRow := y.inRow + 1 }).emit
          (.fabricReplay link x.expect))
      else
        let z := { y with expect := y.expect + 1, awaiting := false, inRow := 0 }
        if s.messageFails f.msg then
          let s1 := s.setLink (z.giveBack f.vc)
          .next (if link = .mesh f.msg.src.router f.msg.src.port ∧ f.index = 0 then s1.loseMessage f.msg else s1)
        else .next (s.setLink (z.take (s.dualClock link) f))

/-- Whether a link's retries are past their limits (R299): one flit has failed 8 retries in a row, or a window has held more than 128. A slice's port is
no mesh link, as Table 18.3's positions 2–9 say (DEDUCED, log entry 107). -/
def FabLink.pastLimit (x : FabLink) : Bool :=
  (match x.link with | .mesh _ p | .unit _ p => decide (2 ≤ p) | .crossing _ _ => true) && decide (9 ≤ x.inRow ∨ 128 < x.inWindow)

/-- The crossing port that takes over a retired one's traffic (R299). -/
def crossingBackup (p : Nat) : Nat := p / 4 * 4 + (p + 1) % 4

/-- The flits that one direction of a retired crossing port has sent and not had accepted, back in the sending router's input port, from which they go on
by the port that takes over (R299). -/
def State.turnBack (s : State) (p : Nat) (toWest : Bool) : State :=
  let x := s.link (.crossing p toWest)
  let s1 := s.setLink { x with sent := [] }
  let y := s1.link (.crossing p !toWest)
  s1.setLink { y with held := (x.sent.filter fun f => decide (x.expect ≤ f.seq)) ++ y.held }

/-- MESH_LINK_FAILED (R299): a link past its limits fails, and every message whose route uses it completes at its requester; or its crossing port is
retired, and its traffic moves. The event is logged. -/
def execMeshLinkFailed (link : FabricLink) (s : State) : Host.Outcome State Fault Refusal :=
  let x := s.link link
  if !s.linkUp link || x.failed || !x.pastLimit then .next s
  else
    let s1 := s.setLink { x with failed := true }
    match link with
    | .mesh n p | .unit n p => .next (s1.settleRoutes.logQuarter (routerQuarter n) (mkEvent 0x41 n p))
    | .crossing p _ =>
      let s2 := { s1 with crossingsRetired := setIns s1.crossingsRetired p }
      .next (((s2.turnBack p true).turnBack p false).settleRoutes.logAll (mkEvent 0x42 p (crossingBackup p)))

/-! The arbiters of the fabric (R293, R294), which have no QUOTA. -/

/-- The waits of an arbiter's inputs after a grant: the winner's clears, and each other requester's counts one lost grant. -/
def countWaits (waits : Tbl Nat) (limit : Nat) (reqs : List Nat) (w : Nat) : Tbl Nat :=
  reqs.foldl (fun t i => Tbl.set 0 t i (if i = w then 0 else min (Tbl.get 0 t i + 1) limit)) waits

/-- The oldest flits of each channel at a half's routers with the links that they wait for: the input's link, its number (16 × VC + port), the flit and
the link out. -/
def State.waitingFlits (s : State) (half : Nat) : List (FabricLink × Nat × FabricFlit × FabricLink) :=
  s.fabric.flatMap fun x =>
    match x.link with
    | .unit _ _ => []
    | l =>
      if routerHalf l.router ≠ half then []
      else (List.range 4).filterMap fun v =>
        match x.heldOf v with
        | [] => none
        | f :: _ => (s.nextLink v f.msg.src f.msg.dst l.router).map fun out => (l, 16 * v + l.inPort, f, out)

/-- Up to `fuel` flits of one channel moved from a router's input to a link out, in order, while they go that way and there is room for them. -/
def State.moveOut : Nat → FabricLink → Nat → FabricLink → State → State
  | 0, _, _, _, s => s
  | fuel + 1, l, v, out, s =>
    let x := s.link l
    match x.heldOf v with
    | [] => s
    | f :: _ =>
      if s.nextLink v f.msg.src f.msg.dst l.router = some out ∧ (s.link out).ready v = true then
        let y := { x with held := x.held.erase f }
        let s1 := s.setLink (match l with | .mesh _ _ => y.credited (s.dualClock l) v | _ => y)
        State.moveOut fuel l v out (s1.setLink ((s1.link out).send f))
      else s

/-- One grant of a router's output port in an NCLK cycle: up to 8 flits of the winner, or 1 on a 64 B port, with limit 32. At a crossing port its own
arbiter, with limit 16, chooses the channel first (Table 12.3). -/
def State.grantOutput (s : State) (half : Nat) (out : FabricLink) : State :=
  let o := s.link out
  let cs := if o.failed || !s.linkUp out then [] else (s.waitingFlits half).filter fun c => decide (c.2.2.2 = out) && o.ready (c.2.1 / 16)
  let reqs := cs.map (·.2.1)
  let vcs := (List.range 4).filter fun v => reqs.any fun i => i / 16 == v
  let (reqs1, o1) :=
    match out, arbiterWinner vcs (fun v => Tbl.get 0 o.waits v) (fun _ => 16) with
    | .crossing _ _, some v => (reqs.filter fun i => i / 16 == v, { o with waits := countWaits o.waits 16 vcs v })
    | _, _ => (reqs, o)
  match arbiterWinner reqs1 (fun i => Tbl.get 0 o.outWaits i) (fun _ => 32) with
  | none => s
  | some w =>
    let s1 := s.setLink { o1 with outWaits := countWaits o.outWaits 32 reqs1 w }
    match cs.find? fun c => c.2.1 == w with
    | some c => State.moveOut out.flitsPerCycle c.1 (w / 16) out s1
    | none => s1

/-- An NCLK edge at a half's routers: each output port that a flit waits for grants. -/
def State.routerEdge (s : State) (half : Nat) : State :=
  let outs := (s.waitingFlits half).foldl (fun ls c => if ls.contains c.2.2.2 then ls else ls ++ [c.2.2.2]) []
  outs.foldl (fun s out => s.grantOutput half out) s

/-! Units (R292, R294, R295). -/

/-- The messages that have arrived whole at a unit, in the order of their first flits. -/
def FabLink.whole (x : FabLink) : List FabricMsg :=
  (x.held.foldl (fun ms f => if ms.contains f.msg then ms else ms ++ [f.msg]) []).filter fun m =>
    decide (m.flits ≤ (x.held.filter fun f => f.msg == m).length)

/-- A message handed to its unit: its flits leave, and the payload is put together (R292). -/
def State.deliver (s : State) (x : FabLink) (m : FabricMsg) : State :=
  let fs := x.held.filter fun f => f.msg == m
  (s.setLink { x with held := x.held.filter fun f => f.msg != m, served := x.served.filter fun e => e.1 != m.id }).emit
    (.fabricMessage m.dst m.id (fs.any (·.poison)) (fs.flatMap (·.payload)))

/-- The input of a memory controller's arbiter that a message waits at (Table 12.3); none for what asks nothing of memory. A slice's controller has one
input for reads and one for writes and atomics, whatever their channel. -/
def memoryInput (u : FabUnit) (k : Traffic) : Option Nat :=
  match u, k with
  | .slice _, .read | .slice _, .linkRead => some 2
  | .slice _, .write | .slice _, .atomic | .slice _, .linkWrite => some 3
  | .hbm _ _, .read | .sump _, .read => some 2
  | .hbm _ _, .write | .hbm _ _, .atomic | .sump _, .write | .sump _, .atomic => some 3
  | .hbm _ _, .linkRead | .hbm _ _, .linkWrite | .sump _, .linkRead | .sump _, .linkWrite => some 4
  | _, _ => none

/-- The accesses of a message that are done. -/
def FabLink.progress (x : FabLink) (m : FabricMsg) : Nat := (x.served.lookup m.id).getD 0

/-- The pseudo-channel of a message at a stack's port, whose controllers arbitrate each for itself; 0 for another unit. -/
def State.channelOf (s : State) (m : FabricMsg) : Nat := match s.memUnit m.addr with | some (.hbm _ pc) => pc | _ => 0

/-- The requests that are requesting at a memory controller (R295): the bank can take the command, and no earlier request to the granule waits. Refresh
and the timing rules are the memory's own (log entry 108). -/
def State.requesting (s : State) (x : FabLink) (waiting : List FabricMsg) : List FabricMsg :=
  ((List.range waiting.length).filterMap fun i =>
    waiting[i]?.bind fun m =>
      match m.granules (x.progress m) with
      | [] => some m
      | g :: _ =>
        if Config.bankReady g s.mclk && (waiting.take i).all fun e => !(e.granules (x.progress e)).contains g then some m else none)

/-- One grant of a memory controller: one 64 B access, or one cycle of a slice's controller, with limit 16. The message whose accesses are all done is
handed on. -/
def State.grantMemory (s : State) (l : FabricLink) (u : FabUnit) (ch : Nat) : State :=
  let x := s.link l
  let waiting := x.whole.filter fun m => (memoryInput u m.kind).isSome && s.channelOf m == ch
  let cs := s.requesting x waiting
  let inputs := dedupNat (cs.filterMap fun m => memoryInput u m.kind)
  match arbiterWinner inputs (fun i => Tbl.get 0 x.waits (8 * ch + i)) (fun _ => 16) with
  | none => s
  | some w =>
    match cs.find? fun m => memoryInput u m.kind == some w with
    | none => s
    | some m =>
      let n := x.progress m + 1
      let y := { x with waits := countWaits x.waits 16 (inputs.map (8 * ch + ·)) (8 * ch + w),
                        served := (x.served.filter fun e => e.1 != m.id) ++ [(m.id, n)] }
      if (m.granules n).isEmpty then s.deliver y m else s.setLink y

/-- An edge of a unit's clock: the messages that ask nothing of memory are handed over, and each memory controller grants one access. -/
def State.unitEdge (s : State) (c : Nat) : State :=
  s.fabric.foldl (fun s x =>
    match x.link with
    | .unit n p =>
      if s.recvClock x.link ≠ c then s
      else
        match unitAt ⟨n, p⟩ with
        | none => s
        | some u =>
          let ms := (s.link x.link).whole
          let s1 := (ms.filter fun m => (memoryInput u m.kind).isNone).foldl (fun s m => s.deliver (s.link x.link) m) s
          (dedupNat ((ms.filter fun m => (memoryInput u m.kind).isSome).map s.channelOf)).foldl (fun s ch => s.grantMemory x.link u ch) s1
    | _ => s) s

/-- An edge of a clock on the fabric: credits come back at sending ends, queues are read at receiving ends, and then routers and units grant. -/
def State.clockEdge (s : State) (c : Nat) : State :=
  let edge := fun (x : FabLink) =>
    let y := if s.sendClock x.link = c then x.sendEdge else x
    if s.dualClock x.link = true ∧ s.recvClock x.link = c then y.recvEdge else y
  let s1 := { s with fabric := s.fabric.map edge }
  let s2 := if c = 2 ∨ c = 3 then s1.routerEdge (c - 2) else s1
  s2.unitEdge c

/-- Whether a link has nothing that a clock's edge moves. -/
def FabLink.still (x : FabLink) : Bool := x.queued.isEmpty && x.held.isEmpty && x.back.isEmpty

/-- What an MCLK cycle of 2 ns moves on the fabric: the edges of every clock in it, sixth by sixth of a nanosecond. -/
def State.moveFlits (s : State) : State :=
  if s.fabric.all FabLink.still then s
  else (List.range 12).foldl (fun s i => (List.range 43).foldl (fun s c => if s.ticks c (12 * s.mclk + i) then s.clockEdge c else s) s) s

/-! The seam (R303). -/

/-- A crossing link whose queue starts empty, with full credits; the flits that have crossed already stay in the router's input port. -/
def FabLink.restart (x : FabLink) : FabLink := { FabLink.start x.link with held := x.held, inWindow := x.inWindow, windowAt := x.windowAt, failed := x.failed }

/-- The crossing links started anew. -/
def State.clearCrossings (s : State) : State :=
  { s with fabric := s.fabric.map fun x => match x.link with | .crossing _ _ => x.restart | _ => x }

/-- Every queued flit of the crossing ports read out. -/
def State.drainCrossings (s : State) : State :=
  { s with fabric := s.fabric.map fun x => match x.link with | .crossing _ _ => { x with held := x.held ++ x.queued.map (·.flit), queued := [] } | _ => x }

/-- Whether every flit of a message has come to the half that is left. -/
def State.wholeIn (s : State) (half : Nat) (m : FabricMsg) : Bool :=
  let here := s.fabric.flatMap fun x =>
    let fs := match x.link with | .crossing _ _ => x.held | _ => x.flits
    if routerHalf x.link.router ≠ half then [] else fs.filter fun f => f.msg == m
  decide (m.flits ≤ here.length)

/-- The far half is down: the requests towards it fail at their requesters, responses to it and partial messages from it are dropped, and the
crossing ports start anew. -/
def State.dropHalf (s : State) (half : Nat) : State :=
  let up := 1 - half
  let gone := s.fabricMessages.filter fun m =>
    routerHalf m.dst.router == half || (routerHalf m.src.router == half && !s.wholeIn up m)
  let s1 := (s.dropMessages gone.contains).clearCrossings
  let s2 := { s1 with halvesDown := setIns s1.halvesDown half, fabric := s1.fabric.filter fun x => routerHalf x.link.router == up }
  (gone.filter fun m => routerHalf m.src.router == up).foldl State.loseMessage s2

/-- SEAM_PEER_DOWN (R303): no toggle of the far half for 16 cycles. -/
def execSeamPeerDown (half : Nat) (s : State) : Host.Outcome State Fault Refusal :=
  if half < 2 ∧ s.halvesDown.contains half = false ∧ s.mainUp = true then .next (s.dropHalf half) else .next s

/-- SEAM_PEER_UP (R303): toggles for 64 cycles, which a half whose NCLK has stopped or whose quarters are in STANDBY does not give. -/
def execSeamPeerUp (half : Nat) (s : State) : Host.Outcome State Fault Refusal :=
  let off := ([2 * half, 2 * half + 1] : List Nat).all fun q => (s.part (s.lowQ q)).pstate == .standby
  if half < 2 ∧ s.halvesDown.contains half = true ∧ s.clocksLost.contains (2 + half) = false ∧ off = false ∧ s.mainUp = true then
    .next ({ s with halvesDown := setDel s.halvesDown half }.clearCrossings)
  else .next s

end Sys2Proof.Machine
end

