-- ==== Sys2Proof/Machine/Slow.lean ====
section
/-! DEFINITION. The slow copies of blocks 0x4000 and 0x5000 (R385–R387, Tables 16.6 and 16.7, R447) and their refresh at an SCLK edge
(R304). -/

namespace Sys2Proof.Machine

/-- Whether a quarter is in STANDBY, or still on its way out of it. -/
def State.quarterOff (s : State) (q : Nat) : Bool := match (s.part (s.lowQ q)).pstate with | .standby | .waking => true | _ => false

/-- Whether a quarter's benches and ingest may be on (Table 20.7): it is in ACTIVE or BENCH-IDLE, or its partition is still entering another
state. -/
def State.quarterActive (s : State) (q : Nat) : Bool := match (s.part (s.lowQ q)).pstate with | .active | .entering _ => true | _ => false

/-- The powered domains (Table 20.4) by their bit of PD_ON. -/
def State.domainOn (s : State) (bit : Nat) : Bool :=
  let half := fun (f : Nat → Bool) (h : Nat) => f (2 * h) || f (2 * h + 1)
  let on := fun (q : Nat) => !s.quarterOff q
  let any := (List.range 4).any on
  s.mainUp && !s.tripped &&
    (if bit < 32 then s.quarterActive (bit / 8) && !s.gatedBenches.contains bit
     else if bit < 34 then half on (bit - 32)
     else if bit < 36 then half s.quarterActive (bit - 34)
     else if bit < 44 then on ((bit - 36) / 2) && !s.stacksOff.contains (bit - 36)
     else if bit < 46 then half on (bit - 44)
     else if bit < 48 then half on (bit - 46)
     else if bit = 48 then any || !s.board.xLanug
     else any)

/-- PSTATE of a quarter (Table 16.6): BENCH-IDLE when its eight benches are gated. -/
def State.quarterState (s : State) (q : Nat) : Nat :=
  match (s.part (s.lowQ q)).pstate with
  | .quiesce => 2
  | .standby | .waking => 3
  | _ => if (List.range 8).all fun i => s.gatedBenches.contains (8 * q + i) then 1 else 0

/-- A half of the module. -/
def State.half (s : State) (h : Nat) : Half := s.halves[h]?.getD ⟨940, 940, 0, 0, 0⟩

/-- The six registers of block 0x4000 as their sources stand (Table 16.6). -/
def State.powerWords (s : State) : List Word :=
  let x := s.sensors
  let u16 := fun (v : Int) => unsigned 16 v
  let nclk := fun (h : Nat) => if !s.mainUp || s.clocksLost.contains (2 + h) then 0 else s.nclkMhz h
  let aclk := fun (h : Nat) => if !s.mainUp || s.clocksLost.contains h then 0 else (s.half h).aclk
  let words : List Nat :=
    [min x.powerW 65535 * 2 ^ 32 + min x.current10mA 65535 * 2 ^ 16 + min x.vinMv 65535,
     u16 x.tBoard * 2 ^ 48 + u16 x.tHbm * 2 ^ 32 + u16 x.tjW * 2 ^ 16 + u16 x.tjE,
     nclk 1 * 2 ^ 48 + nclk 0 * 2 ^ 32 + aclk 1 * 2 ^ 16 + aclk 0,
     (s.half 1).why.toNat * 2 ^ 20 + (s.half 0).why.toNat * 2 ^ 16 + (s.half 1).steps * 2 ^ 8 + (s.half 0).steps,
     ((List.range 50).map fun b => if s.domainOn b then 2 ^ b else 0).sum,
     ((List.range 4).map fun q => s.quarterState q * 4 ^ q).sum]
  words.map (BitVec.ofNat 64)

/-- STATE of a port (Table 16.7). -/
def PortState.code : PortState → Nat
  | .down => 0 | .training => 1 | .up => 2 | .retraining => 3

/-- LINK_STATE of a port as it stands (Table 16.7). -/
def State.linkWord (s : State) (i : Nat) : Word :=
  let p := s.port i
  let mask := fun (ls : List Nat) => (ls.map fun l => 2 ^ l).sum
  let inUse := if p.width = 0 then [] else ([0, 1, 2, 3] : List Nat).filter fun l => !p.retired.contains l
  let pcie := !s.board.xLanug
  BitVec.ofNat 64 ((if 16 ≤ i ∧ pcie = true then s.pcieSpeed * 2 ^ 24 + s.pcieWidth * 2 ^ 16 else 0) + mask p.retired * 2 ^ 12
    + mask inUse * 2 ^ 8 + p.state.code * 2 ^ 5 + (if p.keys.isSome then 16 else 0) + (if pcie then 8 else 0) + p.width)

/-- A handshake of one link-event counter (R387): what a read returned is subtracted, and the copy is taken again. -/
def EventCount.handshake (e : EventCount) : EventCount :=
  { count := e.count - e.subtract, copy := e.count - e.subtract, subtract := 0 }

/-- A port's slow copies refreshed. -/
def Port.refresh (p : Port) (word : Word) : Port :=
  { p with stateCopy := word, downs := p.downs.handshake, retrains := p.retrains.handshake, replays := p.replays.handshake,
           msgDrops := p.msgDrops.handshake, tagFails := p.tagFails.handshake }

/-- Every slow copy refreshed at an SCLK edge (R385). -/
def State.refreshSlow (s : State) : State :=
  { s with slowPower := s.powerWords, ports := ((List.range s.ports.length).zip s.ports).map fun x => x.2.refresh (s.linkWord x.1) }

end Sys2Proof.Machine
end

