-- ==== Sys2Proof/Machine/Update.lean ====
section
/-! DEFINITION. UPDATE (R207–R211) and MASKEDIT (R212–R216), with the turns and waits of version entries (R206, R212). -/

namespace Sys2Proof.Machine

/-! Storing some positions of a value array. -/

/-- The value array of a weight as a DENSE tensor: itself, the slots of a CSR, or the rows of values of an N:M tensor (R79). -/
def Desc.valueView (d : Desc) : Desc :=
  if d.kind = 0 then d
  else if d.kind = 1 then
    { d with kind := 0, rank := 1, ext := [d.csrCapacity, 1, 1, 1, 1], stride := [0, 0, 0, 0, 0], scaleStride := 0,
             trimLo := [0, 0, 0, 0, 0], trimHi := [0, 0, 0, 0, 0] }
  else
    { d with kind := 0, rank := 2, ext := [d.vpr, d.e 1, 1, 1, 1], stride := [0, ((d.vpr * d.w / 8 : Nat) : Int), 0, 0, 0],
             trimLo := [0, 0, 0, 0, 0], trimHi := [0, 0, 0, 0, 0] }

/-- The positions of a tensor that `val` gives, stored; the others keep their bits. In a scaled block that keeps some codes the scale is
chosen over the elements that are stored (DEDUCED, log entry 16); `keep` gives the code of a position. -/
def storeSome (d : Desc) (rg : RGroup) (keep : Nat → Nat) (val : Nat → Option OutElt) : StoreOut :=
  if d.isScaled then
    let nb := ceilDiv (d.e 0) 32
    let block := fun (b : Nat) =>
      let i0 := b % nb * 32
      let len := min 32 (d.e 0 - i0)
      let n0 := b / nb * d.e 0 + i0
      let ns := (List.range len).map (n0 + ·)
      let new := ns.filterMap fun n => (val n).map fun o => (n, o)
      let c := d.coords n0
      if new.isEmpty then StoreOut.empty
      else if !d.owned c then ⟨[], .zero, new.length, 0⟩
      else
        let (codes, sc, cnt) := encodeBlock d.fmt .choose (new.map fun e => rg.rnd (d.indexBase + e.1)) (new.map (·.2))
        let ncs := (new.map (·.1)).zip codes
        let bad := new.any fun e => e.2.poison
        ⟨[⟨d.bitAddr c / 8, toLe (ceilDiv (len * d.w) 8) (packCodes d.w (ns.map fun n => (ncs.lookup n).getD (keep n))), bad⟩,
          ⟨d.scaleAddr c, [BitVec.ofNat 8 sc], bad⟩], cnt, 0, new.length⟩
    ((List.range (d.outer * nb)).map block).foldr StoreOut.add .empty
  else
    ((List.range d.total).map fun n =>
      match val n with
      | none => StoreOut.empty
      | some o => if d.owned (d.coords n) then storeOne d.fmt (rg.rnd (d.indexBase + n)) (d.bitAddr (d.coords n) / 8) o
          else ⟨[], .zero, 1, 0⟩).foldr StoreOut.add .empty

/-- A stretch of memory copied, its poisoned units as poison (R209). -/
def State.copyWrites (s : State) (src dst len : Nat) : List Write :=
  if s.poison.isEmpty && s.faults.isEmpty then (if len = 0 then [] else [⟨dst, s.read src len, false⟩])
  else (List.range (ceilDiv len 16)).map fun i =>
    let n := min 16 (len - 16 * i)
    ⟨dst + 16 * i, s.read (src + 16 * i) n, s.badIn (src + 16 * i) n⟩

/-! UPDATE. -/

/-- The FP32 fields of UPDATE: offset, field, lowest and highest legal value (R207). -/
def updateFields : List (Nat × Nat × Rat × Rat) :=
  [(0x38, 7, 0, FloatFmt.f32.top), (0x3C, 8, 0, 1), (0x40, 9, 0, 1), (0x44, 10, 0, FloatFmt.f32.top),
   (0x48, 11, 0, FloatFmt.f32.top), (0x4C, 12, pow2 (-126), 1), (0x50, 13, pow2 (-126), 1)]

/-- An FP32 value clamped to a range, and whether it was outside. -/
def clampNum (lo hi : Rat) (v : Num) : Rat × Bool :=
  match v with
  | .fin x => if x < lo then (lo, true) else if hi < x then (hi, true) else (x, false)
  | .inf true => (lo, true)
  | .inf false => (hi, true)
  | _ => if 0 < lo then (lo, true) else (0, false)

/-- A clamped FP32 field of UPDATE. -/
def Ctx.upField (c : Ctx) (off : Nat) : Num :=
  match updateFields.find? (fun x => x.1 == off) with
  | some (_, _, lo, hi) => .fin (clampNum lo hi (c.f32 off)).1
  | none => .fin 0

/-- UFLAGS (Table 8.9): UNTOUCHED, DECAY_UNTOUCHED, NF_PROCEED. -/
def Ctx.uflag (c : Ctx) (bit : Nat) : Bool := (c.u 0x58 1).testBit bit

/-- The non-finite total read at the snapshot; 0 without NF_PTR (R207). -/
def Ctx.nfTotal (c : Ctx) : Nat := if c.u 0x30 8 = 0 then 0 else leNat (c.item 6)

/-- Whether UPDATE changes anything (R210). -/
def Ctx.updates (c : Ctx) : Bool := !(c.uflag 0 && !c.uflag 1) && !(c.nfTotal != 0 && !c.uflag 2)

/-- The version entry that UPDATE or MASKEDIT writes: the one whose primary region 0 is W's value region (R207). -/
def Ctx.weightEntry (c : Ctx) : Option Nat :=
  match ((c.desc 0).regions (c.desc 0).csrCapacity).head? with
  | some r => (c.s.part c.p).entryOf r
  | none => none

/-- W in the buffers of a version of its entry (R199); as it is when it lies in none. -/
def Ctx.weightAt (c : Ctx) (up : Nat) : Desc :=
  let d := c.desc 0
  match c.weightEntry with
  | some e =>
    let v := (c.s.part c.p).version e
    { d with base := v.shift (v.ver + up) d.base, scalePtr := v.shift (v.ver + up) d.scalePtr }
  | none => d

/-- An IEEE 754 quotient, exact. -/
def numDiv (a b : Num) : Num :=
  if a.isNan || b.isNan then .nan
  else if b.isZero then (if a.isZero then .nan else .inf (a.isNeg != b.isNeg))
  else if a.isFinite then (if b.isFinite then .fin (a.q / b.q) else .fin 0)
  else if b.isFinite then .inf (a.isNeg != b.isNeg) else .nan

/-- rnd() of w where W holds it (R208): an IEEE rounding into W's format, which overflows to an infinity; exact for a scaled W, whose
blocks are rounded by R77, and for WIDE160 (DEDUCED, log entry 88). -/
def Desc.rndW (d : Desc) (x : Num) : Num :=
  if d.isScaled then x
  else
    match fmtFloat d.fmt with
    | some f => f.ieee x
    | none => x

/-- One optimiser step (R208): w, m and v after it; `rw` is rnd() of w in the format of the master, or of W. -/
def updateStep (opt : Nat) (decay : Bool) (rw : Num → Num) (fm fv : Nat) (lr b1 b2 eps wd bc1 bc2 w h m v : Num) : Num × Num × Num :=
  let rnd := fun (f : Nat) (x : Num) => if f = 1 then FloatFmt.bf16.ieee x else fl32 x
  let one := Num.fin 1
  if decay then (rw (w.sub ((lr.mul wd).mul w)), m, v)
  else
    match opt with
    | 0 => (rw (w.sub (lr.mul (h.add (wd.mul w)))), m, v)
    | 1 =>
      let m' := rnd fm ((b1.mul m).add h)
      (rw (w.sub (lr.mul (m'.add (wd.mul w)))), m', v)
    | _ =>
      let m' := rnd fm ((b1.mul m).add ((one.sub b1).mul h))
      let v' := rnd fv ((b2.mul v).add (((one.sub b2).mul h).mul h))
      let q := f32Sqrt (fl32 (numDiv v' bc2))
      let u := fl32 (numDiv (fl32 (numDiv m' bc1)) (fl32 (q.add eps)))
      (rw (w.sub (lr.mul (u.add (wd.mul w)))), m', v')

/-- The positions of W's value array that UPDATE covers, in order, each with whether it lies in W's owned window and whether an index
item that gives it reads as bad; and the index faults (R209). -/
def Ctx.updatePositions (c : Ctx) : List (Nat × Bool × Bool) × Nat :=
  let d := c.weightAt 0
  let kind := c.u 0x57 1
  if d.kind = 0 then
    let kt := ceilDiv (d.e 0) 64
    let bit := fun (n : Nat) =>
      let r := n / d.e 0
      let x := if kind = 1 then r else r / 64 * kt + n % d.e 0 / 64
      kind == 0 || c.s.bitmap (c.addr 0x28) x
    let bad := kind != 0 && c.s.badIn (c.addr 0x28) (ceilDiv (maskBits (kind == 1) d.outer (d.e 0)) 8)
    (((List.range d.total).filter bit).map fun n => (n, d.owned (d.coords n), bad), 0)
  else if d.kind = 1 then
    (((List.range (d.e 1)).flatMap fun r =>
      let row := c.s.csrRow d r
      (row.cells.filter (·.good)).map fun cl => (cl.slot, d.owned [cl.col, r], row.bad)), c.s.csrFaults d)
  else
    let (m, n, _) := nmShape d.kind
    ((List.range (d.e 1 * d.vpr)).map fun g =>
      (g, d.owned [g % d.vpr / n * m + c.s.nmPos d g, g / d.vpr], false), 0)

/-- The work of UPDATE (R208–R211). -/
def Ctx.updateWork (c : Ctx) : WorkOut :=
  let old := (c.weightAt 0).valueView
  let new := (c.weightAt 1).valueView
  let nf := c.nfTotal
  let wait := if c.pkt.work.contains 1 then 32 else 0
  let layer := c.u 0x54 2
  let policy := if layer = 0xFFFF then [] else [Effect.layerPolicy layer]
  let flags := wait + (if nf ≠ 0 ∧ !c.uflag 2 then 8 else if c.uflag 0 then 16 else 0)
  let notes := if nf = 0 then [] else [OK_NONFINITE]
  if !c.updates then WorkOut.of { Result.of notes 0 (nf % 2 ^ 32) flags with effects := policy }
  else
    let (pos, faults) := c.updatePositions
    let mine := pos.filter (·.2.1)
    let opt := c.u 0x56 1
    let decay := c.uflag 0
    let at_ := fun (f n : Nat) => let d := c.desc f; c.s.elt d (d.coords n)
    let hasM := c.has 1
    let step := fun (n : Nat) (ibad : Bool) =>
      let w := if hasM then at_ 1 n else c.s.elt old (old.coords n)
      let g := at_ 2 n
      let m := if opt = 0 then ⟨.fin 0, false, 127, 0⟩ else at_ 3 n
      let v := if opt = 2 then at_ 4 n else ⟨.fin 0, false, 127, 0⟩
      let mine := ibad || w.bad || (!decay && (g.bad || m.bad || v.bad))
      (updateStep opt decay (if hasM then fl32 else old.rndW) (c.desc 3).fmt (c.desc 4).fmt (c.upField 0x38) (c.upField 0x3C) (c.upField 0x40) (c.upField 0x44)
        (c.upField 0x48) (c.upField 0x4C) (c.upField 0x50) w.v (g.v.scale (-c.snap.layerG)) m.v v.v,
       mine, ibad || g.bad || m.bad, ibad || g.bad || v.bad)
    let res := mine.map fun p => (p.1, step p.1 p.2.2)
    let out := fun (field : Nat) (f : (Num × Num × Num) × Bool × Bool × Bool → Num × Bool) (n : Nat) =>
      (res.lookup n).map fun r => c.outNum field (f r).1 (f r).2
    let newW := fun (r : (Num × Num × Num) × Bool × Bool × Bool) => (r.1.1, r.2.1)
    let stW := storeSome new (c.rgroup 0x60) (fun n => (c.s.codeAt (old.bitAddr (old.coords n)) old.w).1) (out 0 newW)
    let state := fun (f : Nat) (g : (Num × Num × Num) × Bool × Bool × Bool → Num × Bool) (on : Bool) =>
      if on && c.has f then storeSome (c.desc f) .rne (fun _ => 0) (out f g) else .empty
    let stM := state 1 newW true
    let st1 := state 3 (fun r => (r.1.2.1, r.2.2.1)) (!decay && opt != 0)
    let st2 := state 4 (fun r => (r.1.2.2, r.2.2.2)) (!decay && opt == 2)
    let copies := match c.weightEntry with
      | some e =>
        let v := (c.s.part c.p).version e
        c.s.copyWrites (v.shift v.ver v.pri0) (v.shift (v.ver + 1) v.pri0) v.len0
          ++ (if v.len1 = 0 then [] else c.s.copyWrites (v.shift v.ver v.pri1) (v.shift (v.ver + 1) v.pri1) v.len1)
      | none => []
    let reads := (match c.weightEntry with
        | some e =>
          let v := (c.s.part c.p).version e
          (v.shift v.ver v.pri0, v.len0) :: (if v.len1 = 0 then [] else [(v.shift v.ver v.pri1, v.len1)])
        | none => if hasM then [] else old.spans)
      ++ (([1, 2, 3, 4].filter fun f => c.has f && (f == 1 || !decay) && (f != 3 || opt != 0) && (f != 4 || opt == 2)).flatMap
            fun f => (c.desc f).spans)
      ++ (if (c.desc 0).kind = 1 then c.s.csrSpans (c.weightAt 0) (c.desc 0).csrRows false else [])
      ++ (if c.u 0x57 1 = 0 then [] else
            [(c.addr 0x28, ceilDiv (maskBits (c.u 0x57 1 == 1) (c.desc 0).outer ((c.desc 0).e 0)) 8)])
    let clipped := (pos.filter fun p => !p.2.1).length + stM.clipped + st1.clipped + st2.clipped
    let losses := stW.cnt.losses
    { reads := reads, writes := copies ++ stW.writes ++ stM.writes ++ st1.writes ++ st2.writes,
      res := { Result.of (notes ++ lossNote losses ++ (if faults = 0 then [] else [ERR_INDEX_RANGE])) mine.length (nf % 2 ^ 32)
          (flags + (if faults = 0 then 0 else 64) + (if clipped = 0 then 0 else 128)) with
        watch := c.watchDelta 0 stW ++ (if c.has 1 then c.watchDelta 1 stM else []) ++ (if c.has 3 then c.watchDelta 3 st1 else [])
          ++ (if c.has 4 then c.watchDelta 4 st2 else []),
        clipped := clipped,
        ternInvalid := (if hasM then 0 else c.s.ternAt old (mine.map (·.1)))
          + (if decay then 0 else c.s.ternAt (c.desc 2) (mine.map (·.1))),
        effects := (match c.weightEntry with | some e => [Effect.versionUp e] | none => []) ++ policy } }

/-- The failures of a weight that lies in a version entry (R207): its regions are the entry's, and the other tensors meet none. -/
def Ctx.entryFails (c : Ctx) (others : List Nat) : List Fail :=
  let d := c.desc 0
  let pt := c.s.part c.p
  let vr := if d.kind = 1 then regionOf d.base (ceilDiv (d.csrCapacity * d.w) 8) else
    if d.kind = 0 then d.denseRegion else regionOf d.base (ceilDiv (d.e 1 * d.vpr * d.w) 8)
  let sr := d.scaleRegion d.csrCapacity
  (pt.validEntries.flatMap fun ev =>
    let v := ev.2
    let met := (vr ++ sr).any fun r => v.primary.any (Region.meets r)
    failIf (met && !(vr == regionOf v.pri0 v.len0 && sr == regionOf v.pri1 v.len1)) 6 0 ERR_DESCRIPTOR)
    ++ others.flatMap fun f =>
      failIf (c.has f && ((c.desc f).regions (c.desc f).csrCapacity).any fun r =>
        pt.validEntries.any fun ev => (ev.2.primary ++ ev.2.alternate).any (Region.meets r)) 6 f ERR_DESCRIPTOR

/-- The shape of a tensor beside a weight: W's extents, or one element for each value (R207). -/
def Ctx.besideShape (c : Ctx) (f : Nat) : Bool :=
  let w := c.desc 0
  let d := c.desc f
  if w.kind = 0 then d.ext == w.ext
  else d.rank == 1 && d.e 0 == (if w.kind = 1 then w.csrCapacity else w.e 1 * w.vpr)

/-- The checks of UPDATE (R207). -/
def Ctx.updateFails (c : Ctx) : List Fail :=
  let w := c.desc 0
  let opt := c.u 0x56 1
  let mk := c.u 0x57 1
  let bad := fun (b : Bool) (f : Nat) => failIf b 4 f ERR_DESCRIPTOR
  let side := fun (f : Nat) (wr : Bool) (ok : Nat → Bool) =>
    if c.has f then c.descFails f wr ++ bad (decide ((c.desc f).kind ≠ 0) || !ok (c.desc f).fmt || !c.besideShape f) f else []
  let layer := c.u 0x54 2
  c.descFails 0 true ++ bad (fmtIsGri w.fmt) 0 ++ side 1 true (· == 0) ++ side 2 false (fun f => !fmtIsGri f)
    ++ side 3 true (fun f => f == 0 || f == 1) ++ bad ((opt == 1 || opt == 2) && !c.has 3 && c.u 0x18 8 == 0) 3
    ++ side 4 true (fun f => f == 0 || f == 1) ++ bad (opt == 2 && !c.has 4 && c.u 0x20 8 == 0) 4
    ++ (updateFields.flatMap fun x => bad (c.f32 x.1).isNan x.2.1)
    ++ failIf (decide (layer ≠ 0xFFFF ∧ 1024 * c.q ≤ layer)) 4 14 ERR_PARTITION
    ++ bad (decide (2 < opt)) 15 ++ bad (decide (2 < mk)) 16 ++ bad (decide (mk ≠ 0 ∧ w.kind ≠ 0)) 16
    ++ c.engineFails 18 0x5A ++ c.rmodeFails 21 0x60 ++ c.entryFails [1, 2, 3, 4]

/-- The arrays of a weight that UPDATE writes: values and scales; the index arrays are only read. -/
def Ctx.weightAccs (c : Ctx) : List Acc :=
  let d := c.desc 0
  if d.kind = 0 then c.acc 0 true
  else
    let vr := if d.kind = 1 then regionOf d.base (ceilDiv (d.csrCapacity * d.w) 8) else regionOf d.base (ceilDiv (d.e 1 * d.vpr * d.w) 8)
    let ir := if d.kind = 1 then regionOf d.idx0 (64 + 8 * d.csrEntries) ++ regionOf d.idx1 (2 * d.csrCapacity)
      else regionOf d.idx0 (ceilDiv (d.e 1 * d.vpr * (nmShape d.kind).2.2) 8)
    if c.has 0 then [⟨0, true, vr ++ d.scaleRegion d.csrCapacity, d.aligned, none⟩, ⟨0, false, ir, true, none⟩] else []

/-- UPDATE (R207). -/
def specUpdate : OpSpec :=
  { code := 0x0306, classes := vectorClasses, len := fun _ => 112, engine := some 0x5A,
    descs := fun b => ptrs [(0, 0), (2, 0x10)] [(1, 8), (3, 0x18), (4, 0x20)] b,
    items := fun c => if c.u 0x30 8 = 0 then [] else [⟨6, c.addr 0x30, 8, 8⟩],
    fails := Ctx.updateFails,
    accs := fun c => c.weightAccs ++ c.acc 1 true ++ c.acc 2 false ++ c.acc 3 true ++ c.acc 4 true
      ++ (if c.u 0x57 1 = 0 then [] else
          accMem 5 false (c.addr 0x28) (ceilDiv (maskBits (c.u 0x57 1 == 1) (c.desc 0).outer ((c.desc 0).e 0)) 8) 64),
    writesEntry := true,
    clamps := fun c => (updateFields.flatMap fun x => if (clampNum x.2.2.1 x.2.2.2 (c.f32 x.1)).2 then [x.2.1] else [])
      ++ c.trimBit 0 ++ c.trimBit 1 ++ c.trimBit 3 ++ c.trimBit 4 }

/-- UPDATE runs (R208). -/
def execUpdateWeight (p : PacketRef) (s : State) : Host.Outcome State Fault Refusal :=
  .next (runOpcode 0x0306 (fun _ => true) Ctx.updateWork p s)

/-! MASKEDIT. -/

/-- A tile row as MASKEDIT edits it: its row entry, its capacity, the positions it held (column and slot), those that stay (column,
old slot) and those that it gains. -/
structure EditRow where
  row : Nat
  tile : Nat
  entry : RowEntry
  cap : Nat
  cells : List Cell
  keep : List Cell
  grow : List Nat
  deriving DecidableEq, Repr

/-- The tile rows of a row that MASKEDIT may edit: of compressed tiles, with no index fault (R213, R215). -/
def State.editRows (s : State) (d : Desc) (row : Nat) : List EditRow :=
  (List.range d.ct).filterMap fun t =>
    let r := s.tileRow d row t
    if s.tileForm d (row / 64) t = .compressed ∧ r.faults = 0 then
      some ⟨row, t, s.rowEntry d (d.entryNo row t), (s.entryCap d (d.entryNo row t)).toNat, r.cells, r.cells, []⟩
    else none

/-- A weight's element as MASKEDIT ranks it: the master value, or W's own (R213). -/
def Ctx.editWeight (c : Ctx) (row : Nat) (cl : Cell) : Elt :=
  if c.has 2 then c.s.elt (c.desc 2) [cl.slot, 0, 0, 0, 0] else c.s.cellElt (c.weightAt 0) row cl

/-- Pruning of a row (R213): the positions that go. -/
def Ctx.pruned (c : Ctx) (row k : Nat) (es : List EditRow) : List Cell :=
  let cells := (es.flatMap (·.cells)).map fun cl => (cl, (c.editWeight row cl).v)
  let before := fun (a b : Cell × Num) =>
    match a.2.isFinite, b.2.isFinite with
    | false, true => true
    | true, false => false
    | false, false => decide (b.1.col < a.1.col)
    | true, true =>
      let x := absQ a.2.q
      let y := absQ b.2.q
      decide (x < y ∨ (x = y ∧ b.1.col < a.1.col))
  ((sortBy before cells).take k).map (·.1)

/-- The score of a candidate (R214); `none` ranks below every number. -/
def Ctx.growScore (c : Ctx) (row col : Nat) : Option Num :=
  if c.u 0x40 1 = 0 then
    let v := (c.s.elt (c.desc 5) [col, row, 0, 0, 0]).v
    if v.isNan then none else some v.abs
  else
    let g := c.rgroup 0x48
    some (.fin ((gen16 g.seed g.tensorId ((row * (c.desc 0).e 0 + col) % 2 ^ 48) : Nat) : Int))

/-- Regrowth of a row (R214): candidates in descending score are placed while their tile rows have room. -/
def Ctx.regrow (c : Ctx) (row k : Nat) (es : List EditRow) : List EditRow :=
  let cand := es.flatMap fun e => ((List.range ((c.desc 0).tileWidth e.tile)).map (65536 * e.tile + ·)).filter fun col =>
    !e.cells.any fun cl => cl.col == col
  let before := fun (a b : Nat × Option Num) =>
    match a.2, b.2 with
    | none, none => decide (a.1 < b.1)
    | none, some _ => false
    | some _, none => true
    | some x, some y => if Num.lt y x then true else if Num.lt x y then false else decide (a.1 < b.1)
  let order := (sortBy before (cand.map fun col => (col, c.growScore row col))).map (·.1)
  (order.foldl (fun (acc : Nat × List EditRow) col =>
    if acc.1 = 0 then acc
    else
      match acc.2.find? (fun e => e.tile == col / 65536) with
      | some e =>
        if e.cap ≤ e.keep.length + e.grow.length then acc
        else (acc.1 - 1, acc.2.map fun x => if x.tile = e.tile then { x with grow := setIns x.grow col } else x)
      | none => acc) (k, es)).2

/-- The new positions of an edited tile row: ascending columns, each with its old slot when it survives. -/
def EditRow.newCells (e : EditRow) : List (Nat × Option Nat) :=
  sortBy (fun a b => decide (a.1 < b.1)) (e.keep.map (fun cl => (cl.col, some cl.slot)) ++ e.grow.map (fun k => (k, none)))

/-- Whether a tile row lost or gained a position. -/
def EditRow.changed (e : EditRow) : Bool := e.keep != e.cells || !e.grow.isEmpty

/-- MASKEDIT's edit of a row, and what it pruned and placed. -/
def Ctx.editRow (c : Ctx) (row : Nat) : List EditRow × Nat × Nat :=
  let d := c.weightAt 0
  let es := c.s.editRows d row
  let k := (c.desc 0).e 0
  let gone := c.pruned row (min k (c.u 0x38 4)) es
  let es1 := es.map fun e => { e with keep := e.cells.filter fun cl => !gone.contains cl }
  let es2 := c.regrow row (min k (c.u 0x3C 4)) es1
  (es2, gone.length, (es2.map (·.grow.length)).sum)

/-- The elements of a slot-parallel tensor moved to the new slots of a tile row, grown positions at +0 (R215, R94); `bad` poisons them all
(Table 11.2: the places of the moved elements come from row entries, indices and scores). -/
def Ctx.moveSlots (c : Ctx) (f : Nat) (bad : Bool) (e : EditRow) : List (Nat × OutElt) :=
  let d := c.desc f
  ((List.range e.newCells.length).zip e.newCells).map fun (i, (_, old)) =>
    let o := match old with
      | some slot => c.moved f d.fmt (c.s.elt d [slot, 0, 0, 0, 0])
      | none => OutElt.ofNum (.fin 0)
    (e.entry.start + i, { o with poison := o.poison || bad })

/-- The new values of a rewritten tile row, by slot; `none` where the position lies outside W's owned window (R215, R140). -/
def Ctx.editValues (c : Ctx) (bad : Bool) (e : EditRow) : List (Nat × Option OutElt) :=
  ((List.range e.newCells.length).zip e.newCells).map fun (i, (col, old)) =>
    let el : Elt := match old with
      | some slot => c.editWeight e.row ⟨col, slot, true⟩
      | none => ⟨.fin 0, false, 127, 0⟩
    (e.entry.start + i, if (c.desc 0).owned [col, e.row] then some (c.outNum 0 el.v (el.bad || bad)) else none)

/-- The work of MASKEDIT (R213–R216). The header's counts are read as the packet runs, after every earlier edit of the entry. -/
def Ctx.maskeditWork (c : Ctx) : WorkOut :=
  let d := c.weightAt 0
  let rows := (List.range (d.e 1)).map fun r => (r, c.editRow r)
  let changed := (rows.flatMap fun r => r.2.1).filter EditRow.changed
  let rg := c.rgroup 0x48
  let cells := rows.flatMap fun r => r.2.1.flatMap fun e => e.cells.map fun cl => (r.1, cl)
  let rowBad := fun (r : Nat) => (c.s.csrRow d r).bad
    || (c.u 0x40 1 == 0 && (List.range (d.e 0)).any fun k => (c.s.elt (c.desc 5) [k, r, 0, 0, 0]).bad)
  let wv := d.valueView
  let values := changed.flatMap fun e => c.editValues (rowBad e.row) e
  let stW := storeSome wv rg (fun n => (c.s.codeAt (wv.bitAddr (wv.coords n)) wv.w).1) (fun n => (values.lookup n).bind id)
  let outside := (values.filter fun v => v.2.isNone).length
  let side := fun (f : Nat) => if c.has f then
      let new := changed.flatMap fun e => c.moveSlots f (rowBad e.row) e
      storeSome (c.desc f) .rne (fun _ => 0) (fun n => new.lookup n)
    else .empty
  let sts := [2, 3, 4].map fun f => (f, side f)
  let idx := changed.flatMap fun e =>
    let n := e.newCells.length
    [(⟨d.idx1 + 2 * e.entry.start, e.newCells.flatMap (fun x => toLe 2 (x.1 % 65536)), rowBad e.row⟩ : Write),
     ⟨d.entryAddr (d.entryNo e.row e.tile), toLe 8 { e.entry with count := n }.bits, rowBad e.row⟩]
  let pruned := (rows.map fun r => r.2.2.1).sum
  let grown := (rows.map fun r => r.2.2.2).sum
  let want := min (d.e 0) (c.u 0x3C 4)
  let short := rows.map fun r => want - r.2.2.2
  let faults := c.s.csrFaults d
  let denseTiles := (d.csrTiles.filter fun rt => c.s.tileForm d rt.1 rt.2 == .dense).length
  let gen := (c.s.readNat (d.idx0 + 8) 4 + 1) % 2 ^ 32
  let nnz := c.s.readNat (d.idx0 + 4) 4 + grown - pruned
  let header : Write := ⟨d.idx0, toLe 4 d.csrCapacity ++ toLe 4 nnz ++ toLe 4 gen, c.s.badIn d.idx0 12⟩
  let twin := c.addr 8
  let edited := fun (row t : Nat) =>
    match changed.find? (fun e => e.row == row && e.tile == t) with
    | some e => (⟨((List.range e.newCells.length).zip e.newCells).map (fun (i, x) => ⟨x.1, e.entry.start + i, true⟩), 0,
        rowBad row, false⟩ : SparseRow)
    | none => c.s.tileRow d row t
  let tw := if c.u 8 8 = 0 then [] else
    (twinWrites d twin (fun r t => (c.s.rowEntry d (d.entryNo (r * 64) t)).start) (c.s.tileForm d) edited).1
  let stats := toLe 8 pruned ++ toLe 8 grown ++ toLe 8 short.sum ++ toLe 8 (short.filter (· ≠ 0)).length ++ toLe 4 denseTiles
    ++ toLe 4 faults ++ toLe 4 gen ++ List.replicate 20 0
  let clipped := outside + (sts.map fun x => x.2.clipped).sum
  { reads := (d.idx0, 12) :: c.s.csrSpans d d.csrRows (!c.has 2) ++ (([2, 3, 4, 5].filter c.has).flatMap fun f => (c.desc f).spans),
    writes := stW.writes ++ (sts.flatMap fun x => x.2.writes) ++ idx ++ [header] ++ tw,
    res := { Result.of (lossNote stW.cnt.losses ++ (if faults = 0 then [] else [ERR_INDEX_RANGE])) pruned grown
        ((if denseTiles = 0 then 0 else 1) + (if short.sum = 0 then 0 else 8) + (if clipped = 0 then 0 else 128)) with
      watch := c.watchDelta 0 stW ++ sts.flatMap fun x => if c.has x.1 then c.watchDelta x.1 x.2 else [],
      clipped := clipped,
      late := (if c.u 8 8 = 0 then [] else [⟨twin, d.twinHeader gen d.csrCapacity, false⟩])
        ++ (if c.u 0x30 8 = 0 then [] else [⟨c.addr 0x30, stats, false⟩]),
      ternInvalid := (if c.has 5 then c.s.ternDense (c.desc 5) else 0)
        + (if c.has 2 || d.fmt != 5 then 0 else (cells.filter fun x => (c.editWeight x.1 x.2).code == 2).length) } }

/-- The checks of MASKEDIT (R212). -/
def Ctx.maskeditFails (c : Ctx) : List Fail :=
  let w := c.desc 0
  let bad := fun (b : Bool) (f : Nat) => failIf b 4 f ERR_DESCRIPTOR
  let side := fun (f : Nat) (ok : Nat → Bool) =>
    if c.has f then c.descFails f true ++ bad (decide ((c.desc f).kind ≠ 0) || !ok (c.desc f).fmt || !c.besideShape f) f else []
  c.descFails 0 true ++ bad (decide (w.kind ≠ 1)) 0 ++ side 2 (· == 0) ++ side 3 (fun f => f == 0 || f == 1)
    ++ side 4 (fun f => f == 0 || f == 1)
    ++ (if c.u 0x40 1 = 0 then
          c.descFails 5 false ++ bad (decide ((c.desc 5).kind ≠ 0) || fmtIsGri (c.desc 5).fmt
            || (c.desc 5).ext != [w.e 0, w.e 1, 1, 1, 1]) 5
        else [])
    ++ bad (decide (1 < c.u 0x40 1)) 9 ++ c.engineFails 10 0x42 ++ c.rmodeFails 13 0x48 ++ c.entryFails [2, 3, 4]

/-- MASKEDIT (R212). -/
def specMaskedit : OpSpec :=
  { code := 0x0209, classes := tensorClasses, len := fun _ => 88, engine := some 0x42,
    descs := fun b => ptrs ((0, 0) :: if fieldAt b 0x40 1 = 0 then [(5, 0x28)] else []) [(2, 0x10), (3, 0x18), (4, 0x20)] b,
    fails := Ctx.maskeditFails,
    accs := fun c => c.acc 0 true ++ c.acc 2 true ++ c.acc 3 true ++ c.acc 4 true ++ c.acc 5 false
      ++ (if c.u 8 8 = 0 then [] else accMem 1 true (c.addr 8) ((c.desc 0).twinBytes (c.desc 0).csrCapacity) 64)
      ++ (if c.u 0x30 8 = 0 then [] else accMem 6 true (c.addr 0x30) 64 64),
    writesEntry := true,
    clamps := fun c => clampBit 7 0 ((c.desc 0).e 0) (c.u 0x38 4) ++ clampBit 8 0 ((c.desc 0).e 0) (c.u 0x3C 4)
      ++ c.trimBit 0 ++ c.trimBit 2 ++ c.trimBit 3 ++ c.trimBit 4 }

/-- MASKEDIT runs (R213). -/
def execMaskedit (p : PacketRef) (s : State) : Host.Outcome State Fault Refusal :=
  .next (runOpcode 0x0209 (fun _ => true) Ctx.maskeditWork p s)

/-! Turns and waits (R206, R212). -/

/-- Where a packet stands at its turn on an entry: waiting for the references it must wait for, or ready. -/
def turnPhase (opcode : Nat) (v : VersionEntry) : Phase :=
  if opcode = 0x0306 then (if v.refOld = 0 then .ready else .refWait)
  else if v.refCur + v.refOld = 0 then .ready else .refWait

/-- A packet takes its turn: an UPDATE that must wait notes it for OPFLAGS bit 5 (R211). -/
def Packet.takeTurn (k : Packet) (v : VersionEntry) : Packet :=
  let ph := turnPhase k.hdr.opcode v
  { k with phase := ph, work := if ph = .refWait ∧ k.hdr.opcode = 0x0306 then [1] else k.work }

/-- The entry on whose turns a packet stands. -/
def Part.turnEntry (pt : Part) (k : Packet) : Option (Nat × VersionEntry) :=
  pt.versions.find? fun e => e.2.turns.contains (k.ring, k.idx)

/-- UPDATE_TURN (R206): every earlier UPDATE and MASKEDIT of the entry has completed. -/
def execUpdateTurn (p : PacketRef) (s : State) : Host.Outcome State Fault Refusal :=
  match s.packet p with
  | none => .next s
  | some k =>
    match (s.part p.part).turnEntry k with
    | some (_, v) =>
      if k.phase = .turnWait ∧ v.turns.head? = some (k.ring, k.idx) ∧ s.fatal = false then
        .next (s.setPacket p.part (k.takeTurn v))
      else .next s
    | none => .next s

/-- A packet of an opcode that waits at its turn proceeds once its references are gone (R206, R212). -/
def turnReady (code : Nat) (p : PacketRef) (s : State) : State :=
  match s.packet p with
  | none => s
  | some k =>
    match (s.part p.part).turnEntry k with
    | some (_, v) =>
      if k.hdr.opcode = code ∧ k.phase = .refWait ∧ turnPhase code v = .ready ∧ s.fatal = false then
        s.setPacket p.part { k with phase := .ready }
      else s
    | none => s

/-- UPDATE_OLD_VERSION_RELEASED (R206). -/
def execUpdateOldVersionReleased (p : PacketRef) (s : State) : Host.Outcome State Fault Refusal := .next (turnReady 0x0306 p s)

/-- MASKEDIT_REFS_RELEASED (R212). -/
def execMaskeditRefsReleased (p : PacketRef) (s : State) : Host.Outcome State Fault Refusal := .next (turnReady 0x0209 p s)

end Sys2Proof.Machine
end

