-- ==== Sys2Proof/Machine/Admit.lean ====
section
/-! DEFINITION. What happens to a packet when it has issued: holds before its parameter snapshot, the snapshot (R35, R129), validation
(R36, Table 2.5), the references it takes (R202), and its pool reservation (R255). -/

namespace Sys2Proof.Machine

/-- Every opcode of Table 2.8. -/
def opTable : List OpSpec :=
  [specConfigSet, specConfigGet, specRingBind, specGangForm, specGangDissolve]
    ++ [specMatmul, specSpmmCsr, specSpmmNm, specSpsp, specSddmm, specGroupedMatmul, specPredictActive, specCompress, specMaskedit, specTwinBuild]
    ++ [specEltwise, specReduceDim, specSoftmaxBwd, specNormBwd, specQuantize, specUpdate]
    ++ [specDress, specCopy, specWindowExpand]
    ++ [specRoute, specDispatch, specCombine, specCombineBwd, specPlaceExperts]
    ++ [specScaleAgree, specRsInt, specAllgather, specAlltoall, specPermute, specBarrier, specEpochSet]
    ++ [specTsDemux, specDecode, specPatchify, specShufflePlan]
    ++ [specSnapBegin, specSnapWrite, specSnapParity, specSnapCommit, specRestore, specRebuild]
    ++ [specWatchRead, specLayerScaleSet, specEmulateSet]
    ++ [specScrubSet, specRemapAdd, specRetire, specReinstate, specErrlogRead]
    ++ [specAttest, specKeyExchange, specBounceSet, specPartitionSet]

/-- The opcode of a code. -/
def opSpec (code : Nat) : Option OpSpec := opTable.find? fun o => o.code == code

/-! The parameter snapshot (R35, R129). -/

/-- What the snapshot gathers as it reads: the intervals read, the pointers that failed and the items that read as bad, by field. -/
structure Gather where
  reads : List (Nat × Nat)
  badPtrs : List (Nat × Nat)
  badItems : List (Nat × BadRead)
  deriving DecidableEq, Repr

/-- The check of a pointer through which the snapshot reads (R129). An item in a unit that does not answer fails as any access to it does (R11,
R252, R284, R299), among the pointers (DEDUCED, log entry 82). -/
def State.ptrStatus (s : State) (p a len align : Nat) : Option Nat :=
  if a % align ≠ 0 then some ERR_ALIGN
  else if !s.inMemory p a len then some ERR_PARTITION
  else if s.reachable a len && s.passes .controller a len then none else some ERR_PEER_UNREACHABLE

/-- One read of the snapshot through a pointer of a field. -/
def State.fetchItem (s : State) (p : Nat) (g : Gather) (i : Item) : Gather × Option (List Byte) :=
  match s.ptrStatus p i.addr i.len i.align with
  | some st => ({ g with badPtrs := g.badPtrs ++ [(i.field, st)] }, none)
  | none =>
    ({ g with reads := g.reads ++ [(i.addr, i.len)], badItems := g.badItems ++ (s.badOf i.addr i.len).map fun b => (i.field, b) },
     some (s.read i.addr i.len))

/-- The descriptors read through their pointers, a CSR descriptor with its header (R151); a header's failure names the descriptor's
field. -/
def State.fetchDescs (s : State) (p : Nat) (g : Gather) (ds : List (Nat × Nat)) : Gather × List (Nat × Desc) :=
  ds.foldl (fun (acc : Gather × List (Nat × Desc)) fd =>
    match s.fetchItem p acc.1 ⟨fd.1, fd.2, 128, 64⟩ with
    | (g1, none) => (g1, acc.2)
    | (g1, some b) =>
      let d := Desc.parse b
      if !(s.badOf fd.2 128).isEmpty then (g1, acc.2)
      else if d.kind = 1 then
        match s.fetchItem p g1 ⟨fd.1, d.idx0, 64, 64⟩ with
        | (g2, none) => (g2, acc.2)
        | (g2, some h) =>
          (g2, acc.2 ++ [(fd.1, { d with csrCapacity := fieldAt h 0 4, csrNnz := fieldAt h 4 4, csrGen := fieldAt h 8 4 })])
      else (g1, acc.2 ++ [(fd.1, d)])) (g, [])

/-- Extents resolved through the shape slots as the snapshot read them (R133): a slot that the packet produces gives its CAP. -/
def Desc.resolve (d : Desc) (slots : List (Nat × Nat × Nat)) (produced : List Nat) : Desc :=
  { d with ext := (List.range 5).map fun k =>
      let raw := d.extRaw[k]?.getD 1
      if d.shape.testBit k && decide (k < d.rank) then
        let n := raw % 65536
        match slots.lookup n with
        | some (cap, v) => if produced.contains n then cap else v
        | none => 0
      else raw }

/-- The shape slots that a descriptor names. -/
def Desc.slotsNamed (d : Desc) : List Nat :=
  (List.range 5).filterMap fun k => if d.shape.testBit k && decide (k < d.rank) then some ((d.extRaw[k]?.getD 0) % 65536) else none

/-- The shape slots of a partition among a list of numbers: CAP and VALUE. -/
def State.slotsAt (s : State) (p : Nat) (ns : List Nat) : List (Nat × Nat × Nat) :=
  ((dedupNat ns).filter fun n => decide (n < 4096 * s.quartersPer)).map fun n =>
    (n, Tbl.get (0xFFFFFFFF, 0) (s.part p).shapes n)

/-- The parameter block of a packet: its bytes up to its PARAM_LEN, zero beyond, and how they read. The inline area is an item that the
snapshot read only with INLINE: of a packet without it, poison in the area fails nothing and leaves its record alone. R27 and Table 2.5
name the area with no condition (DESIGN CHOICE, log entry 83). -/
def State.fetchParams (s : State) (p : Nat) (k : Packet) : Gather × List Byte :=
  let n := min k.hdr.paramLen 192
  let pad := fun (b : List Byte) => b ++ (List.replicate (192 - b.length) 0 : List Byte)
  if k.hdr.flag 0 then
    (⟨[], [], k.inlineBad.map fun b => (0xFF, b)⟩, pad (k.inlineArea.take n))
  else
    match s.fetchItem p ⟨[], [], []⟩ ⟨0xFF, k.hdr.paramPtr, n, 64⟩ with
    | (g, some b) => (g, pad b)
    | (g, none) => (g, pad [])

/-- The parameter snapshot of a packet under its opcode (R35), and the intervals that it read. The items are read with the lengths that
they themselves give. Nothing is read through a block, a descriptor or a list that reads as bad (DEDUCED, log entry 82). -/
def State.gather (s : State) (p : Nat) (k : Packet) (op : OpSpec) : Snap × List (Nat × Nat) :=
  let pt := s.part p
  let (g0, params) := s.fetchParams p k
  let base : Snap :=
    { params := params, descs := [], items := [], slots := [], leaves := [], engine := none, gOf := [], layerG := 0, c3 := (pt.ring k.ring).c3,
      versions := [], badPtrs := [], badItems := [], time := s.mclk }
  let stop := fun (g : Gather) => ({ base with badPtrs := g.badPtrs, badItems := g.badItems }, g.reads)
  if !g0.badPtrs.isEmpty || !g0.badItems.isEmpty then stop g0
  else
    let produced := op.produces params ++ op.producesIn pt params
    let (g1, ds) := s.fetchDescs p g0 ((op.descs params).map fun fo => (fo.1, fieldAt params fo.2 8))
    if !g1.badItems.isEmpty then stop g1 else
    let slots1 := s.slotsAt p (op.slots params ++ produced ++ ds.flatMap fun d => d.2.slotsNamed)
    let sn1 := { base with descs := ds.map fun d => (d.1, d.2.resolve slots1 produced), slots := slots1 }
    let at_ := fun (sn : Snap) => (⟨s, p, k, sn⟩ : Ctx)
    let peek := (op.items (at_ sn1)).filterMap fun i => ((s.fetchItem p g1 i).2).map fun b => (i.field, b)
    let is := op.items (at_ { sn1 with items := peek })
    let (g2, items) := is.foldl (fun (acc : Gather × List (Nat × List Byte)) i =>
      match s.fetchItem p acc.1 i with
      | (g, some b) => (g, acc.2 ++ [(i.field, b)])
      | (g, none) => (g, acc.2)) (g1, [])
    if !g2.badItems.isEmpty then stop g2 else
    let sn2 := { sn1 with items := items }
    let (g3, more) := s.fetchDescs p g2 (op.moreDescs (at_ sn2))
    let slots3 := slots1 ++ (s.slotsAt p (more.flatMap fun d => d.2.slotsNamed)).filter fun x => !(slots1.map (·.1)).contains x.1
    let sn3 := { sn2 with descs := sn2.descs ++ more.map fun d => (d.1, d.2.resolve slots3 produced), slots := slots3 }
    let c3 := at_ sn3
    let layerG := if op.code = 0x0306 ∧ c3.u 0x54 2 ≠ 0xFFFF then (pt.layer (c3.u 0x54 2)).g else 0
    ({ sn3 with engine := op.engine.map fun off => c3.u off 2, leaves := match op.engine with | some off => s.leaves p (c3.u off 2) | none => [],
                layerG := layerG, badPtrs := g3.badPtrs, badItems := g3.badItems }, g3.reads)

/-! Validation (R33, R36, Table 2.5). -/

/-- The list pointer that stands for a descriptor reached through a bucket list or a group list. -/
def listField (code f : Nat) : Nat := if f < 256 then f else if code = 0x0601 ∨ code = 0x0602 then 4 else 0

/-- A failure with its field as DETAIL names it. -/
def Fail.named (code : Nat) (x : Fail) : Fail :=
  if x.field < 256 then x else { x with key := x.key / 4096 * 4096 + listField code x.field, field := listField code x.field }

/-- The check of a header's counter identifier (R33). -/
def counterFail (q n : Nat) (enabled : Bool) : List Fail :=
  if enabled then (match idStatus q 4096 n with | some st => [⟨3 * 4096, 0xFF, st, 0⟩] | none => []) else []

/-- The failures of the header at step 3 (R33). -/
def Ctx.headerFails (c : Ctx) (op : OpSpec) : List Fail :=
  let h := c.pkt.hdr
  let bad := fun (b : Bool) (st : Nat) => if b then [(⟨3 * 4096, 0xFF, st, 0⟩ : Fail)] else []
  bad (decide (h.paramLen < op.len c.snap.params ∨ 192 < h.paramLen)) ERR_DESCRIPTOR
    ++ ((c.snap.badPtrs.filter fun x => x.1 == 0xFF).map fun x => (⟨3 * 4096, 0xFF, x.2, 0⟩ : Fail))
    ++ bad (decide (15 < h.ctx)) ERR_DESCRIPTOR
    ++ counterFail c.q h.wait0Ctr (h.flag 1) ++ counterFail c.q h.wait1Ctr (h.flag 2) ++ counterFail c.q h.sigCtr (h.flag 3)

/-- The failures of the snapshot's reads at step 3: pointers first, then poison. -/
def Ctx.readFails (c : Ctx) (code : Nat) : List Fail :=
  ((c.snap.badPtrs.filter fun x => x.1 != 0xFF).map fun x =>
    let f := listField code x.1
    (⟨3 * 4096 + 1 + f, f, x.2, fieldGroup x.1⟩ : Fail))
  ++ c.snap.badItems.map fun x =>
    let f := if x.1 = 0xFF then 0xFF else listField code x.1
    let place := if x.1 = 0xFF then 0 else 1 + f
    (⟨3 * 4096 + 2048 + place, f, x.2.code, fieldGroup x.1⟩ : Fail)

/-- Every failure of a packet, by the steps of Table 2.5 and the further checks of its opcode. -/
def Ctx.allFails (c : Ctx) (op : OpSpec) (cls : StreamClass) : List Fail :=
  let early := (if op.classes.contains cls then [] else [(⟨2 * 4096, 0xFF, ERR_OPCODE, 0⟩ : Fail)]) ++ c.headerFails op ++ c.readFails op.code
  if early.isEmpty then (op.fails c ++ c.accFails (op.accs c) op.exempt op.exact op.writesEntry ++ op.late c).map (Fail.named op.code) else early

/-- The clamps of step 5: the opcode's, and bit 31 for SIG_INC (R33, R38). -/
def Ctx.stepClamps (c : Ctx) (op : OpSpec) : List Nat :=
  op.clamps c ++ (if c.pkt.hdr.flag 3 then clampBit 31 1 0xFFFFFFFF c.pkt.hdr.sigInc else [])

/-! Pools (R255). -/

/-- The pool space that packets hold, and that which staging keeps past its packet (R233, R255). -/
def Part.poolHeld (pt : Part) : List (Tier × Nat) := pt.packets.flatMap (·.pool) ++ pt.stageRoom.map fun x => (.sump, x.bytes)

/-- The free pieces of 64 KiB and the free bytes of a partition's pools: scratchpad, HBM, sump; `held` is what packets hold. -/
def State.poolRoom (s : State) (p : Nat) (held : List (Tier × Nat)) : Nat × Nat × Nat :=
  let pt := s.part p
  let slices := ((List.range (64 * s.quartersPer)).filter fun i => !s.retiredSlices.contains (64 * p + i)).length
  let sum := fun (t : Tier) (f : Nat → Nat) => ((held.filter fun x => x.1 = t).map fun x => f x.2).sum
  (slices * ((pt.sliceReserve - 0x180000) / 65536) - sum .scratchpad (ceilDiv · 65536),
   s.quartersPer * pt.hbmPool - sum .hbm id,
   (if s.hasSump p then s.quartersPer * pt.sumpPool else 0) - sum .sump id)

/-- Buffers placed, each in the first tier that has room for it (R255); `none` where one finds no room. `run` tells the tiers that have a run of
addresses for the first, when it is a landing area. -/
def placeBuffers (run : Tier → Bool) : Nat × Nat × Nat → List Buffer → Option (List (Tier × Nat))
  | _, [] => some []
  | (sp, hbm, sump), b :: bs =>
    let n := b.bytes
    let rest := fun (room : Nat × Nat × Nat) => placeBuffers (fun _ => true) room bs
    if n = 0 then rest (sp, hbm, sump)
    else if b.sumpOnly = false ∧ ceilDiv n 65536 ≤ sp ∧ run .scratchpad = true then
      (rest (sp - ceilDiv n 65536, hbm, sump)).map ((.scratchpad, n) :: ·)
    else if b.sumpOnly = false ∧ n ≤ hbm ∧ run .hbm = true then (rest (sp, hbm - n, sump)).map ((.hbm, n) :: ·)
    else if n ≤ sump ∧ run .sump = true then (rest (sp, hbm, sump - n)).map ((.sump, n) :: ·)
    else none

/-- Whether an opcode announces its first working buffer as its landing area (R331). -/
def lands (code : Nat) : Bool := code == 0x0601 || code == 0x0602 || code == 0x0803 || code == 0x0806 || code == 0x0B02

/-- Whether the first of a packet's buffers has a run of addresses in a tier, as a landing area needs one (R331). -/
def State.hasRun (s : State) (p code : Nat) (bufs : List Buffer) (t : Tier) : Bool :=
  !lands code || (s.landingPlace p (bufs.headD ⟨0, false⟩).bytes t).isSome

/-- The places that a packet's buffers find in the pools as they stand (R255). -/
def State.placesFor (s : State) (p code : Nat) (bufs : List Buffer) : Option (List (Tier × Nat)) :=
  placeBuffers (s.hasRun p code bufs) (s.poolRoom p (s.part p).poolHeld) bufs

/-- The partition with no pool space held. -/
def Part.poolsEmpty (pt : Part) : Part :=
  { pt with stageRoom := [], packets := pt.packets.map fun k => { k with pool := [], remote := k.remote.map fun r => { r with landingLen := 0 } } }

/-- Whether a packet's buffers fit in the partition's empty pools. -/
def Ctx.fits (c : Ctx) (op : OpSpec) : Bool :=
  ((c.s.modPart c.p Part.poolsEmpty).placesFor c.p op.code
    ((op.buffers c).filter fun b => decide (0 < b.bytes) && (!b.sumpOnly || c.s.hasSump c.p))).isSome

/-- Whether an effect sets a pool's size. -/
def Effect.isPoolSize : Effect → Bool
  | .poolSize _ _ => true
  | _ => false

/-- Whether a pool-size CONFIG_SET of the partition waits, or has run and not completed (R254). -/
def Part.resizing (pt : Part) : Bool :=
  pt.packets.any fun k =>
    k.hdr.opcode == 0x0101 && (k.phase == .refWait || (k.phase == .finished && k.res.effects.any Effect.isPoolSize))

/-! After validation. -/

/-- Whether a partition has an ingest front that is powered and clocked (R353, R305, R447). -/
def State.ingestOn (s : State) (p : Nat) : Bool :=
  !s.clocksLost.contains 41 && (s.quarters p).any fun q => s.domainOn (34 + q / 2) && !s.halvesDown.contains (q / 2)

/-- The codes of a collective a rank of which is already known as lost (Tables 14.5, 17.5). An exchange gives the member up instead (Table 9.8). -/
def Ctx.lostCodes (c : Ctx) (op : OpSpec) : List Nat :=
  if (c.s.part c.p).lost.isEmpty || !op.remote c || namesObject op.code || op.code == 0x0B02 then []
  else
    let gone := c.lostRanks c.groupKeys
    if op.code = 0x0806 then
      if gone.any (· ≠ c.lostRank) then [ERR_GROUP_DOUBLE_LOSS]
      else if (c.lostRanks c.spareKeys).length = c.spareKeys.length then [ERR_PEER_UNREACHABLE] else []
    else if gone.isEmpty then [] else [ERR_PEER_UNREACHABLE]

/-- The codes with which a packet ends after validation, whatever it would do (R11, R260, R305, R334, R339, R353, R432, and the table
of whole-module failures after R420). -/
def Ctx.endCodes (c : Ctx) (op : OpSpec) : List Nat :=
  let pt := c.s.part c.p
  let onlyIf := fun (b : Bool) (st : Nat) => if b then [st] else []
  let remote := op.remote c
  let down := c.snap.leaves.any fun a => c.s.halvesDown.contains (a / 128) || c.s.clocksLost.contains (a / 128)
  onlyIf (pt.confidential && !pt.host.keysSet && !(op.code == 0x0B01 || op.code == 0x0B02 || op.code == 0x0102 || op.code == 0x0B04)) ERR_AUTH
    ++ onlyIf (op.engine.isSome && c.snap.leaves.isEmpty) ERR_PEER_UNREACHABLE ++ onlyIf down ERR_PEER_UNREACHABLE
    ++ onlyIf (op.needsSump c && !c.s.hasSump c.p) ERR_PEER_UNREACHABLE ++ onlyIf (remote && pt.members.isEmpty) ERR_PEER_UNREACHABLE
    ++ onlyIf (remote && pt.quarantined) ERR_EPOCH ++ c.lostCodes op ++ onlyIf (op.code / 256 == 7 && !c.s.ingestOn c.p) ERR_PEER_UNREACHABLE

/-- The entry whose turns a packet joins (R206, R212). An UPDATE of an untouched weight without decay writes no version and never waits
(R210). -/
def Ctx.ownEntryOf (c : Ctx) (op : OpSpec) : Option Nat :=
  if op.writesEntry && !(op.code == 0x0306 && c.uflag 0 && !c.uflag 1) then c.weightEntry else none

/-- The entries on which a packet takes a reference: those in which it reads, its own apart (R201, R206). -/
def Ctx.readEntries (c : Ctx) (op : OpSpec) : List Nat :=
  ((c.s.part c.p).entriesOf ((op.accs c).filter fun a => !a.wr)).filter fun e => some e != c.ownEntryOf op

/-- The entries that a packet only writes: it writes their current buffers (R204). -/
def Ctx.writtenEntries (c : Ctx) (op : OpSpec) : List Nat :=
  ((c.s.part c.p).entriesOf ((op.accs c).filter (·.wr))).filter fun e => some e != c.ownEntryOf op && !(c.readEntries op).contains e

/-- The version in a queue element. -/
def queueVer (x : Nat) : Nat := x % 2 ^ 32

/-- The reference that a packet takes on one entry (Table 8.8): the partition, the version it reads, and the reference. -/
def takeRef (cls : StreamClass) (ring idx ctx e : Nat) (pt : Part) : Part × Nat × VRef :=
  let v := pt.version e
  let q := Tbl.get [] v.queues ctx
  let key := fun (ver : Nat) => ((ring * 2 ^ 32 + idx) * 2 ^ 32) + ver
  match cls, q with
  | .F, _ =>
    (pt.modVersion e fun v => { v with refCur := v.refCur + 1, queues := Tbl.set [] v.queues ctx (q ++ [key v.ver]) }, v.ver, ⟨e, v.ver, true⟩)
  | .B, x :: rest =>
    let pt1 := pt.modVersion e fun v => { v with queues := Tbl.set [] v.queues ctx rest }
    let owner := x / 2 ^ 32
    ({ pt1 with packets := pt1.packets.map fun k =>
        if k.ring = owner / 2 ^ 32 ∧ k.idx = owner % 2 ^ 32 then { k with refs := k.refs.filter fun r => !(r.queued && r.entry == e) } else k },
     queueVer x, ⟨e, queueVer x, false⟩)
  | .B, [] => (pt.modVersion e fun v => { v with refCur := v.refCur + 1, mismatch := satAdd 0xFFFF v.mismatch 1 }, v.ver, ⟨e, v.ver, false⟩)
  | _, _ => (pt.modVersion e fun v => { v with refCur := v.refCur + 1 }, v.ver, ⟨e, v.ver, false⟩)

/-- The references of a packet at its snapshot, and the version at which it reads each entry. -/
def takeRefs (cls : StreamClass) (ring idx ctx : Nat) (es : List Nat) (pt : Part) : Part × List (Nat × Nat) × List VRef :=
  es.foldl (fun (acc : Part × List (Nat × Nat) × List VRef) e =>
    let (pt1, ver, r) := takeRef cls ring idx ctx e acc.1
    (pt1, acc.2.1 ++ [(e, ver)], acc.2.2 ++ [r])) (pt, [], [])

/-- The gradient exponents of what a packet writes (R94): a B packet's DENSE and sparse outputs through bound gradient slots, neither in
C3 mode nor in a GRI format. -/
def Ctx.gradients (c : Ctx) (op : OpSpec) : List (Nat × Int) :=
  let pt := c.s.part c.p
  if c.pkt.cls = .B ∧ !(op.code == 0x0201 && c.snap.c3) then
    (dedupNat (((op.accs c).filter fun a => a.wr && c.has a.field).map (·.field))).filterMap fun f =>
      let d := c.desc f
      let w := pt.watchSlot d.watch
      if d.watch ≠ 0xFFFF ∧ w.grad = true ∧ fmtIsGri d.fmt = false then some (f, (pt.layer w.layer).g) else none
  else []

/-- The remote part that a packet has at its snapshot, its landing area apart. -/
def Ctx.remotePart (c : Ctx) (op : OpSpec) : Option Remote :=
  if op.remote c then
    some (match op.code with
      | 0x0501 | 0x0502 | 0x0503 | 0x0504 => c.objRemote
      | 0x0505 => c.placeRemote
      | 0x0806 => c.rebuildRemote
      | 0x0B02 => Remote.start c.portGroup (c.s.ownKey c.p) c.portHash
      | _ => c.newRemote)
  else none

/-- The early messages that match a packet at its snapshot (R331): taken into it, with a lateness of 0 for those that R340 measures. -/
def State.takeEarly (s : State) (p : Nat) (c : Ctx) (r : Remote) : State × Remote :=
  let ctag := if c.pkt.hdr.opcode = 0x0B02 then 0 else c.ctag
  let hit := fun (e : EarlyMsg) => e.matches c.pkt.hdr.opcode ctag r.ghash
  let es := (s.part p).early.filter hit
  let s1 := s.modPart p fun pt => { pt with early := pt.early.filter fun e => !hit e }
  ((es.filter fun e => e.kind == 1 || e.kind == 3).foldl (fun s e => s.lateness p e.srcEp 0) s1, es.foldl Remote.take r)

/-- The benches of an engine's leaves switched on (R448). -/
def State.wakeBenches (s : State) (leaves : List Nat) : State :=
  if s.gatedBenches.isEmpty then s else { s with gatedBenches := s.gatedBenches.filter fun b => !leaves.any fun a => a / 8 == b }

/-- Where a validated packet with its pool space stands: waiting for its turn or for what R127, R206 or R254 name, or ready. -/
def State.place (s : State) (p : Nat) (k : Packet) (op : OpSpec) (c : Ctx) : State :=
  match c.ownEntryOf op with
  | some e =>
    let s1 := s.modPart p (·.modVersion e fun v => { v with turns := v.turns ++ [(k.ring, k.idx)] })
    let v := (s1.part p).version e
    s1.setPacket p (if v.turns.head? = some (k.ring, k.idx) then k.takeTurn v else { k with phase := .turnWait })
  | none =>
    if op.code = 0x0101 ∧ c.configKind = 1 then s.setPacket p { k with phase := .refWait }
    else if op.code = 0x0A03 then
      let w := ((s.part p).onArray c.retireArrayOf).filter fun x => x != refKey k.ring k.idx
      s.setPacket p { k with phase := if w.isEmpty then .ready else .refWait, work := w }
    else (s.setPacket p { k with phase := .ready }).wakeBenches c.snap.leaves

/-- The pool reservation of a packet whose snapshot stands (R254, R255), its landing area (R331), and its place after it. `first` tells a
first attempt, which counts in POOL_WAITS when it finds no room. -/
def State.reservePools (s : State) (p : Nat) (k : Packet) (op : OpSpec) (c : Ctx) (first : Bool) : State :=
  let bufs := (op.buffers c).filter fun b => decide (0 < b.bytes)
  if bufs.isEmpty then s.place p k op c
  else if (s.part p).resizing then s.setPacket p { k with phase := if first then .held .poolResize else .poolWait }
  else
    match s.placesFor p op.code bufs with
    | none =>
      (s.setPacket p { k with phase := .poolWait }).modPart p fun pt =>
        if first then { pt with poolWaits := satAdd (2 ^ 64 - 1) pt.poolWaits 1 } else pt
    | some places =>
      let hbm := (places.filter fun x => x.1 = .hbm).length
      let sump := ((bufs.zip places).filter fun x => x.2.1 = .sump && !x.1.sumpOnly).length
      let s1 := s.modPart p fun pt => { pt with spillHbm := satAdd (2 ^ 64 - 1) pt.spillHbm hbm, spillSump := satAdd (2 ^ 64 - 1) pt.spillSump sump }
      let len := (bufs.headD ⟨0, false⟩).bytes
      let at_ := (s.landingPlace p len (places.headD (.hbm, 0)).1).getD 0
      let r := if lands op.code then k.remote.map fun r => { r with landing := at_, landingLen := len } else k.remote
      s1.place p { k with pool := places, remote := r } op c

/-! Holds before the snapshot (the list of R34). -/

/-- The packets of a partition that have taken their snapshots and not completed, one apart. -/
def Part.livePackets (pt : Part) (k : Packet) : List Packet :=
  pt.packets.filter fun x => x.live && !(x.ring == k.ring && x.idx == k.idx)

/-- Whether a packet waits to make an entry free of references (R212, R404). -/
def State.entryAwaited (s : State) (p e : Nat) (restore : Bool) : Bool :=
  (s.part p).packets.any fun k =>
    k.phase == .refWait
      && (if restore then k.hdr.opcode == 0x0805 && (match s.ctx p k with | some c => c.restoreEntries.contains e | none => false)
          else k.hdr.opcode == 0x0209 && (((s.part p).turnEntry k).map (·.1)) == some e)

/-- The hold of an entry that a valid packet would take a reference on (R202, R212, R404): a B packet that finds a reference in its queue
takes no new one. -/
def Ctx.entryHold (c : Ctx) (e : Nat) : Option Hold :=
  let q := Tbl.get [] ((c.s.part c.p).version e).queues c.pkt.hdr.ctx
  let v := (c.s.part c.p).version e
  if c.pkt.cls ≠ .B ∧ c.s.entryAwaited c.p e false then some (.entryBusy e)
  else if !(c.pkt.cls == .B && !q.isEmpty) && c.s.entryAwaited c.p e true then some (.entryBusy e)
  else if c.pkt.cls = .F ∧ 255 ≤ (q.filter fun x => queueVer x == v.ver).length then some (.versionQueue e)
  else none

/-- The hold that a packet meets before its parameter snapshot. -/
def Ctx.holdOf (c : Ctx) (op : OpSpec) (valid : Bool) : Option Hold :=
  let pt := c.s.part c.p
  let code := op.code
  let live := pt.livePackets c.pkt
  let obj := exchangeObj code c.snap.params
  let gen := snapGen code c.snap.params
  let leaving := c.s.leaving c.p
  let sum := fun (o : Nat) => (live.filter fun k => k.hdr.opcode == o).length
  if (code = 0x0104 ∨ code = 0x0105) ∧ 0 < sum 0x0104 + sum 0x0105 then some .gangChange
  else
    match c.snap.leaves.find? leaving.contains with
    | some a => some (.retiring a)
    | none =>
      if code / 256 = 5 ∧ pt.objClosed obj then some (.placement obj)
      else if 0x0801 ≤ code ∧ code ≤ 0x0806 ∧ pt.genClosed gen then some (.generation gen)
      else if (code = 0x0803 ∨ (code = 0x0804 ∧ op.remote c = false)) ∧ pt.genWriting gen then some (.generation gen)
      else if code = 0x0603 ∧ 2 ≤ (live.filter fun k => k.hdr.opcode == 0x0603 && k.hdr.ctx == c.pkt.hdr.ctx).length then some .allgather
      else if code = 0x0605 ∧ 2 ≤ sum 0x0605 then some .staging
      else if code = 0x0806 ∧ (live.any fun k => k.hdr.opcode == 0x0806 && (k.remote.map (·.ghash)) == some c.ghash) then some .rebuild
      else if valid then (c.readEntries op).findSome? c.entryHold
      else none

/-! Admission. -/

/-- A packet that ends at validation or after it; `count0` is the group of a GROUPED_MATMUL that failed (R236). -/
def Packet.ended (k : Packet) (sn : Snap) (codes clamps : List Nat) (field count0 : Nat) : Packet :=
  { k with phase := .finished, snap := some sn, clamps := clamps,
           res := { Result.empty with codes := codes, field := field, count0 := count0 } }

/-- The snapshot's reads leave their marks on stored data and the log (R269, R274). `status` is what the packet ends with, OK while it goes
on (DEDUCED, log entry 84). -/
def State.snapshotReads (s : State) (ring status : Nat) (reads : List (Nat × Nat)) : State :=
  reads.foldl (fun s r => s.readEffects r.1 r.2 status ring) s

/-- A validated packet takes what its snapshot gives it: references, the remote part with its early messages, and what R346 and R396 take
at the snapshot; then its pool space. -/
def State.begins (s : State) (p : Nat) (k : Packet) (op : OpSpec) (c : Ctx) : State :=
  let (pt1, vers, refs) := takeRefs k.cls k.ring k.idx k.hdr.ctx (c.readEntries op) (s.part p)
  let written := (c.writtenEntries op).map fun e => (e, (pt1.version e).ver)
  let sn := { c.snap with versions := vers ++ written, gOf := c.gradients op }
  let s1 := s.modPart p fun _ => pt1
  let (s2, rem) := match c.remotePart op with
    | some r =>
      let (t, r1) := s1.takeEarly p c r
      if op.code = 0x0602 then let (u, v) := t.takeLayerCounts p c.rsLayer; (u, some { r1 with vec := v }) else (t, some r1)
    | none => (s1, none)
  let c1 : Ctx := { c with s := s2, snap := sn }
  let (s3, work) := c1.snapAdmit s2
  let k1 := { k with snap := some sn, clamps := c.stepClamps op, refs := refs, remote := rem, work := work }
  (s3.setPacket p k1).reservePools p k1 op { c1 with s := s3, pkt := k1 } true

/-- An issued packet goes as far as it can: it holds, or takes its snapshot and is validated (R34–R36). -/
def State.takeUp (s : State) (p : Nat) (k : Packet) : State :=
  match opSpec k.hdr.opcode with
  | none =>
    let sn : Snap :=
      { params := [], descs := [], items := [], slots := [], leaves := [], engine := none, gOf := [], layerG := 0, c3 := false, versions := [],
        badPtrs := [], badItems := [], time := s.mclk }
    s.setPacket p (k.ended sn [ERR_OPCODE] [] 0xFF 0)
  | some op =>
    let (sn, reads) := s.gather p k op
    let c : Ctx := ⟨s, p, k, sn⟩
    let fs := c.allFails op k.cls
    match c.holdOf op fs.isEmpty, firstFail fs with
    | some h, _ => s.setPacket p { k with phase := .held h }
    | none, some f =>
      let both := fs.filter fun x => decide (3 * 4096 + 2048 ≤ x.key ∧ x.key < 4 * 4096)
      let codes := if 3 * 4096 + 2048 ≤ f.key ∧ f.key < 4 * 4096 then both.map (·.status) else [f.status]
      let s1 := s.snapshotReads k.ring (statusOf codes) reads
      let s2 := if k.hdr.opcode = 0x0A02 ∧ f.key / 4096 = 9 then s1.remapRefused (c.addr 0) k.ring else s1
      s2.setPacket p (k.ended sn codes (if f.key / 4096 ≤ 4 then [] else c.stepClamps op) f.field
        (if k.hdr.opcode = 0x0206 then f.group else 0))
    | none, none =>
      let clamps := c.stepClamps op
      let codes := if c.fits op then c.endCodes op else [ERR_DESCRIPTOR]
      let s1 := s.snapshotReads k.ring (statusOf codes) reads
      if codes.isEmpty then s1.begins p k op { c with s := s1 } else s1.setPacket p (k.ended sn codes clamps 0xFF 0)

/-! The ends of holds. -/

/-- A packet that holds tries again: before its snapshot it is admitted afresh, else its reservation is tried again. -/
def State.retry (s : State) (p : Nat) (k : Packet) : State :=
  match k.phase, opSpec k.hdr.opcode, s.ctx p k with
  | .held .poolResize, some op, some c => s.reservePools p k op c true
  | .poolWait, some op, some c => s.reservePools p k op c false
  | .held _, _, _ => s.takeUp p { k with snap := none }
  | _, _, _ => s

/-- The packets of a partition that satisfy a condition try again, in descending ring number (R255). -/
def State.retryWhere (s : State) (p : Nat) (f : Packet → Bool) : State :=
  let ks := sortBy (fun (a b : Packet) => decide (b.ring < a.ring)) ((s.part p).packets.filter f)
  ks.foldl (fun s k => match s.packet (k.ref p) with | some k1 => s.retry p k1 | none => s) s

/-- One packet that holds for a given kind of reason tries again. -/
def retryHeld (why : Hold → Bool) (p : PacketRef) (s : State) : State :=
  match s.packet p with
  | none => s
  | some k =>
    match k.phase with
    | .held h => if why h && !s.fatal then s.retry p.part k else s
    | _ => s

/-- GANG_CHANGE_TURN (R117): a held GANG_FORM or GANG_DISSOLVE takes its snapshot if no other change is under way. -/
def execGangChangeTurn (p : PacketRef) (s : State) : Host.Outcome State Fault Refusal := .next (retryHeld (· == .gangChange) p s)

/-- VERSION_QUEUE_RELEASE (R202): an F packet held by a full queue takes its snapshot once the queue has room. -/
def execVersionQueueRelease (p : PacketRef) (s : State) : Host.Outcome State Fault Refusal :=
  .next (retryHeld (fun h => match h with | .versionQueue _ => true | _ => false) p s)

/-- ALLGATHER_SLOT_FREE (R348). -/
def execAllgatherSlotFree (p : PacketRef) (s : State) : Host.Outcome State Fault Refusal := .next (retryHeld (· == .allgather) p s)

/-- STAGING_SET_FREE (R351). -/
def execStagingSetFree (p : PacketRef) (s : State) : Host.Outcome State Fault Refusal := .next (retryHeld (· == .staging) p s)

/-- PLACEMENT_HOLD_RELEASE (R220, R243). -/
def execPlacementHoldRelease (p : PacketRef) (s : State) : Host.Outcome State Fault Refusal :=
  .next (retryHeld (fun h => match h with | .placement _ => true | _ => false) p s)

/-- SNAP_PARITY_HOLD_END (R401). -/
def execSnapParityHoldEnd (p : PacketRef) (s : State) : Host.Outcome State Fault Refusal :=
  .next (retryHeld (fun h => match h with | .generation _ => true | _ => false) p s)

/-- REBUILD_HOLD_END (R405). -/
def execRebuildHoldEnd (p : PacketRef) (s : State) : Host.Outcome State Fault Refusal := .next (retryHeld (· == .rebuild) p s)

/-- The holds whose end has no row of its own. -/
def Packet.heldOther (k : Packet) : Bool :=
  match k.phase with
  | .held (.retiring _) | .held (.entryBusy _) | .held .poolResize | .held (.generation _) => true
  | _ => false

/-- POOL_RETRY (R255): packets that wait for pool space try again in descending ring number, and with them those whose hold has no row of
its own (DESIGN CHOICE, log entry 32). -/
def execPoolRetry (part : Nat) (s : State) : Host.Outcome State Fault Refusal :=
  if s.isPart part && !s.fatal then .next (s.retryWhere part fun k => k.phase == .poolWait || k.heldOther) else .next s

end Sys2Proof.Machine
end

