-- ==== Sys2Proof/Machine/Links.lean ====
section
/-! DEFINITION. Lanug link events: flits received (R308, R311, R313, R319), replays (R313, R314), lane faults, retrains and ports that go
down or come back (R315, R316). -/

namespace Sys2Proof.Machine

/-! Requests of the bridge (R322, R323). -/

/-- Vector 0 of a function: the bridge's own events (R324), on the bridge. -/
def State.bridgeEvent (s : State) (fn : Nat) : State := if s.isBridge then s.raiseMsix fn 0 else s

/-- A request of the bridge that cannot be answered: a read through the aperture completes with Completer Abort, a BAR2 read waits for its
time limit (R316, R322; DESIGN CHOICE, log entry 33). -/
def State.failRequest (s : State) (r : BridgeReq) : State :=
  if r.aperture && !r.isWrite then s.emit (.completerAbort r.fn) else s

/-- A held access behind an aperture write that will have no WRITE_ACK is never sent (R323): a read through the aperture completes with Completer
Abort, a register write is lost, and a BAR2 read waits for its time limit (DESIGN CHOICE, log entry 101). -/
def State.failHeld (s : State) (h : BridgeHeld) : State :=
  if h.msg.mtype = M_READ_REQ then s.emit (.completerAbort h.fn)
  else if h.msg.data ≠ [] then s
  else { s with bridgeReqs := s.bridgeReqs ++ [⟨h.id, h.fn, h.member, 0xFFFF, false, false, 8, h.time⟩] }

/-- The requests of the bridge whose responses were due through a port end (R316), and with an aperture write those that it holds. -/
def State.failRequests (s : State) (i : Nat) : State :=
  let gone := fun (r : BridgeReq) => r.port == i && !(!r.aperture && !r.isWrite)
  let behind := fun (h : BridgeHeld) => s.bridgeReqs.any fun r => gone r && r.isWrite && r.fn == h.fn && r.member == h.member
  let s1 := (s.bridgeReqs.filter gone).foldl State.failRequest { s with bridgeReqs := s.bridgeReqs.filter fun r => !gone r }
  (s.bridgeHeld.filter behind).foldl State.failHeld { s1 with bridgeHeld := s1.bridgeHeld.filter fun h => !behind h }

/-! Messages in flits. -/

/-- The message whose bytes begin with a header (Table 13.2). -/
def parseMsg (b : List Byte) : Msg :=
  let f := fun (off w : Nat) => leNat ((b.drop off).take w)
  let len := f 2 2
  ⟨f 0 1, f 1 1, f 4 2 % 2 ^ 15, f 6 2 % 2 ^ 15, f 8 4, f 0xC 4, f 0x10 8, len, f 0x18 8, (b.drop 32).take len⟩

/-! A port that goes down (R316). -/

/-- The partition on whose masks a message of a down port goes on: its owner's, else the first whose mask of the destination names the
port. -/
def State.senderOf (s : State) (i : Nat) (f : TxMsg) (m : Msg) : Option Nat :=
  match f.owner with
  | some ref => some ref.part
  | none => s.partList.find? fun p => (Tbl.get 0 (s.part p).routeMasks m.dstEp).testBit i

/-- What an owner awaits through another port now: the write of a message that moved (R316). -/
def State.moveUnacked (s : State) (owner : Option PacketRef) (id i j : Nat) : State :=
  let s1 := { s with bridgeReqs := s.bridgeReqs.map fun r => if r.msgId = id ∧ r.port = i then { r with port := j } else r }
  match owner with
  | none => s1
  | some ref =>
    match s1.packet ref with
    | none => s1
    | some k => s1.setPacket ref.part { k with remote := k.remote.map fun r =>
        { r with unacked := r.unacked.map fun u => if u.2.1 = id ∧ u.2.2 = i then (u.1, u.2.1, j) else u } }

/-- A packet that owns a message which cannot go on ends with a status. -/
def State.failOwner (s : State) (owner : Option PacketRef) (code : Nat) : State :=
  match owner with
  | none => s
  | some ref =>
    match s.packet ref with
    | some k => if k.phase = .running then s.endFailed ref.part k code else s
    | none => s

/-- A message that had not left a down port goes to another port of its mask, or ends with ERR_PEER_UNREACHABLE (R316, R318); so does one
that had left in part, and one of a port's key exchange, which has this port only (R430). -/
def State.moveMessage (s : State) (i code : Nat) (f : TxMsg) : State :=
  let m := parseMsg f.bytes
  let own := match f.owner.bind s.packet with | some k => k.hdr.opcode == 0x0B02 | none => false
  let heart := m.mtype == M_CONTROL && (Control.parse m.data).kind == 4
  let target := if f.begun || own then none else
    (s.senderOf i f m).bind fun p => if heart then s.heartbeatPort p m.dstEp else s.choosePort p m.dstEp m.mtype m.addr
  match target with
  | some j => (s.moveUnacked f.owner m.msgId i j).portSend j f.owner m
  | none => s.failOwner f.owner code

/-- A port goes down (R316): its keys end (R430), its queued messages go to other ports, those in its replay buffer and the requests due
through it end, and the event is logged. -/
def State.portDown (s : State) (i : Nat) : State :=
  let p := s.port i
  let code := if p.tagFailing then ERR_AUTH else ERR_PEER_UNREACHABLE
  let s1 := s.modPort i fun x =>
    { x with state := .down, width := 0, keys := none, switching := none, txQueue := [], discarding := false, tagFailing := false,
             rxStream := [[], [], [], []], ackDue := false, downs := x.downs.hit 1 }
  let s2 := s1.logQuarter (quarterOfPort i) (mkEvent 0x44 i 1)
  let s3 := p.txQueue.foldl (fun s f => s.moveMessage i code f) s2
  (((s3.failThrough i code).failRequests i).portSwitched i false).bridgeEvent (s.lowQ (quarterOfPort i))

/-! Retrains (R315). -/

/-- The lanes in use at a width (R315): of the lanes that pass. -/
def lanesOf (pass : List Nat) : List Nat :=
  if ([0, 1, 2, 3] : List Nat).all pass.contains then [0, 1, 2, 3]
  else if pass.contains 0 && pass.contains 1 then [0, 1]
  else if pass.contains 2 && pass.contains 3 then [2, 3]
  else (([0, 1, 2, 3] : List Nat).filter pass.contains).take 1

/-- A set of lanes as a mask. -/
def laneMask (ls : List Nat) : Nat := (ls.map fun l => 2 ^ l).sum

/-- The replay buffer sent again, flit by flit and unchanged (R313). -/
def State.replayPort (s : State) (i : Nat) : State :=
  let p := s.port i
  let s1 := p.replay.foldl (fun s x => s.emit (.flit i x.2.2)) s
  (s1.modPort i fun p => { p with replays := p.replays.hit p.replay.length }).pumpPort i

/-- A retrain that ends with a width (R315, R316): lanes left out are retired, a port that was down starts anew, a change of mode takes
effect when nothing is unacknowledged (R430), and the sender replays. -/
def State.portUp (s : State) (i : Nat) (lanes : List Nat) : State :=
  let p := s.port i
  let fresh := p.state == .training
  let out := ([0, 1, 2, 3] : List Nat).filter fun l => !lanes.contains l
  let s1 := s.modPort i fun x =>
    { x with state := .up, width := lanes.length, retired := out, faulty := [], failRun := 0, replayTimes := [] }
  let s2 := if fresh then (s1.modPort i fun x =>
      { x with rxLast := 0, rxAny := false, discarding := false, txNext := 0, replay := [], failSeq := 0, tagFailing := false,
               credits := [64, 64, 384, 8], owed := [0, 0, 0, 0], waits := [0, 0, 0, 0], rxStream := [[], [], [], []], ackDue := false }).logQuarter
      (quarterOfPort i) (mkEvent 0x44 i 0) else s1
  let s3 := if p.width ≠ lanes.length then s2.logQuarter (quarterOfPort i) (mkEvent 0x43 i (laneMask out + 16 * lanes.length)) else s2
  let s4 := if fresh || p.width ≠ lanes.length then s3.bridgeEvent (s.lowQ (quarterOfPort i)) else s3
  match p.switching with
  | some ks =>
    if (s4.port i).replay.isEmpty then
      ((s4.modPort i fun x => { x with keys := ks, switching := none }).portSwitched i true).replayPort i
    else s4.replayPort i
  | none => s4.replayPort i

/-- RETRAIN (R315): a port that is up stops DATA flits and trains its lanes that are not retired. -/
def execRetrain (port : Nat) (s : State) : Host.Outcome State Fault Refusal :=
  if s.runsLanug port = true ∧ (s.port port).state = .up then .next (s.beginRetrain port) else .next s

/-- LANE_FAULT (R315): by whichever of the three conditions, a lane is faulty; it does not pass the next training (DEDUCED, log entry 34). At a port that
is up it starts a retrain; where a retry trigger has started one, the lane is left out of it. -/
def execLaneFault (port lane : Nat) (s : State) : Host.Outcome State Fault Refusal :=
  let p := s.port port
  if s.runsLanug port = true ∧ p.state ≠ .down ∧ lane < 4 ∧ p.retired.contains lane = false then
    let s1 := s.modPort port fun p => { p with faulty := setIns p.faulty lane }
    .next (if p.state = .up then s1.beginRetrain port else s1)
  else .next s

/-- RETRAIN_DONE (R315, R316): the training ends with the lanes that passed in both directions. -/
def execRetrainDone (port : Nat) (passing : List Nat) (s : State) : Host.Outcome State Fault Refusal :=
  let p := s.port port
  if s.runsLanug port = true ∧ (p.state = .retraining ∨ p.state = .training) then
    let lanes := lanesOf (passing.filter fun l => !p.retired.contains l && !p.faulty.contains l)
    if !lanes.isEmpty then .next (s.portUp port lanes)
    else if p.state = .training then .next (s.modPort port fun p => { p with state := .down, width := 0, faulty := [] })
    else .next (s.portDown port)
  else .next s

/-- PORT_RETRAIN_ATTEMPT (R316): a down port whose clock runs and whose half is up trains its lanes that are not retired. -/
def execPortRetrainAttempt (port : Nat) (s : State) : Host.Outcome State Fault Refusal :=
  let standby := (s.part (s.lowQ (quarterOfPort port))).pstate == .standby
  if s.runsLanug port = true ∧ (s.port port).state = .down ∧ s.clocksLost.contains (20 + port) = false ∧ s.mainUp = true
      ∧ standby = false then
    .next (s.modPort port fun p => { p with state := .training, retrains := p.retrains.hit 1 })
  else .next s

/-! Replays (R313, R314). -/

/-- Everything up to an acknowledged flit leaves the replay buffer. -/
def Port.acked (p : Port) (ack : Nat) (valid : Bool) : Port :=
  if valid && p.replay.any fun x => x.1 == ack then
    { p with replay := (p.replay.dropWhile fun x => x.1 != ack).drop 1, failRun := 0 }
  else p

/-- Credits that a flit returns, never beyond the buffer of the channel (R311, Table 13.4). -/
def Port.credited (p : Port) (vc n : Nat) : Port :=
  { p with credits := p.credits.modify vc fun c => min (c + n) (([64, 64, 384, 8] : List Nat)[vc]?.getD 0) }

/-- Counts of a replay: those in a row of one flit, and the times of those within the last 100 µs (R314). -/
def Port.countReplay (p : Port) (mclk : Nat) : Port :=
  match p.replay with
  | [] => p
  | x :: _ =>
    let run := if p.failRun ≠ 0 ∧ p.failSeq = x.1 then p.failRun + 1 else 1
    { p with failSeq := x.1, failRun := run, replayTimes := (p.replayTimes.filter fun t => decide (mclk < t + 50000)) ++ [mclk] }

/-- What a RETRY_REQ does at its receiver (R313, R314): a replay from the flit after its ACK, or a retrain where the limits are passed. -/
def State.retryRequested (s : State) (i ack : Nat) (valid : Bool) : State :=
  let s1 := s.modPort i fun p => (p.acked ack valid).countReplay s.mclk
  let p := s1.port i
  if 8 < p.failRun ∨ 256 < p.replayTimes.length then
    (s1.modPort i fun p => { p with failRun := 0, replayTimes := [] }).beginRetrain i
  else (s1.replayPort i).settle i

/-- RETRY_REQ (R313). -/
def execRetryReq (port ack : Nat) (ackValid : Bool) (s : State) : Host.Outcome State Fault Refusal :=
  if s.runsLanug port = true ∧ (s.port port).state = .up then .next (s.retryRequested port (ack % 4096) ackValid) else .next s

/-! Flits received (R308, R313, R319). -/

/-- A RETRY_REQ sent (R313): its ACK names the last flit received in order, and it carries credits as every flit does (R308). -/
def State.askReplay (s : State) (i : Nat) : State :=
  (s.modPort i fun p => { p.told with discarding := true }).emit (.flit i ((s.port i).bareFlit 2))

/-- The ACK and the credits of a good flit taken. -/
def State.takeHead (s : State) (i : Nat) (flit : List Byte) : State :=
  let f := fun (off w : Nat) => leNat ((flit.drop off).take w)
  let ack := f 2 2
  let cr := f 5 1
  let s1 := s.modPort i fun p =>
    let q := p.acked (ack % 4096) (ack.testBit 12)
    if cr.testBit 7 then q.credited (cr % 4) (f 6 2) else q
  (s1.pumpPort i).settle i

/-- The payload of a DATA flit: in clear, or opened with the port's key; `none` where its tag fails (R319). -/
def Port.opened (p : Port) (flit : List Byte) : Option (List Byte) :=
  match p.keys with
  | none => some ((flit.drop 8).take 240)
  | some k => gcmOpen k.keyRx (nonce96 k.salt k.rxExt) (flit.take 8) ((flit.drop 8).take 224) ((flit.drop 0xE8).take 16)

/-- A DATA flit in sequence accepted: its payload joins the channel's stream in the buffer (R309, R311). -/
def State.acceptFlit (s : State) (i seq vc : Nat) (payload : List Byte) : State :=
  s.modPort i fun p =>
    { p with rxLast := seq, rxAny := true, discarding := false, tagFailing := false, ackDue := true,
             rxStream := p.rxStream.modify vc (· ++ [payload]), keys := p.keys.map fun k => { k with rxExt := k.rxExt + 1 } }

/-- A flit as it arrives at a port that is up. -/
def State.flitArrives (s : State) (i : Nat) (codewordOk : Bool) (bytes : List Byte) : State :=
  let p := s.port i
  let flit := padTo 256 bytes
  let f := fun (off w : Nat) => leNat ((flit.drop off).take w)
  let seq := f 0 2 % 4096
  let ftype := f 0 2 / 4096
  if !codewordOk || f 0xF8 4 != crc32c (flit.take 0xF8) || decide (3 ≤ ftype) then s.askReplay i
  else if ftype = 2 then s.retryRequested i (f 2 2 % 4096) ((f 2 2).testBit 12)
  else if ftype = 1 then s.takeHead i flit
  else if seq ≠ (if p.rxAny then (p.rxLast + 1) % 4096 else 0) then (if p.discarding then s else s.askReplay i)
  else
    match p.opened flit with
    | none => (s.modPort i fun p => { p with tagFailing := true, tagFails := p.tagFails.hit 1 }).askReplay i
    | some payload => (s.acceptFlit i seq (f 4 1 % 4) payload).takeHead i flit

/-- FLIT_RECEIVE (R313). A port of a half whose fabric has stopped goes on accepting flits on its own clock; their payload stays in its buffer (R9,
R311). -/
def execFlitReceive (port : Nat) (codewordOk : Bool) (flit : List Byte) (s : State) : Host.Outcome State Fault Refusal :=
  if s.runsLanug port = true ∧ (s.port port).state = .up then .next (s.flitArrives port codewordOk flit) else .next s

end Sys2Proof.Machine
end

