-- ==== Sys2Proof/Machine/Boot.lean ====
section
/-! DEFINITION. The board configuration (R440, R441), power-up and power-down (R445, R446), boot (R449, R450, R258–R260, R282, R283), and the
COLD and MODULE resets (R455, R458, R462, R468). -/

namespace Sys2Proof.Machine

/-! The board configuration image (Table 19.9). -/

/-- A field of an image. -/
def imageField (img : List Byte) (off w : Nat) : Nat := leNat ((img.drop off).take w)

/-- QUAL_COUNT of an image. -/
def imageQualCount (img : List Byte) : Nat := imageField img 0x28 2

/-- The length that QUAL_COUNT gives. -/
def imageLength (img : List Byte) : Nat := 0x80 + 32 * imageQualCount img + 3732

/-- Whether an image can be read at all: MAGIC, VERSION and LENGTH are right (R441, R450). -/
def imageReadable (img : List Byte) : Bool :=
  img.take 4 == [0x43, 0x4A, 0x43, 0x46] && imageField img 4 2 == 1 && imageField img 6 2 == imageLength img
    && decide (imageLength img ≤ img.length)

/-- The qualified list of an image. -/
def imageQual (img : List Byte) : List (Nat × List Byte) :=
  (List.range (imageQualCount img)).map fun i => (imageField img (0x80 + 32 * i) 2, (img.drop (0x82 + 32 * i)).take 30)

/-- GROUP of an image. -/
def imageGroup (img : List Byte) : List Nat := (List.range (imageField img 0x23 1)).map fun i => imageField img (0x40 + 2 * i) 2

/-- Whether an image is valid on this module (R317, R441). -/
def State.imageValid (s : State) (img : List Byte) : Bool :=
  let f := imageField img
  let n := imageQualCount img
  let serial := (img.drop 8).take 16
  let end_ := 0x80 + 32 * n
  let key := (img.drop (end_ + 2420)).take 1312
  let sig := (img.drop end_).take 2420
  let layout := f 0x20 1
  let used := match layout with | 0 => 1 | 1 => 5 | _ => 15
  let own := f 0x24 2 + s.geoId
  let bridge := f 0x26 2
  imageReadable img
    && (serial.all (· == 0) || serial == s.serialBytes)
    && sha3 key == s.boardKeyDigest && Config.mldsaVerify key (asciiBytes "CSJ40 config") (img.take end_) sig
    && decide (layout ≤ 2 ∧ f 0x22 1 ≤ 1 ∧ 1 ≤ f 0x23 1 ∧ f 0x23 1 ≤ 32 ∧ n ≤ 64)
    && ascends (imageGroup img) && decide (own ≤ 0x7FFF)
    && (f 0x22 1 == 1 || (bridge.testBit 15 && bridge % 2 ^ 15 == own))
    && ((img.drop 0x2A).take 22).all (· == 0) && ((img.drop (0x40 + 2 * f 0x23 1)).take (64 - 2 * f 0x23 1)).all (· == 0)
    && decide (f 0x21 1 = f 0x21 1 &&& used)

/-- The configuration that a valid image gives. -/
def imageConfig (img : List Byte) : BoardConfig :=
  let f := imageField img
  { layout := f 0x20 1, conf := f 0x21 1, xLanug := f 0x22 1 == 1, endpointBase := f 0x24 2, group := imageGroup img,
    bridgeEp := if (f 0x26 2).testBit 15 then some (f 0x26 2 % 2 ^ 15) else none, qualified := some (imageQual img),
    measure := sha3 (img.take (imageLength img)) }

/-! DIMMs (R258, R259). -/

/-- What R258 and R450 ask of every DIMM. -/
def dimmStandard (d : Dimm) : Bool :=
  d.isMrdimm && d.x4 && d.ratedMts == 8800 && (d.sizeGiB == 64 || d.sizeGiB == 128 || d.sizeGiB == 256)

/-- Whether a DIMM is on the qualified list; with no list, the default rule (R450). -/
def dimmQualifies (list : Option (List (Nat × List Byte))) (d : Dimm) : Bool :=
  dimmStandard d && (match list with
    | none => true
    | some l => l.any fun e => e.1 == d.manufacturer && e.2 == padTo 30 d.partNumber)

/-- Why a channel is disabled (Table 11.6): 1 empty, 2 not qualified, 3 part mismatch, 4 training; `none` when it is enabled. -/
def channelReason (list : Option (List (Nat × List Byte))) (reference : Option Dimm) : Option Dimm → Option Nat
  | none => some 1
  | some d =>
    if !dimmQualifies list d then some 2
    else if (match reference with | some r => r.partNumber != d.partNumber | none => true) then some 3
    else if d.trainsMts < 6400 then some 4 else none

/-- What stage 3 makes of the sockets: the enabled channels, the reasons, the data rate and the capacity of a DIMM. -/
def qualifyDimms (list : Option (List (Nat × List Byte))) (dimms : List (Option Dimm)) : List Nat × List (Nat × Nat) × Nat × Nat :=
  let reference := (dimms.filterMap id).find? (dimmQualifies list)
  let rs := (List.range 8).map fun i => (i, channelReason list reference (dimms[i]?.getD none))
  let on := (rs.filter fun x => x.2.isNone).map (·.1)
  let trains := fun (r : Nat) => on.all fun i => match dimms[i]?.getD none with | some d => decide (r ≤ d.trainsMts) | none => false
  let rate := (([8800, 8000, 7200, 6400] : List Nat).find? trains).getD 0
  (on, rs.filterMap fun x => x.2.map fun r => (x.1, r), if on.isEmpty then 0 else rate,
   if on.isEmpty then 0 else (match reference with | some d => d.sizeGiB | none => 0))

/-! Fuse repairs (R283). -/

/-- The repair domain of a repair, with its device in the sump: the unit or the DIMM, and what R283 names within it. -/
def repairDomain (k : MemKind) (u g device : Nat) : List Nat :=
  match k with
  | .scratchpad => [u]
  | .hbm => [u, g / 64 % 64, g / 4096 % 16]
  | .sump => [u, g / 64 % 8, device]

/-- The spare rows of a domain. -/
def spareRows (k : MemKind) : Nat := if k = .scratchpad then 16 else 1

/-- The devices in which a repair is made: the one that carried the symbol, every device of the subchannel where none is known, and no
device outside the sump. -/
def repairDevices (k : MemKind) (e : Nat) : List Nat :=
  if k = .sump then (if e % 16 = 15 then List.range 10 else [e % 16]) else [0]

/-- The granule of a scheduled repair. -/
def repairGranule (k : MemKind) (e : Nat) : Nat := if k = .sump then e / 16 else e

/-- A scheduled repair as the domains and devices it takes. -/
def repairTakes (x : MemKind × Nat × Nat) : List (List Nat) :=
  (repairDevices x.1 x.2.2).map fun d => repairDomain x.1 x.2.1 (repairGranule x.1 x.2.2) d

/-- Whether every domain of a repair has a spare row left. -/
def repairFits (done : List (MemKind × Nat × Nat)) (x : MemKind × Nat × Nat) : Bool :=
  (repairTakes x).all fun d =>
    decide (((done.filter fun y => y.1 == x.1).flatMap repairTakes).count d < spareRows x.1)

/-- What a repair's domain belongs to: the unit, or for the sump the DIMM, by its serial number (R283). -/
def State.repairHolder (s : State) (k : MemKind) (u : Nat) : Nat := if k = .sump then s.unitSerial k u else u

/-- Whether a repair leaves a granule's symbol fault: in the sump it reaches only its own devices (R283). -/
def repairMisses (k : MemKind) (e symbol : Nat) : Bool := k == .sump && !(repairDevices k e).contains symbol

/-- The scheduled repairs applied (R283): the cells that they replace lose their faults, and every one leaves a note of its event. A repair
that finds no spare row is not tried again. -/
def State.applyFuses (s : State) : State × List (Nat × MemKind × Nat × Nat) :=
  s.fuseScheduled.foldl (fun (acc : State × List (Nat × MemKind × Nat × Nat)) x =>
    let g := repairGranule x.1 x.2.2
    let y := (x.1, acc.1.repairHolder x.1 x.2.1, x.2.2)
    if repairFits acc.1.fuseDone y then
      let a := acc.1.addrOf x.1 x.2.1 (64 * g)
      ({ acc.1 with fuseDone := acc.1.fuseDone ++ [y],
                    faults := acc.1.faults.filter fun f => f.addr / 64 != a / 64 || repairMisses x.1 x.2.2 f.symbol },
       acc.2 ++ [(9, x.1, x.2.1, g)])
    else (acc.1, acc.2 ++ [(8, x.1, x.2.1, g)])) ({ s with fuseScheduled := [] }, [])

/-- Whether a granule holds a fuse repair. -/
def State.isRepaired (s : State) (k : MemKind) (u g : Nat) : Bool :=
  s.fuseDone.any fun x => x.1 == k && x.2.1 == s.repairHolder k u && repairGranule k x.2.2 == g

/-! Power-down (R446). -/

/-- What is left of the module when its rails are down: what fuses, flash, the configuration area, the DIMMs' own repairs and the snapshot
store hold, and what VIN keeps (R393, R419, R471, R472). -/
def State.unpowered (s : State) : State :=
  { State.reset with
    pending := s.pending, quartersPer := s.quartersPer,
    parts := s.parts.map fun pt => { Part.reset with catalogue := pt.catalogue },
    faults := s.faults.filter (·.stuck), remaps := s.remaps.filter (·.persist), fuseScheduled := s.fuseScheduled,
    fuseDone := s.fuseDone, spares := s.spares, reserve := s.reserve, retired := s.retired, retiredSlices := s.retiredSlices,
    faultyArrays := s.faultyArrays, dimms := s.dimms, channels := [], sumpRate := 0, sumpCapacity := 0,
    ports := List.replicate 20 (Port.reset false), sensors := s.sensors, slowPower := s.slowPower, vin := s.vin,
    pwrEn := false, pwrGood := false, aonUp := false, mainUp := false, bootStage := 0, ready := false, configDefault := false,
    board := s.board, flashImage := s.flashImage, cfg := s.cfg, geoPins := s.geoPins, geoId := s.geoId, smbusTarget := s.smbusTarget,
    refclk := false, nextMsgId := s.nextMsgId, serial := s.serial, stepping := s.stepping, romMeasure := s.romMeasure,
    romDigest := s.romDigest, boardKeyDigest := s.boardKeyDigest, identityKey := s.identityKey, identityPub := s.identityPub,
    certificate := s.certificate, rootKeyDigest := s.rootKeyDigest, debugKeyDigest := s.debugKeyDigest, draws := s.draws, out := s.out }

/-- PWR_EN_FALL (R446): a low pulse shorter than 10 ms is ignored; a longer one shuts the rails down. -/
def execPwrEnFall (lowMs : Nat) (s : State) : Host.Outcome State Fault Refusal :=
  if 10 ≤ lowMs ∧ s.pwrEn = true then .next s.unpowered else .next s

/-- POWER_FAULT (R446): the rails shut down in the same way, and FAULT_N is asserted for as long as PWR_EN stays high. -/
def execPowerFault (_kind : PowerFault) (s : State) : Host.Outcome State Fault Refusal :=
  if s.pwrEn then .next { s.unpowered with pwrEn := true, converterFault := true } else .next s

/-- VIN_PRESENT (R445, R469): VIN above 52 V starts the main converter's input side; housekeeping, SMBus and the sensors are powered. -/
def execVinPresent (mv : Nat) (s : State) : Host.Outcome State Fault Refusal :=
  if 52000 < mv then .next { s with vin := true, sensors := { s.sensors with vinMv := mv } } else .next s

/-! Power-up (R445, R455). -/

/-- Whether a fault of the cells lies in the package, or in a channel whose DIMM is the one that was there before
(DEDUCED, log entry 109). -/
def State.sameDimm (s : State) (dimms : List (Option Dimm)) (f : SymFault) : Bool :=
  match s.localOf f.addr with
  | some (.sump, u, _) => decide ((dimms[u]?.getD none).map (·.serial) = (s.dimms[u]?.getD none).map (·.serial))
  | _ => true

/-- COLD_RESET (R445): PWR_EN rises after at least 10 ms low. The ROM is checked (R439), GEO_ID is latched (R469), the rails come up, and boot
begins, or is held at stage 0 while PERST_N is low (R468). -/
def execColdReset (lowMs : Nat) (env : BootEnv) (s : State) : Host.Outcome State Fault Refusal :=
  if lowMs < 10 ∨ s.vin = false then .next s
  else
    let bad := !env.romOk || s.romMeasure != s.romDigest
    .next { s.unpowered with
      faults := s.unpowered.faults.filter (s.sameDimm env.dimms),
      pwrEn := true, aonUp := true, pwrGood := true, mainUp := true, geoId := s.geoPins, smbusTarget := none, dimms := env.dimms,
      refclk := env.refclk, perstLow := env.perstLow, boot := some env, bootModule := none, bootHeld := env.perstLow,
      bootStage := if env.perstLow || bad then 0 else 1, fatal := bad }

/-- What a boot run by a MODULE reset meets: the present DIMMs, units that pass their tests, stacks held in reset as they are, and the ports
that are not down with their lanes (DESIGN CHOICE, log entry 36). -/
def State.presentEnv (s : State) : BootEnv :=
  { dimms := s.dimms, badArrays := [], badSlices := [], badStacks := s.stacksOff,
    portLanes := (List.range 20).map fun i =>
      let p := s.port i
      (i, if p.state = .down then 0 else laneMask (([0, 1, 2, 3] : List Nat).filter fun l => !p.retired.contains l)),
    refclk := s.refclk, perstLow := false, romOk := true, fusesOk := true }

/-- Whether a window is one of a change that is running, or of none. -/
def State.changeQuarters (s : State) : List Nat := match s.change with | some c => c.quarters | none => []

/-- A MODULE reset begins (R455, R458, R462): every domain but AON is reset. A module that has tripped, or has no power, does not
reset. -/
def State.moduleReset (s : State) : State :=
  if !s.mainUp || s.tripped then s
  else
    let bad := s.romMeasure != s.romDigest
    { s with
      parts := s.parts.map fun pt => { Part.reset with catalogue := pt.catalogue, confidential := pt.confidential },
      windows := ((List.range 5).zip s.windows).map fun x => x.2.softReset x.1,
      merge := [], scrubSettings := List.replicate 4 ScrubSetting.defaults, scrubbers := [], trackers := [],
      residues := [], retiring := [], gatedBenches := [], fabric := [], halvesDown := [],
      clocksLost := [], ports := s.ports.map fun p => { Port.reset false with retired := p.retired, width := p.width },
      halves := [⟨940, 940, 0, 0, 0⟩, ⟨940, 940, 0, 0, 0⟩], overTicks := 0, bootStage := if bad then 0 else 1, bootHeld := false,
      ready := false, bootMs := 0, boot := some s.presentEnv, bootModule := some s.changeQuarters, fatal := bad, challenge := none,
      pcieSpeed := 0, pcieWidth := 0, msixTable := [], msixPending := [], bridgeReqs := [], bridgeHeld := [], change := none }

/-- Whether a COLD boot is under way, which a MODULE reset does not interrupt (R456). -/
def State.coldBooting (s : State) : Bool := !s.ready && !s.fatal && s.bootModule.isNone && s.mainUp

/-- PERST_N_RISE (R455, R468): a low pulse shorter than 100 µs is ignored. The rise releases a boot that it held, restarts a COLD boot at
stage 1, and otherwise starts a MODULE reset. -/
def execPerstNRise (lowUs : Nat) (s : State) : Host.Outcome State Fault Refusal :=
  if lowUs < 100 ∨ s.mainUp = false then .next s
  else if s.coldBooting then .next { s with bootHeld := false, perstLow := false, bootStage := 1 }
  else .next { s.moduleReset with perstLow := false }

/-! Boot (Table 20.3). -/

/-- A port after stage 5, from its passing lanes; `was` is the port before, whose retired lanes only a COLD reset clears (R315). -/
def bootPort (cold trains : Bool) (was : Port) (pass : List Nat) : Port :=
  let gone := if cold then [] else was.retired
  let lanes := lanesOf (pass.filter fun l => !gone.contains l)
  if !trains then Port.reset false
  else if lanes.isEmpty then { Port.reset false with retired := gone }
  else { Port.reset true with width := lanes.length, retired := ([0, 1, 2, 3] : List Nat).filter fun l => !lanes.contains l }

/-- The lanes of a port that train. -/
def envLanes (e : BootEnv) (i : Nat) : List Nat :=
  ([0, 1, 2, 3] : List Nat).filter fun l => ((e.portLanes.lookup i).getD 0).testBit l

/-- The remap entries reloaded (R282): without those whose granule now holds a fuse repair, and without sump entries of another DIMM; the
channels of the latter are noted. Accesses to a granule left out meet its own cells again. -/
def State.reloadRemaps (s : State) : State × List Nat :=
  let repaired := s.remaps.filter fun r => !r.persist || s.isRepaired r.mem r.unit r.granule
  let stale := s.remaps.filter fun r =>
    !(!r.persist || s.isRepaired r.mem r.unit r.granule) && r.mem == .sump && r.serial != s.unitSerial .sump r.unit
  ((repaired ++ stale).foldl State.unmapGranule s, stale.map (·.unit))

/-- The quarters whose sump a boot zeroes: all of them at a COLD reset; at a MODULE reset those whose partition or confidential flag
changes, and those that a stopped change had reassigned (R458). -/
def State.sumpZeroed (s : State) (layout conf : Nat) : List Nat :=
  match s.bootModule with
  | none => [0, 1, 2, 3]
  | some qs => (List.range 4).filter fun q => qs.contains q || (s.reassigned layout conf).contains q

/-- The memories zeroed (Table 20.3 stages 2 to 4, R282, R458): the replacements of a sump that is not zeroed read as poisoned. -/
def State.bootZero (s : State) (zeroed : List Nat) : State :=
  let s1 := (s.zeroRange 0 (4 * hbmQuarter)).zeroRange scratchBase (scratchBase + 256 * sliceBytes)
  let s2 := zeroed.foldl (fun s q => s.zeroRange (sumpBase + q * sumpQuarter) (sumpBase + (q + 1) * sumpQuarter)) s1
  (s2.remaps.filter fun r => r.mem == .sump && !zeroed.contains (r.unit / 2)).foldl (fun s r =>
    s.addPoison (s.addrOf .sump r.unit (64 * r.granule))) s2

/-- The partitions of a layout formed (stage 7), with nothing bound. -/
def State.bootForm (s : State) (layout conf : Nat) : State :=
  let per := layoutQuarters layout
  let moved := if s.quartersPer = per then s.faults else s.moveFaults per
  let formed := ((List.range s.parts.length).zip s.parts).map fun (x : Nat × Part) =>
    { Part.reset with catalogue := x.2.catalogue, confidential := decide (x.1 % per = 0) && conf.testBit x.1 }
  { s with quartersPer := per, parts := formed, faults := moved }

/-- The channels after stage 3: as trained, or kept as they are by a MODULE reset (R458). -/
def State.bootChannels (s : State) (cold : Bool) (list final : Option (List (Nat × List Byte))) : State :=
  if !cold then s
  else
    let (on, why, rate, cap) := qualifyDimms list s.dimms
    let stays := fun (i : Nat) => match s.dimms[i]?.getD none with | some d => dimmQualifies final d | none => false
    let off := on.filter fun i => !stays i
    { s with channels := on.filter stays, chanReason := sortBy (fun a b => decide (a.1 < b.1)) (why ++ off.map fun i => (i, 2)),
             sumpRate := if (on.filter stays).isEmpty then 0 else rate, sumpCapacity := if (on.filter stays).isEmpty then 0 else cap }

/-- Boot from stage 1 to READY (Table 20.3, R449, R450). -/
def State.bootRun (s : State) (env : BootEnv) (ms : Nat) : State :=
  let cold := s.bootModule.isNone
  let valid := s.imageValid s.flashImage
  let image := imageConfig s.flashImage
  let default := BoardConfig.default s.geoId
  let chosen := if valid then image else default
  let board := if cold then chosen else { s.board with layout := chosen.layout, conf := chosen.conf }
  let stored := if imageReadable s.flashImage then some (imageQual s.flashImage) else none
  let (s1, fused) := if cold then s.applyFuses else (s, [])
  let (s2, changed) := s1.reloadRemaps
  let s3 := s2.bootChannels cold stored (if valid then stored else none)
  let zeroed := s3.sumpZeroed board.layout board.conf
  let s4 := (s3.bootForm board.layout board.conf).bootZero zeroed
  let trains := fun (i : Nat) => decide (i < 16) || board.xLanug
  let ports := ((List.range 20).zip s4.ports).map fun (x : Nat × Port) => bootPort cold (trains x.1) x.2 (envLanes env x.1)
  let old := s4.ports
  let s5 : State := { s4 with board := board, configDefault := !valid, ports := ports, stacksOff := env.badStacks, ready := true,
                              bootStage := 7, bootMs := min ms 0xFFFFFFFF, boot := none, bootModule := none }
  let s6 := fused.foldl (fun s x => s.memEvent x.1 (s.addrOf x.2.1 x.2.2.1 (64 * x.2.2.2)) 0 0 0xFFFF) s5
  let s7 := changed.foldl (fun s u => s.logQuarter (u / 2) (mkEvent 0x52 u 0)) s6
  let s8 := if cold then s7.chanReason.foldl (fun s x => s.logQuarter (x.1 / 2) { mkEvent 0x0A x.1 x.2 with mem := 2 }) s7 else s7
  let s9 := env.badSlices.foldl (fun s u => s.retireSlice u 0xFFFF) (env.badArrays.foldl (fun s a => s.retireArray a 0xFFFF) s8)
  let s10 := (List.range 20).foldl (fun s i =>
    let p := s.port i
    let w := if cold then 4 else (old[i]?.getD p).width
    if !trains i then s
    else if p.state = .down then s.logQuarter (quarterOfPort i) (mkEvent 0x44 i 1)
    else if p.width ≠ w then s.logQuarter (quarterOfPort i) (mkEvent 0x43 i (laneMask p.retired + 16 * p.width))
    else s) s9
  let s11 := if valid then s10 else s10.logAll (mkEvent 0x51 0 0)
  let s12 := s11.partList.foldl State.freeUncommitted s11
  (s12.partList.foldl (fun s p => s.openPart p 0) s12).updateSetPoints

/-- BOOT_READY (R449): the stages that a reset began end at READY, or in the fatal state where the fuse map cannot be read. -/
def execBootReady (ms : Nat) (s : State) : Host.Outcome State Fault Refusal :=
  match s.boot with
  | none => .next s
  | some env =>
    if s.mainUp = false ∨ s.fatal = true ∨ s.bootHeld = true ∨ s.ready = true then .next s
    else if !env.fusesOk then .next { s with fatal := true }
    else .next (s.bootRun env ms)

end Sys2Proof.Machine
end

