-- ==== Sys2Proof/Machine/Messages.lean ====
section
/-! DEFINITION. Lanug messages received (R310, R322, R325, R331, R333, R334, R338, R340, R433): the epoch check, and what each message
does. -/

namespace Sys2Proof.Machine

/-! Receiving. -/

/-- The payloads in a buffer without the rest of a flit that zeros pad. -/
def dropPad (fs : List (List Byte)) : List (List Byte) := fs.dropWhile fun f => (f.take 16).all (· == 0)

/-- The payloads in a buffer once the first `n` bytes have left. -/
def dropBytes : Nat → List (List Byte) → List (List Byte)
  | _, [] => []
  | n, f :: fs => if f.length ≤ n then dropBytes (n - f.length) fs else f.drop n :: fs

/-- The channel at the head of whose stream a message stands, when the port has received its flits. -/
def Port.carrying (p : Port) (m : Msg) : Option Nat :=
  (List.range 4).find? fun v => (msgBytes m).isPrefixOf (dropPad (p.rxStream[v]?.getD [])).flatten

/-- A message leaves the buffer in which it arrived; the credit of each flit whose payload has left is owed (R311). -/
def Port.consume (p : Port) (m : Msg) : Port :=
  match p.carrying m with
  | some v =>
    let fs := p.rxStream[v]?.getD []
    let left := dropPad (dropBytes (msgBytes m).length (dropPad fs))
    { p with rxStream := p.rxStream.set v left, owed := p.owed.modify v (· + (fs.length - left.length)) }
  | none => p

/-- A message dropped and counted in its port's registers (R310). -/
def State.dropMsg (s : State) (i : Nat) : State := s.modPort i fun p => { p with msgDrops := p.msgDrops.hit 1 }

/-- A message as it arrives whole at a port (R310): dropped where its type is reserved, its destination is another endpoint, or it came
on another channel; otherwise `f` is what it does. A command whose message is of another type than its row changes nothing. No message leaves a port
for the fabric of a half that is off or whose NCLK has stopped (R9, R11). -/
def State.receive (s : State) (i mtype : Nat) (m : Msg) (f : State → State) : State :=
  if !s.runsLanug i || (s.port i).state != .up || s.halvesDown.contains (portHalf i) then s
  else
    let wrong := match (s.port i).carrying m with | some v => v != vcOf m.mtype | none => false
    let s1 := s.modPort i fun p => p.consume m
    if m.mtype = 0 ∨ 9 < m.mtype ∨ m.dstEp ≠ s.endpoint ∨ wrong = true then s1.dropMsg i
    else if m.mtype ≠ mtype then s
    else f s1

/-! The epoch check (Table 14.3). -/

/-- A STALE notice to an endpoint, at most one within each quarter of HB_TIME (R333). -/
def State.sendStale (s : State) (p : Nat) (m : Msg) : State :=
  let pt := s.part p
  let last := Tbl.get 0 pt.staleSent m.srcEp
  if last ≠ 0 ∧ s.mclk < last - 1 + pt.hbTime * msCycles / 4 then s
  else
    let (s1, ok) := s.sendControl p none m.srcEp (firmwareControl 5 p p m.epoch pt.epoch)
    if ok then s1.modPart p fun pt => { pt with staleSent := Tbl.set 0 pt.staleSent m.srcEp (s.mclk + 1) } else s1

/-- Rows 2 to 6 of Table 14.3, after the rule of R433 for a confidential partition; `exempt` marks the messages of a port's key exchange.
The message acts by `f` when it is accepted. A partition in STANDBY takes none: its ports are off (R447). -/
def State.checked (s : State) (i p : Nat) (m : Msg) (exempt : Bool) (f : State → State) : State :=
  let pt := s.part p
  let drop := fun (g : Part → Part) => s.modPart p g
  if !s.isPart p || (match pt.pstate with | .standby | .waking => true | _ => false) then s
  else if pt.confidential && (s.port i).keys.isNone && !exempt then s.dropMsg i
  else if pt.members.isEmpty || pt.quarantined then drop fun pt => { pt with unsetDrops := satAdd (2 ^ 64 - 1) pt.unsetDrops 1 }
  else if !pt.members.contains m.srcEp then
    (drop fun pt => { pt with staleDrops := satAdd (2 ^ 64 - 1) pt.staleDrops 1 }).sendStale p m
  else if m.epoch < pt.epoch then drop fun pt => { pt with lagDrops := satAdd (2 ^ 64 - 1) pt.lagDrops 1 }
  else if pt.epoch < m.epoch then drop fun pt => { pt with earlyDrops := satAdd (2 ^ 64 - 1) pt.earlyDrops 1 }
  else f s

/-- The device address of a message. -/
def deviceOf (m : Msg) : Nat := m.addr % 2 ^ 49

/-! Refused accesses (R322). -/

/-- The place of this module in its group list. -/
def State.ownMember (s : State) : Nat := if s.board.group.contains s.endpoint then s.board.group.idxOf s.endpoint else 0xFFFF

/-- An access through the bridge refused on a member: logged in the partition it reached. -/
def State.refuseAccess (s : State) (p : Nat) (m : Msg) : State :=
  if s.board.bridgeEp = some m.srcEp then s.log p (mkEvent 0x4E s.ownMember 4) else s

/-- Whether the host may reach bytes of a partition through BAR4 (R431): in a confidential one only the setup window, until its keys are
set. -/
def State.hostMayReach (s : State) (p a len : Nat) : Bool :=
  let pt := s.part p
  !pt.confidential || (!pt.host.keysSet && decide (p * hbmQuarter ≤ a ∧ a + len ≤ p * hbmQuarter + 4 * 2 ^ 20))

/-- Whether an access of memory by a message comes from the bridge for its host: no running packet has that endpoint in its group. -/
def State.fromHost (s : State) (p : Nat) (m : Msg) : Bool :=
  s.board.bridgeEp == some m.srcEp && !(s.part p).packets.any fun k =>
    k.phase == .running && (match k.remote with | some r => r.keys.any fun key => keyEp key == m.srcEp | none => false)

/-- Whether a message may reach bytes of the partition's memory (R251, R322, R431). -/
def State.mayReach (s : State) (p : Nat) (m : Msg) (a len : Nat) : Bool :=
  s.inMemory p a len && (!s.fromHost p m || s.hostMayReach p a len)

/-! WRITE. -/

/-- The data of a WRITE as writes to device memory, its poison map applied (R273). -/
def writesOf (m : Msg) : List Write :=
  coalesce ((List.range (ceilDiv m.data.length 64)).map fun i =>
    (⟨deviceOf m + 64 * i, (m.data.drop (64 * i)).take 64, m.poisonMap.testBit i⟩ : Write))

/-- The running exchange of a port's keys into whose landing area a message writes, on that port (R430, R433). -/
def State.keyLanding (s : State) (i p : Nat) (m : Msg) : Option PacketRef :=
  ((s.part p).packets.find? fun k =>
    k.hdr.opcode == 0x0B02 && k.phase == .running
      && (match s.ctx p k, k.remote with
          | some c, some r => c.keyPort == i && decide (r.landing ≤ deviceOf m ∧ deviceOf m + m.data.length ≤ r.landing + r.landingLen)
          | _, _ => false)).map fun k => k.ref p

/-- The running ALLGATHER or ALLTOALL whose destination holds the bytes of a message (R347, R349). -/
def State.gatherLanding (s : State) (p : Nat) (m : Msg) : Option Packet :=
  (s.part p).packets.find? fun k =>
    (k.hdr.opcode == 0x0603 || k.hdr.opcode == 0x0604) && k.phase == .running
      && (match s.ctx p k with
          | some c => (c.loc 5).spans.any fun x => decide (x.1 ≤ deviceOf m ∧ deviceOf m < x.1 + x.2)
          | none => false)

/-- Whether a message writes inside a packet's landing area in the pools (R331). -/
def State.inLanding (s : State) (p : Nat) (m : Msg) : Bool :=
  (s.part p).packets.any fun k =>
    match k.remote with
    | some r => decide (r.landingLen ≠ 0 ∧ r.landing ≤ deviceOf m ∧ deviceOf m + m.data.length ≤ r.landing + r.landingLen)
    | none => false

/-- The bytes of a row that has landed but has no DONE yet. -/
def Remote.landBytes (r : Remote) (m : Msg) : Remote :=
  let bytes := ((List.range m.data.length).zip m.data).foldl (fun t x => Tbl.put t (deviceOf m + x.1) x.2) r.landed
  let bad := (List.range (ceilDiv m.data.length 64)).flatMap fun i =>
    if m.poisonMap.testBit i then unitsIn (deviceOf m + 64 * i) (min 64 (m.data.length - 64 * i)) else []
  { r with landed := bytes, landPoison := bad.foldl setIns r.landPoison }

/-- What a message of an exchange does to one running packet (R226, R232, R238, R240): the rows that it lets land do so, and the packet goes on. -/
def State.exchangeTo (s : State) (p : Nat) (x : ExchangeMsg) (ref : PacketRef) : State :=
  match s.packet ref with
  | none => s
  | some k =>
    match s.ctx p k, k.remote with
    | some c, some r =>
      let ms := s.held p x.key
      let rows := letLand ms x
      let s1 := if rows.isEmpty then s else
        match k.hdr.opcode with
        | 0x0502 => s.landStore p k r 2 c (c.landRows ms rows)
        | 0x0503 => s.landStore p k r 3 c (c.landReturned rows)
        | 0x0504 => s.landStore p k r 3 c (c.landGrads r rows)
        | _ => s
      s1.goOn ref
    | _, _ => s

/-- What a message of an exchange does: it reaches the running packets of its exchange. -/
def State.exchangeArrived (s : State) (p : Nat) (x : ExchangeMsg) : State :=
  (((s.part p).packets.filter fun k => k.phase == .running && (match s.ctx p k with
      | some c => c.hears x
      | none => false)).map (·.ref p)).foldl (fun s ref => s.exchangeTo p x ref) s

/-- A WRITE_ACK for a WRITE: on the named port for a port's key exchange. -/
def State.ackWrite (s : State) (i p : Nat) (m : Msg) (key : Bool) : State :=
  if key then
    if (s.port i).state = .up then
      s.portSend i none ⟨M_WRITE_ACK, 0, m.srcEp, s.endpoint, (s.part p).epoch, m.msgId, m.addr, 0, 0, []⟩
    else s
  else s.respond p m M_WRITE_ACK 0 []

/-- An accepted WRITE (R310): its bytes land where its address lies. What lies outside the partition's memory, its landing areas and its
exchange page is refused, and what cannot be reached gets no answer. -/
def State.landWrite (s : State) (i p : Nat) (m : Msg) : State :=
  let a := deviceOf m
  let page := s.exchangePage p
  let key := s.keyLanding i p m
  if page ≤ a ∧ a < page + 4096 then
    let x := ExchangeMsg.parse m.data m.poisonMap
    ((s.modPart p fun pt => { pt with exchange := pt.exchange ++ [x] }).ackWrite i p m false).exchangeArrived p x
  else
    match s.gatherLanding p m with
    | some k => (s.setPacket p { k with remote := k.remote.map fun r => r.landBytes m }).ackWrite i p m false
    | none =>
      if !(s.mayReach p m a m.data.length || s.inLanding p m) then (s.refuseAccess p m).ackWrite i p m false
      else if !s.reachable a m.data.length then s
      else (s.storeAll (writesOf m)).ackWrite i p m key.isSome

/-- WRITE (R310, R333). -/
def execWriteMsg (port : Nat) (m : Msg) (s : State) : Host.Outcome State Fault Refusal :=
  .next (s.receive port M_WRITE m fun s =>
    match s.ownerOf (deviceOf m) with
    | none => s
    | some p => s.checked port p m (s.keyLanding port p m).isSome fun s => s.landWrite port p m)

/-! READ_REQ and READ_RESP. -/

/-- The poison map of bytes read (R273). -/
def State.poisonMapOf (s : State) (a len : Nat) : Nat :=
  ((List.range (ceilDiv len 64)).map fun i => if s.badIn (a + 64 * i) (min 64 (len - 64 * i)) then 2 ^ i else 0).sum

/-- An accepted READ_REQ (R310): the bytes are read and go back; a refused one is answered with no bytes (DESIGN CHOICE, log entry 35). -/
def State.serveRead (s : State) (p : Nat) (m : Msg) : State :=
  let a := deviceOf m
  if !s.mayReach p m a m.len then (s.refuseAccess p m).respond p m M_READ_RESP 0 []
  else if !s.reachable a m.len then s
  else
    let map := s.poisonMapOf a m.len
    let s1 := if s.faults.isEmpty then s else (codewordsIn a m.len).foldl (fun s cw => s.readCw cw 0 0xFFFF false) s
    s1.respond p m M_READ_RESP map (s.read a m.len)

/-- READ_REQ (R310, R333). -/
def execReadReqMsg (port : Nat) (m : Msg) (s : State) : Host.Outcome State Fault Refusal :=
  .next (s.receive port M_READ_REQ m fun s =>
    match s.ownerOf (deviceOf m) with
    | none => s
    | some p => s.checked port p m false fun s => s.serveRead p m)

/-- A held access sent (R323): a BAR2 read that no port takes waits for its time limit, which runs from its arrival. -/
def State.sendHeld (s : State) (h : BridgeHeld) : State :=
  let m := h.msg
  let reads := m.mtype = M_READ_REQ
  let (s1, r) := s.send h.fn none m.dstEp m.mtype 0 m.addr m.len 0 m.data
  let await := fun (id port : Nat) => { s1 with bridgeReqs := s1.bridgeReqs ++ [⟨id, h.fn, h.member, port, false, decide reads,
    if reads then m.len else 8, h.time⟩] }
  match r with
  | some (id, i) => if m.mtype = M_REG ∧ m.data ≠ [] then s1 else await id i
  | none => if reads then s1.emit (.completerAbort h.fn) else if m.data = [] then await h.id 0xFFFF else s1

/-- The accesses that R323 holds, sent once no earlier aperture write of their function to their member is unacknowledged. -/
def State.releaseHeld (s : State) : State :=
  let blocked := fun (h : BridgeHeld) => s.bridgeReqs.any fun r => r.fn == h.fn && r.member == h.member && r.isWrite && r.aperture
  (s.bridgeHeld.filter fun h => !blocked h).foldl State.sendHeld { s with bridgeHeld := s.bridgeHeld.filter blocked }

/-- The bytes that a host read receives, with the poison mark of R273 where any are poisoned (R269). -/
def State.hostData (s : State) (fn : Nat) (bytes : List Byte) (map : Nat) : State :=
  s.emit (if map = 0 then .readData (.reg fn) bytes else .readPoisoned (.reg fn) bytes map)

/-- READ_RESP (R310): the bytes go to the host read that asked for them; an answer of no bytes is a refusal (R322). -/
def execReadRespMsg (port : Nat) (m : Msg) (s : State) : Host.Outcome State Fault Refusal :=
  .next (s.receive port M_READ_RESP m fun s =>
    match s.bridgeReqs.find? fun r => r.msgId == m.msgId && r.aperture && !r.isWrite with
    | none => s
    | some q => s.checked port q.fn m false fun s =>
        let s1 := { s with bridgeReqs := s.bridgeReqs.filter fun r => r != q }
        if m.data = [] then ((s1.log q.fn (mkEvent 0x4E q.member 4)).emit (.completerAbort q.fn)).bridgeEvent q.fn
        else s1.hostData q.fn (m.data.take q.bytes) (m.poisonMap % 2 ^ ceilDiv q.bytes 64))

/-! ATOMIC and ATOMIC_RESP. -/

/-- Whether the elements of an atomic lie at their alignment (Table 10.6). -/
def atomicAligned (kind a : Nat) : Bool :=
  match kind with | 1 => decide (a % 8 = 0) | 3 => decide (a % 192 % 24 = 0) | _ => decide (a % 4 = 0)

/-- An accepted ATOMIC (R263): each addend is one add, in order, and the values found go back. -/
def State.serveAtomic (s : State) (p : Nat) (m : Msg) : State :=
  let kind := m.mflags % 4
  let w := atomicWidth kind
  let n := m.data.length / w
  let a := deviceOf m
  if !atomicAligned kind a || !s.mayReach p m a (n * w) then s.refuseAccess p m
  else if !s.reachable a (n * w) then s
  else
    let bad := fun (map off : Nat) => map.testBit (off / 64) || map.testBit ((off + w - 1) / 64)
    let (s1, found, map) := (List.range n).foldl (fun (acc : State × List Byte × List Nat) i =>
      let y := leNat ((m.data.drop (w * i)).take w)
      let (s2, x, b) := acc.1.atomicElt kind (a + w * i) y (bad m.poisonMap (w * i))
      (s2, acc.2.1 ++ toLe w x, if b then setIns (setIns acc.2.2 (w * i / 64)) ((w * i + w - 1) / 64) else acc.2.2)) (s, [], [])
    s1.respond p m M_ATOMIC_RESP (map.map fun i => 2 ^ i).sum found

/-- ATOMIC (R263, R310, R333). -/
def execAtomicMsg (port : Nat) (m : Msg) (s : State) : Host.Outcome State Fault Refusal :=
  .next (s.receive port M_ATOMIC m fun s =>
    match s.ownerOf (deviceOf m) with
    | none => s
    | some p => s.checked port p m false fun s => s.serveAtomic p m)

/-- ATOMIC_RESP (R310): nothing in this model asks another module for an atomic, so the values have no requester; the message leaves its
stream (DEDUCED, log entry 35). -/
def execAtomicRespMsg (port : Nat) (m : Msg) (s : State) : Host.Outcome State Fault Refusal :=
  .next (s.receive port M_ATOMIC_RESP m fun s => s)

/-! WRITE_ACK. -/

/-- The packet that awaits the acknowledgement of a message. -/
def State.ackOwner (s : State) (id : Nat) : Option PacketRef :=
  (s.partList.findSome? fun p => ((s.part p).packets.find? fun k => match k.remote with
    | some r => r.unacked.any fun u => u.2.1 == id
    | none => false).map fun k => k.ref p)

/-- WRITE_ACK (R310): the write is acknowledged to its packet, which goes on, or to the bridge, which sends what R323 holds. -/
def execWriteAckMsg (port : Nat) (m : Msg) (s : State) : Host.Outcome State Fault Refusal :=
  .next (s.receive port M_WRITE_ACK m fun s =>
    match s.bridgeReqs.find? fun r => r.msgId == m.msgId && r.isWrite with
    | some q => s.checked port q.fn m false fun s => { s with bridgeReqs := s.bridgeReqs.filter fun r => r != q }.releaseHeld
    | none =>
      match s.ackOwner m.msgId with
      | none => s
      | some ref =>
        match s.packet ref with
        | none => s
        | some k => s.checked port ref.part m (k.hdr.opcode == 0x0B02) fun s =>
            (s.setPacket ref.part { k with remote := k.remote.map fun r =>
              { r with unacked := r.unacked.filter fun u => u.2.1 != m.msgId } }).goOn ref)

/-! CONTROL. -/

/-- The packet of a partition that a control message matches (R331). -/
def State.matching (s : State) (p : Nat) (c : Control) : Option Packet :=
  (s.part p).packets.find? fun k =>
    k.hdr.opcode == c.opcode
      && (match k.remote, k.snap with
          | some r, some sn => r.ghash == c.ghash && (if c.opcode = 0x0B02 then 0 else fieldAt sn.params 8 4) == c.ctag
          | _, _ => false)
      && k.phase != .finished && k.phase != .recordHeld

/-- A control message that matches no packet is kept in the early table, or dropped when it is full (R331). -/
def State.keepEarly (s : State) (p : Nat) (m : Msg) (c : Control) : State :=
  s.modPart p fun pt =>
    if pt.early.length < 1024 then
      { pt with early := pt.early ++ [⟨c.kind, c.srcPart, m.srcEp, c.round, c.opcode, c.ctag, c.srcRank, c.ghash, c.arg0, c.arg1,
          c.arg2, c.arg3, s.mclk⟩] }
    else { pt with earlyDrops := satAdd (2 ^ 64 - 1) pt.earlyDrops 1 }

/-- A READY, DONE or ARRIVE that is accepted (R331, R340, R352). -/
def State.controlArrived (s : State) (p : Nat) (m : Msg) (c : Control) : State :=
  match s.matching p c with
  | none => s.keepEarly p m c
  | some k =>
    let ref := k.ref p
    if c.kind = 2 then (s.landDone ref c.srcRank c.round).goOn ref
    else
      let since := match k.snap with | some sn => sn.time | none => s.mclk
      let e : EarlyMsg := ⟨c.kind, c.srcPart, m.srcEp, c.round, c.opcode, c.ctag, c.srcRank, c.ghash, c.arg0, c.arg1, c.arg2, c.arg3, s.mclk⟩
      ((s.setPacket p { k with remote := k.remote.map fun r => r.take e }).lateness p m.srcEp (usBetween since s.mclk)).goOn ref

/-- A CONTROL message of a kind: `f` acts on its payload. The firmware reads it, so that nothing happens in the fatal state (R412). -/
def State.control (s : State) (i kind : Nat) (m : Msg) (f : Control → State → State) : State :=
  let c := Control.parse m.data
  if c.kind ≠ kind ∨ s.fatal = true then s else s.receive i M_CONTROL m (f c)

/-- A control message of a collective, with its epoch check. -/
def State.collective (s : State) (i kind : Nat) (m : Msg) : State :=
  s.control i kind m fun c s => s.checked i c.dstPart m (c.opcode == 0x0B02) fun s => s.controlArrived c.dstPart m c

/-- READY (R331). -/
def execReadyMsg (port : Nat) (m : Msg) (s : State) : Host.Outcome State Fault Refusal := .next (s.collective port 1 m)

/-- DONE (R331). -/
def execDoneMsg (port : Nat) (m : Msg) (s : State) : Host.Outcome State Fault Refusal := .next (s.collective port 2 m)

/-- ARRIVE (R352). -/
def execArriveMsg (port : Nat) (m : Msg) (s : State) : Host.Outcome State Fault Refusal := .next (s.collective port 3 m)

/-- Whether a confidential partition takes a message over a port (R433). -/
def State.takesOver (s : State) (i p : Nat) : Bool := !(s.part p).confidential || (s.port i).keys.isSome

/-- HEARTBEAT (R338): the loss timer of its sender restarts and it is lost no longer (DEDUCED, log entry 99); one from outside the membership is ignored. -/
def execHeartbeatMsg (port : Nat) (m : Msg) (s : State) : Host.Outcome State Fault Refusal :=
  .next (s.control port 4 m fun c s =>
    if s.isPart c.dstPart && (s.part c.dstPart).members.contains m.srcEp then
      s.modPart c.dstPart fun pt => { pt with heartbeats := Tbl.set 0 pt.heartbeats m.srcEp s.mclk, lost := pt.lost.filter (· ≠ m.srcEp) }
    else s)

/-- What a STALE notice does to one partition (R334). -/
def State.quarantine (s : State) (p : Nat) (m : Msg) (c : Control) : State :=
  let pt := s.part p
  if pt.members.contains m.srcEp && decide (pt.epoch = c.arg0 ∧ pt.epoch < c.arg1) && !pt.quarantined then
    let s1 := (s.modPart p fun pt => { pt with quarantined := true }).log p (mkEvent 0x48 m.srcEp 0)
    ((s1.setSummary p 7).endAwaiting p ERR_EPOCH).1
  else s

/-- STALE (R334). -/
def execStaleMsg (port : Nat) (m : Msg) (s : State) : Host.Outcome State Fault Refusal :=
  .next (s.control port 5 m fun c s => s.partList.foldl (fun s p => if s.takesOver port p then s.quarantine p m c else s.dropMsg port) s)

/-- LOST (R338): the packets that await the lost endpoint end; one from outside the membership is ignored. -/
def execLostMsg (port : Nat) (m : Msg) (s : State) : Host.Outcome State Fault Refusal :=
  .next (s.control port 6 m fun c s =>
    if !s.isPart c.dstPart then s
    else if !s.takesOver port c.dstPart then s.dropMsg port
    else if (s.part c.dstPart).members.contains m.srcEp then s.loseEndpoint c.dstPart c.arg0 else s)

/-- NOTIFY (R325): taken by the bridge from a member of its group, and dropped anywhere else. -/
def execNotifyMsg (port : Nat) (m : Msg) (s : State) : Host.Outcome State Fault Refusal :=
  .next (s.control port 7 m fun c s =>
    if s.isBridge && s.board.group.contains m.srcEp && decide (c.srcPart < 4) then
      s.raiseMsix (s.lowQ c.srcPart) (1 + c.arg0 % 2 ^ 64 % 63)
    else s.dropMsg port)

end Sys2Proof.Machine
end

