-- ==== Sys2Proof/Machine/Rings.lean ====
section
/-! DEFINITION. Rings: doorbells (R26, R379, R435, R461), the fetch of a slot (R27), issue (R34), completion (R40), and ring service
(R44, R46, R293). -/

namespace Sys2Proof.Machine

/-! Doorbells. -/

/-- Whether a path can bring an access (R320, R471): SMBus reaches registers once AON is up; a host needs the endpoint, whose PCLK may
be lost, and a REG message the fabric. -/
def State.pathUp (s : State) (path : Path) : Bool :=
  match path with
  | .bar0 _ => s.mainUp && !s.tripped && !s.board.xLanug && !s.clocksLost.contains 40
  | .reg _ => s.mainUp && !s.tripped
  | .smbus => s.aonUp

/-- Whether a register access by a path reaches a quarter's window (R321, R322): BAR0 of a function maps the quarters of its partition. -/
def State.pathReaches (s : State) (path : Path) (q : Nat) : Bool :=
  decide (q < 4) && s.pathUp path && (match path with | .bar0 fn => s.isPart fn && s.lowQ q == fn | _ => true)

/-- The partition and the ring of doorbell `k` of a quarter's window (R379). -/
def State.doorbellRing (s : State) (quarter k : Nat) : Nat × Nat := (s.lowQ quarter, 64 * (quarter - s.lowQ quarter) + k)

/-- A doorbell write on a ring (R26): it sets the ring tail and the completion head, or is ignored and flagged. -/
def State.ringDoorbell (s : State) (p ring : Nat) (data : Word) : State :=
  let r := (s.part p).ring ring
  let tail := data.toNat % 2 ^ 32
  let cqh := data.toNat / 2 ^ 32
  let good := match r.binding with
    | some b => decide ((tail + 2 ^ 32 - r.head) % 2 ^ 32 ≤ 2 ^ b.ringLog2
        ∧ (cqh + 2 ^ 32 - r.cqHead) % 2 ^ 32 ≤ (r.cqTail + 2 ^ 32 - r.cqHead) % 2 ^ 32)
    | none => false
  if good then
    let s1 := s.modRing p ring fun r => { r with tail := tail, cqHead := cqh, stopped := false }
    if s.fatal then s1 else s1.flush p ring
  else s.markRing 0 (ringWindow p ring).1 (ringWindow p ring).2

/-- A doorbell write to a partition in ACTIVE (R26, R431, R435). -/
def State.doorbell (s : State) (p ring : Nat) (data : Word) : State :=
  match (s.part p).servedBy ring with
  | some q => s.bounceDoorbell p ring q data
  | none =>
    if (s.part p).confidential && (s.part p).host.keysSet then s.markRing 0 (ringWindow p ring).1 (ringWindow p ring).2
    else s.ringDoorbell p ring data

/-- A doorbell write with the wake that R461 gives it: from QUIESCE it then takes effect, from STANDBY it is discarded and flagged. -/
def State.doorbellAccess (s : State) (quarter k : Nat) (data : Word) : State :=
  let (p, ring) := s.doorbellRing quarter k
  match (s.part p).pstate with
  | .standby => (s.wake p).markRing 0 quarter k
  | .quiesce => (s.wake p).doorbell p ring data
  | _ => s.doorbell p ring data

/-- DOORBELL_WRITE (R26). -/
def execDoorbellWrite (path : Path) (quarter k : Nat) (data : Word) (s : State) : Host.Outcome State Fault Refusal :=
  if s.pathReaches path quarter && decide (k < 64) then .next (s.doorbellAccess quarter k data) else .next s

/-- BOUNCE_DOORBELL_WRITE (R435): the same write where a bound queue gives the doorbell its meaning. -/
def execBounceDoorbellWrite (path : Path) (quarter k : Nat) (data : Word) (s : State) : Host.Outcome State Fault Refusal :=
  let (p, ring) := s.doorbellRing quarter k
  if s.pathReaches path quarter && decide (k < 64) && ((s.part p).servedBy ring).isSome then
    .next (s.doorbellAccess quarter k data)
  else .next s

/-! The fetch of a slot (R27). -/

/-- The address of slot `i` of a ring. -/
def Binding.slotAddr (b : Binding) (i : Nat) : Nat := b.base + 256 * (i % 2 ^ b.ringLog2)

/-- Whether a ring may fetch its next slot: bound, with a slot between its head and its tail, not stopped, and no RING_BIND of it waiting
(R27, R29). -/
def State.mayFetch (s : State) (p ring : Nat) : Bool :=
  let r := (s.part p).ring ring
  s.isPart p && !s.fatal && r.binding.isSome && !r.stopped && r.fetched.isNone && r.head != r.tail && !s.rebinding p ring

/-- SLOT_FETCH (R27): a slot whose header reads as bad, or whose SEQ is not its index, stops the ring. -/
def execSlotFetch (part ring : Nat) (s : State) : Host.Outcome State Fault Refusal :=
  let r := (s.part part).ring ring
  match r.binding with
  | none => .next s
  | some b =>
    let a := b.slotAddr r.head
    if s.mayFetch part ring && s.reachable a 256 then
      let bad := !(s.badOf a 64).isEmpty
      let seq := s.readNat (a + 4) 4
      if bad || seq != r.head then .next ((s.readEffects a 64 0 ring).stopRing 1 part ring)
      else
        let f : Fetched := ⟨s.read a 256, s.badOf (a + 64) 192⟩
        let status := if (Header.parse f.bytes).flag 0 then statusOf (f.inlineBad.map BadRead.code) else OK
        .next ((s.readEffects a 256 status ring).modRing part ring fun r => { r with fetched := some f })
    else .next s

/-! Issue (R34). -/

/-- Whether a wait is met: a counter that fails R33 counts as met. -/
def State.waitMet (s : State) (p : Nat) (enabled : Bool) (ctr val : Nat) : Bool :=
  !enabled || decide (4096 * s.quartersPer ≤ ctr) || decide (val ≤ Tbl.get 0 (s.part p).counters ctr)

/-- Whether the packet at a ring's head may issue (R28, R34, R460). -/
def State.mayIssue (s : State) (p ring : Nat) (h : Header) : Bool :=
  let pt := s.part p
  let r := pt.ring ring
  let mine := pt.packets.filter fun k => k.ring == ring
  s.isPart p && !s.fatal && !r.stopped && pt.pstate == .active && decide (mine.length < 64) && r.cqRoom
    && !(mine.any fun k => k.phase == .recordHeld) && (!h.flag 4 || mine.isEmpty) && !s.rebinding p ring
    && s.waitMet p (h.flag 1) h.wait0Ctr h.wait0Val && s.waitMet p (h.flag 2) h.wait1Ctr h.wait1Val

/-- A packet as it issues. -/
def Packet.issued (ring idx : Nat) (cls : StreamClass) (f : Fetched) : Packet :=
  { ring := ring, idx := idx, cls := cls, hdr := Header.parse f.bytes, inlineArea := f.bytes.drop 64, inlineBad := f.inlineBad,
    phase := .ready, snap := none, clamps := [], refs := [], pool := [], combine := [], remote := none, work := [], res := Result.empty,
    aborted := false }

/-- PACKET_ISSUE (R34): the packet leaves the ring head and goes as far as it can. -/
def execPacketIssue (part ring : Nat) (s : State) : Host.Outcome State Fault Refusal :=
  let r := (s.part part).ring ring
  match r.fetched, r.binding with
  | some f, some b =>
    let k := Packet.issued ring r.head b.cls f
    if s.mayIssue part ring k.hdr then
      let s1 := s.modPart part fun pt =>
        { pt.modRing ring (fun r => { r with head := (r.head + 1) % 2 ^ 32, fetched := none }) with packets := pt.packets ++ [k] }
      .next (s1.takeUp part k)
    else .next s
  | _, _ => .next s

/-! Completion. -/

/-- PACKET_COMPLETE (R40); the packets whose hold may end with it, and has no row of its own, try again. -/
def execPacketComplete (p : PacketRef) (s : State) : Host.Outcome State Fault Refusal :=
  match s.packet p with
  | none => .next s
  | some k =>
    if k.phase = .finished ∧ s.fatal = false then .next ((s.complete p.part k).retryWhere p.part Packet.heldOther) else .next s

/-! Ring service (R44, R46, R293). -/

/-- Whether a ring is served on another unit of a kind of which a packet takes one: a DECODE runs on one core (R354). -/
def Part.servedElsewhere (pt : Part) (res : Resource) (ring : Nat) : Bool :=
  match res with
  | .core n => pt.progress.any fun x => x.2.1 == ring && (match x.1 with | .core m => m != n | _ => false)
  | _ => false

/-- The rings of a partition that request a resource: those with a packet at work on it. -/
def Part.requesters (pt : Part) (res : Resource) : List Nat :=
  sortBy (· < ·) (dedupNat ((pt.packets.filter fun k =>
    k.phase != .finished && k.uses res && !pt.servedElsewhere res k.ring).map (·.ring)))

/-- The rings that request a resource and are not masked. -/
def Part.contenders (pt : Part) (res : Resource) : List Nat := (pt.requesters res).filter fun r => !(pt.ring r).masked

/-- A QUOTA window that has ended: counts and masks clear (R46). -/
def Part.closeWindow (pt : Part) : Part :=
  if pt.window < 256 then pt
  else { pt with window := 0, rings := pt.rings.map fun e => (e.1, { e.2 with granted := 0, masked := false }) }

/-- The wait limit of a ring (R28). -/
def Ring.limit (r : Ring) : Nat := match r.binding with | some b => b.waitLimit | none => 1023

/-- The progress of a ring on a resource after a grant of some units. -/
def Part.progressed (pt : Part) (res : Resource) (ring units : Nat) (done : Bool) : Part :=
  let here := fun (x : Resource × Nat × Nat) => x.1 == res && x.2.1 == ring
  let old := ((pt.progress.find? here).map (·.2.2)).getD 0
  let rest := pt.progress.filter fun x => !here x
  { pt with progress := if done then rest else rest ++ [(res, ring, old + units)] }

/-- One grant to a ring among the contenders (R293): the others count a lost grant, a QUOTA ring counts towards its mask, and the window
advances. -/
def Part.grant (pt : Part) (cs : List Nat) (w : Nat) : Part :=
  let pt1 := cs.foldl (fun pt i =>
    pt.modRing i fun r => { r with wait := if i = w then 0 else min (r.wait + 1) r.limit }) pt
  let pt2 := pt1.modRing w fun r =>
    match r.binding with
    | some b => if b.quota then { r with granted := r.granted + 1, masked := decide (b.quotaGrants ≤ r.granted + 1) } else r
    | none => r
  { pt2 with window := pt2.window + 1 }

/-- The bank of an array after some passes of a packet (R109): the tile that the last of them runs, and its windows so far. -/
def Ctx.bankAfter (c : Ctx) (array passes : Nat) : Option AccBank :=
  let j := c.job
  let l := j.leaves.findIdx (· == array)
  let all := (j.runs (j.divide c.s.faultyArrays) l).flatMap fun w => w.2.map fun x => (w.1, x)
  let done := all.take passes
  done.getLast?.map fun w =>
    ⟨c.p, c.pkt.ring, c.pkt.idx, w.1.tile, j.windows w.1 ((done.filter fun x => x.1 == w.1).map (·.2))⟩

/-- The accumulator buffer of an array at a grant of some passes to a ring (R44, R110): the banks of other rings of the partition that have not
done their work spill, and the winner's tile is restored or goes on in a bank of its own. -/
def State.bankGrant (s : State) (p array w : Nat) : State :=
  let pt := s.part p
  let held := Tbl.get [] s.banks array
  let mine := fun (b : AccBank) => b.part == p && b.ring == w
  let loses := fun (b : AccBank) =>
    b.part == p && b.ring != w && pt.progress.any fun x => x.1 == .array array && x.2.1 == b.ring
  let units := ((pt.progress.find? fun x => x.1 == .array array && x.2.1 == w).map (·.2.2)).getD 0
  let k := pt.packets.find? fun k => k.ring == w && k.phase != .finished && k.uses (.array array)
  let bank := (k.bind (s.ctx p)).bind fun c => c.bankAfter array units
  let banks := bank.toList ++ held.filter fun b => !mine b && !loses b
  { s.modPart p fun pt => { pt with
      spilled := pt.spilled.filter (fun x => !(x.1 == array && mine x.2)) ++ (held.filter loses).map fun b => (array, b) } with
    banks := Tbl.set [] s.banks array (banks.take 2) }

/-- RING_SERVICE_GRANT (R44, R293): the arbiter runs at a grant boundary of a resource of the partition. A bench in the way of a granted
array is switched on (R448). Grants order the use of resources and keep the progress of losers; the command of an opcode carries out the
whole work of its packet, for no grant changes a result bit (R45; DESIGN CHOICE, log entry 96). -/
def execRingServiceGrant (part : Nat) (res : Resource) (units : Nat) (jobDone : Bool) (s : State) : Host.Outcome State Fault Refusal :=
  if !s.isPart part || s.fatal || !s.ownsResource part res then .next s
  else
    let pt := (s.part part).closeWindow
    let cs := pt.contenders res
    match arbiterWinner cs (fun r => (pt.ring r).wait) (fun r => (pt.ring r).limit) with
    | none => .next s
    | some w =>
      let s1 := s.modPart part fun _ => (pt.grant cs w).progressed res w units jobDone
      .next (match res with
        | .array n => (s1.bankGrant part n w).wakeBenches [n]
        | .vector n => s1.wakeBenches [n]
        | _ => s1)

/-- EMPTY_GRANT (R46): every requester of a free resource is masked, and the window advances. -/
def execEmptyGrant (part : Nat) (res : Resource) (s : State) : Host.Outcome State Fault Refusal :=
  if !s.isPart part || s.fatal || !s.ownsResource part res then .next s
  else
    let pt := (s.part part).closeWindow
    if (pt.requesters res).isEmpty || !(pt.contenders res).isEmpty then .next s
    else .next (s.modPart part fun _ => { pt with window := pt.window + 1 })

/-- QUOTA_WINDOW_END (R46): after 256 grant steps every grant count and mask clears. -/
def execQuotaWindowEnd (part : Nat) (s : State) : Host.Outcome State Fault Refusal := .next (s.modPart part Part.closeWindow)

end Sys2Proof.Machine
end

