-- ==== Sys2Proof/Machine/Registers.lean ====
section
/-! DEFINITION. Register accesses (chapter 16): the decoding of a window's addresses (R376), every register's read and write (Tables 16.1 to
16.8), the wide-value mailbox (R383, R384), reset requests (R390, R456), bad accesses (R373, R374), and the messages REG and REG_RESP. -/

namespace Sys2Proof.Machine

/-- The block and the quadword that an offset decodes to (R376). -/
def regDecode (offset : Nat) : Nat × Nat :=
  let b := offset / 4096 % 8
  (if b = 7 then 6 else b, offset / 8 % 64)

/-- PATH of a bad access (Table 16.3). -/
def pathCode : Path → Nat
  | .bar0 _ => 0 | .reg _ => 1 | .smbus => 2

/-- A bad access recorded in a window (Table 16.3). -/
def State.badAccess (s : State) (win : Nat) (path : Path) (write : Bool) (offset : Nat) : State :=
  s.modWindow win fun w =>
    { w with badCount := satAdd 0xFFFF w.badCount 1, badWrite := write, badPath := pathCode path, badOffset := offset % 65536 }.setSummary 3

/-! Reads. -/

/-- Whether a half is powered with its NCLK running (Table 16.2). -/
def State.halfUp (s : State) (h : Nat) : Bool :=
  s.mainUp && !s.tripped && !s.clocksLost.contains (2 + h) && !(s.quarterOff (2 * h) && s.quarterOff (2 * h + 1))

/-- FAULT_N (R412, R446, R454). -/
def State.faultN (s : State) : Bool := s.fatal || s.tripped || s.converterFault

/-- ALERT_N (R381): some window holds a SUMMARY bit that its ALERT_EN enables. -/
def State.alertN (s : State) : Bool := s.windows.any fun w => decide (w.summary &&& w.alertEn ≠ 0)

/-- A bit at a place. -/
def bitAt (b : Bool) (n : Nat) : Nat := if b then 2 ^ n else 0

/-- READY of a window (R378, R388): the partition's, or in the device window that of every partition. -/
def State.winReady (s : State) (win : Nat) : Bool :=
  s.ready && (if win = 4 then s.partList.all fun p => (s.part p).ready else (s.part (s.lowQ win)).ready)

/-- Block 0x0000 (Table 16.2). -/
def State.identReg (s : State) (win quad : Nat) : Nat :=
  let p := s.lowQ win
  let ps := if win = 4 then s.partList else [p]
  match quad with
  | 0 => 0x4A40 * 2 ^ 48 + s.stepping % 256 * 2 ^ 40 + 2 ^ 32
  | 1 =>
    if win = 4 then s.quartersPer * 16
    else bitAt (s.part p).confidential 12 + ((s.quarters p).map fun q => 2 ^ q).sum * 256 + s.quartersPer * 16 + p * 4 + win
  | 2 =>
    bitAt s.faultN 5 + bitAt (ps.any fun p => !(s.part p).log.isEmpty) 4 + bitAt (ps.any fun p => (s.part p).quarantined) 3
      + bitAt (s.halfUp 1) 2 + bitAt (s.halfUp 0) 1 + bitAt (s.winReady win) 0
  | 3 => s.mclk
  | 4 => (s.window win).scratch.toNat
  | 5 => (s.window win).scratchS.toNat
  | _ => 0

/-- The doorbell of a quarter window read (R26, R379). -/
def State.doorbellRead (s : State) (quarter k : Nat) : Nat :=
  let (p, ring) := s.doorbellRing quarter k
  let r := (s.part p).ring ring
  r.head + r.cqTail * 2 ^ 32

/-- Block 0x2000 (Table 16.3). -/
def State.errorReg (s : State) (win quad : Nat) : Nat :=
  let w := s.window win
  let pt := s.part (s.lowQ win)
  match quad with
  | 0 => w.summary.toNat
  | 1 => w.dbReject.toNat
  | 2 => w.seqStop.toNat
  | 3 => w.haltStop.toNat
  | 4 => w.badCount * 2 ^ 32 + bitAt w.badWrite 20 + w.badPath * 2 ^ 16 + w.badOffset
  | 5 => if win = 4 then 0 else pt.logSeq % 2 ^ 32 * 2 ^ 32 + min pt.logLost 0xFFFF * 2 ^ 16 + pt.log.length
  | 6 => w.alertEn.toNat
  | _ => 0

/-- Block 0x3000 (Table 16.4): while VALID is clear the data read zero. -/
def Window.mailReg (w : Window) (quad : Nat) : Nat :=
  if quad = 0 then w.wideSel.toNat
  else if quad = 1 then w.wideTag * 2 ^ 56 + w.wideLen * 16 + bitAt w.wideBad 1 + bitAt w.wideValid 0
  else if quad < 6 then (if w.wideValid then (w.wideData[quad - 2]?.getD 0).toNat else 0)
  else 0

/-- The port of a slot of a quarter window (R386). -/
def slotPort (win slot : Nat) : Nat := if slot < 4 then 4 * win + slot else 16 + win

/-- Block 0x5000 (Table 16.7). -/
def State.linkReg (s : State) (win quad : Nat) : Nat :=
  if win = 4 ∨ 40 ≤ quad then 0
  else
    let p := s.port (slotPort win (quad / 8))
    match quad % 8 with
    | 0 => p.stateCopy.toNat
    | 1 => min p.downs.copy 0xFFFFFFFF * 2 ^ 32 + min p.retrains.copy 0xFFFFFFFF
    | 2 => min p.replays.copy (2 ^ 64 - 1)
    | 3 => min p.msgDrops.copy (2 ^ 64 - 1)
    | 4 => min p.tagFails.copy (2 ^ 64 - 1)
    | _ => 0

/-- Block 0x6000 (Table 16.8). -/
def State.bootReg (s : State) (win quad : Nat) : Nat :=
  let w := s.window win
  let pt := s.part (s.lowQ win)
  if quad = 0 then
    s.bootMs * 2 ^ 32 + bitAt w.ringDefault 9 + bitAt s.configDefault 8 + s.bootStage * 16 + bitAt (s.winReady win) 0
  else if win = 4 then 0
  else
    match quad with
    | 1 => w.bootRingBase.toNat
    | 2 => w.bootCqBase.toNat
    | 3 => w.bootSizes.toNat
    | 4 => bitAt s.jtagOpen 3 + bitAt s.debugUnlocked 2 + bitAt pt.host.keysSet 1 + bitAt pt.confidential 0
    | _ => 0

/-- The value of a register (Tables 16.2 to 16.8). -/
def State.regValue (s : State) (win offset : Nat) : Word :=
  let (b, quad) := regDecode offset
  BitVec.ofNat 64 (match b with
    | 0 => s.identReg win quad
    | 1 => if win = 4 then 0 else s.doorbellRead win quad
    | 2 => s.errorReg win quad
    | 3 => (s.window win).mailReg quad
    | 4 => (s.slowPower[quad]?.getD 0).toNat
    | 5 => s.linkReg win quad
    | _ => s.bootReg win quad)

/-- A read of a link-event counter marks what it returned for the next handshake (R387). -/
def EventCount.readBack (e : EventCount) : EventCount := { e with subtract := e.copy }

/-- What a read clears (R381, R387). -/
def State.readClears (s : State) (win offset : Nat) : State :=
  let (b, quad) := regDecode offset
  if b = 2 then
    s.modWindow win fun w =>
      match quad with
      | 0 => { w with summary := 0 }
      | 1 => { w with dbReject := 0 }
      | 2 => { w with seqStop := 0 }
      | 3 => { w with haltStop := 0 }
      | 4 => { w with badCount := 0, badWrite := false, badPath := 0, badOffset := 0 }
      | _ => w
  else if b = 5 ∧ win ≠ 4 ∧ quad < 40 then
    s.modPort (slotPort win (quad / 8)) fun p =>
      match quad % 8 with
      | 1 => { p with downs := p.downs.readBack, retrains := p.retrains.readBack }
      | 2 => { p with replays := p.replays.readBack }
      | 3 => { p with msgDrops := p.msgDrops.readBack }
      | 4 => { p with tagFails := p.tagFails.readBack }
      | _ => p
  else s

/-- A read of a whole quadword of a window: the value and what it clears. Misaligned accesses and other sizes are bad accesses that read
as 0xFF (R374). -/
def State.regRead (s : State) (path : Path) (win offset size : Nat) : State × List Byte :=
  if size ≠ 8 ∨ offset % 8 ≠ 0 then (s.badAccess win path false offset, List.replicate size 0xFF)
  else (s.readClears win offset, toLe 8 (s.regValue win offset).toNat)

/-! Resets by register (R390, R456). -/

/-- The stream class of a code of Table 2.2. -/
def classOfCode : Nat → Option StreamClass
  | 0 => some .F | 1 => some .B | 2 => some .U | 3 => some .I | 4 => some .C | 5 => some .M | 6 => some .S | _ => none

/-- Whether a narrower reset of a partition is discarded (R456): a wider reset or a change of layout covers its scope. -/
def State.resetDiscarded (s : State) (p : Nat) : Bool := s.booting || s.changing p

/-- A STREAM reset requested (R51, R456); in the fatal state the halted controller acts on none. `none` tells that it is discarded. -/
def State.askStream (s : State) (p : Nat) (cls : StreamClass) : Option State :=
  if s.fatal then some s else if s.resetDiscarded p then none else some (s.streamReset p cls)

/-- A PARTITION reset requested (R455, R456). -/
def State.askPartition (s : State) (p : Nat) : Option State :=
  if s.fatal then some s else if s.resetDiscarded p then none else some (s.partitionReset p)

/-- A MODULE reset requested (R458): a COLD boot under way covers it. -/
def State.askModule (s : State) : Option State := if s.coldBooting then none else some s.moduleReset

/-- A write of RESET_REQ (R390): `none` tells that it is a bad access. -/
def State.resetRequest (s : State) (win v : Nat) : Option State :=
  if v / 2 ^ 32 ≠ 0xC1EA then none
  else
    match v % 8, decide (win = 4) with
    | 1, false => (classOfCode (v / 16 % 8)).bind fun c => s.askStream (s.lowQ win) c
    | 2, false => s.askPartition (s.lowQ win)
    | 3, true => s.askModule
    | _, _ => none

/-! Writes. -/

/-- Whether a path may write the device window (R373). -/
def State.mayWriteDevice (s : State) (path : Path) : Bool := path == .smbus || s.quartersPer == 4

/-- A write of WIDE_SEL (R383): it clears VALID and BAD_SEL at once. -/
def Window.select (w : Window) (v : Word) : Window :=
  { w with wideSel := v &&& 0xFF000001FFFFFFFF, wideTag := 0, wideLen := 0, wideBad := false, wideValid := false, widePending := true,
           wideData := [0, 0, 0, 0] }

/-- A write of a whole quadword that its path may make. -/
def State.regPut (s : State) (path : Path) (win offset : Nat) (v : Word) : State :=
  let (b, quad) := regDecode offset
  match b with
  | 0 =>
    if quad = 4 then s.modWindow win fun w => { w with scratch := v }
    else if quad = 5 then s.modWindow win fun w => { w with scratchS := v } else s
  | 1 => if win = 4 then s else s.doorbellAccess win quad v
  | 2 => if quad = 6 then s.modWindow win fun w => { w with alertEn := v.setWidth 10 } else s
  | 3 => if quad = 0 then s.modWindow win fun w => w.select v else s
  | 6 =>
    if quad = 5 then (s.resetRequest win v.toNat).getD (s.badAccess win path true offset)
    else if win = 4 then s
    else if quad = 1 then s.modWindow win fun w => { w with bootRingBase := v }
    else if quad = 2 then s.modWindow win fun w => { w with bootCqBase := v }
    else if quad = 3 then s.modWindow win fun w => { w with bootSizes := v.setWidth 16 }
    else s
  | _ => s

/-- Whether a write of a window is a bad access before anything else (R373, R374). -/
def State.writeRefused (s : State) (path : Path) (win offset size : Nat) : Bool :=
  decide (size ≠ 8 ∨ offset % 8 ≠ 0) || (win == 4 && !s.mayWriteDevice path)

/-- A write of a window by a path. -/
def State.regWrite (s : State) (path : Path) (win offset size : Nat) (v : Word) : State :=
  if s.writeRefused path win offset size then s.badAccess win path true offset else s.regPut path win offset v

/-- The window at which an access by a path arrives (R321): a function's BAR0 maps its partition's `k`-th quarter at slot `k`, and nothing at a slot
beyond the partition, for which 8 stands. Other paths name the window itself (log entry 111). -/
def State.windowOf (s : State) (path : Path) (win : Nat) : Nat :=
  match path with
  | .bar0 fn => if 4 ≤ win then win else if win < s.quartersPer then fn + win else 8
  | _ => win

/-- Whether a path reaches a window: its quarters, and the device window by every path (R373). -/
def State.reachesWindow (s : State) (path : Path) (win : Nat) : Bool :=
  if win = 4 then s.pathUp path && (match path with | .bar0 fn => s.isPart fn | _ => true) else s.pathReaches path win

/-! The MSI-X table and the unassigned offsets of BAR0 (R321, R324). -/

/-- A field of a MSI-X entry (PRESUMED, log entry 29): address low and high, data, vector control. -/
def msixField (e : Word × BitVec 32 × Bool) (k : Nat) : Nat :=
  match k with
  | 0 => e.1.toNat % 2 ^ 32 | 1 => e.1.toNat / 2 ^ 32 | 2 => e.2.1.toNat | _ => if e.2.2 then 1 else 0

/-- A MSI-X entry with one field written. -/
def msixPut (e : Word × BitVec 32 × Bool) (k v : Nat) : Word × BitVec 32 × Bool :=
  match k with
  | 0 => (BitVec.ofNat 64 (e.1.toNat / 2 ^ 32 * 2 ^ 32 + v % 2 ^ 32), e.2)
  | 1 => (BitVec.ofNat 64 (e.1.toNat % 2 ^ 32 + v % 2 ^ 32 * 2 ^ 32), e.2)
  | 2 => (e.1, BitVec.ofNat 32 v, e.2.2)
  | _ => (e.1, e.2.1, v.testBit 0)

/-- A vector's entry replaced; when it is unmasked with its pending bit set, one message is sent (R324). -/
def State.setMsix (s : State) (fn vector : Nat) (e : Word × BitVec 32 × Bool) : State :=
  let s1 := { s with msixTable := Tbl.set (0, 0, true) s.msixTable (fn * 64 + vector) e }
  if !e.2.2 && s1.msixPending.contains (fn, vector) then
    { s1 with msixPending := s1.msixPending.filter (· ≠ (fn, vector)) }.emit (.msix fn vector e.1 e.2.1)
  else s1

/-- Whether a BAR0 offset beyond the windows is assigned (R321): the MSI-X table and the PBA of the 64 KiB at 0x6_0000. -/
def bar0Assigned (unit offset size : Nat) : Bool :=
  unit == 6 && decide (offset + size ≤ 0x400 ∨ (0x1000 ≤ offset ∧ offset + size ≤ 0x1008))

/-- A BAR0 read beyond the windows. -/
def State.bar0Read (s : State) (fn unit offset size : Nat) : State × List Byte :=
  if !bar0Assigned unit offset size then (s.badAccess fn (.bar0 fn) false offset, List.replicate size 0)
  else if offset < 0x400 then
    let bytes := (List.range 64).flatMap fun v => (List.range 4).flatMap fun k => toLe 4 (msixField (s.msixEntry fn v) k)
    (s, (bytes.drop offset).take size)
  else
    let bits := ((List.range 64).map fun v => bitAt (s.msixPending.contains (fn, v)) v).sum
    (s, ((toLe 8 bits).drop (offset - 0x1000)).take size)

/-- A BAR0 write beyond the windows: the MSI-X table takes words of 4 or 8 bytes. -/
def State.bar0Write (s : State) (fn unit offset size v : Nat) : State :=
  if !bar0Assigned unit offset size then s.badAccess fn (.bar0 fn) true offset
  else if offset < 0x400 ∧ (size = 4 ∨ size = 8) ∧ offset % size = 0 then
    let n := offset / 16
    let k := offset / 4 % 4
    let e := msixPut (s.msixEntry fn n) k v
    s.setMsix fn n (if size = 8 then msixPut e (k + 1) (v / 2 ^ 32) else e)
  else s

/-! The register commands. -/

/-- REGISTER_WRITE (R377): a window's register by its access code. For BAR0, `win` is the 64 KiB unit of the BAR (R321): 0 to 3 a slot, 4 the device
window, 5 to 7 the units that no window fills. -/
def execRegisterWrite (path : Path) (win offset size : Nat) (data : Word) (s : State) : Host.Outcome State Fault Refusal :=
  if s.reachesWindow path (s.windowOf path win) then .next (s.regWrite path (s.windowOf path win) (offset % 65536) size data)
  else
    match path with
    | .bar0 fn =>
      if 5 ≤ win ∧ win < 8 ∧ (s.pathUp path && s.isPart fn) = true then .next (s.bar0Write fn win (offset % 65536) size data.toNat)
      else .next s
    | _ => .next s

/-- The bytes of a read put out on its path. -/
def State.answer (s : State) (path : Path) (r : State × List Byte) : State := if s.pathUp path then r.1.emit (.readData path r.2) else s

/-- A BAR0 read of a window slot beyond the function's partition: zero (R321). -/
def State.readBeyond (s : State) (path : Path) (win size : Nat) : State :=
  match path with
  | .bar0 fn => if win < 4 ∧ (s.pathUp path && s.isPart fn) = true then s.answer path (s, List.replicate size 0) else s
  | _ => s

/-- RC_REGISTER_READ (R381): the value, and its clear in the same action. -/
def execRcRegisterRead (path : Path) (win offset : Nat) (s : State) : Host.Outcome State Fault Refusal :=
  if s.reachesWindow path (s.windowOf path win) then .next (s.answer path (s.regRead path (s.windowOf path win) (offset % 65536) 8)) else .next (s.readBeyond path win 8)

/-- LINK_COUNTER_READ (R387, R321): the slow copy, which the next handshake subtracts. -/
def execLinkCounterRead (path : Path) (win offset : Nat) (s : State) : Host.Outcome State Fault Refusal :=
  if (regDecode offset).1 ≠ 5 then .next s
  else if s.reachesWindow path (s.windowOf path win) then .next (s.answer path (s.regRead path (s.windowOf path win) (offset % 65536) 8))
  else .next (s.readBeyond path win 8)

/-- BAD_ACCESS_READ (R374, R321): a read that is misaligned or of another size than a quadword, or that hits an offset which BAR0 does not
assign. -/
def execBadAccessRead (path : Path) (win offset size : Nat) (s : State) : Host.Outcome State Fault Refusal :=
  if s.reachesWindow path (s.windowOf path win) then .next (s.answer path (s.regRead path (s.windowOf path win) (offset % 65536) size))
  else
    match path with
    | .bar0 fn =>
      if 5 ≤ win ∧ win < 8 ∧ (s.pathUp path && s.isPart fn) = true then .next (s.answer path (s.bar0Read fn win (offset % 65536) size))
      else .next (s.readBeyond path win size)
    | _ => .next s

/-- WIDE_SEL_WRITE (R383). -/
def execWideSelWrite (path : Path) (win : Nat) (data : Word) (s : State) : Host.Outcome State Fault Refusal :=
  if s.reachesWindow path (s.windowOf path win) then .next (s.regWrite path (s.windowOf path win) 0x3000 8 data) else .next s

/-- A wide item (Table 16.5): its value and width, and the state once it is cleared; `none` names no item readable in the window. -/
def State.wideItem (s : State) (win item index : Nat) (clear : Bool) : Option (State × Nat × Nat) :=
  let p := s.lowQ win
  let pt := s.part p
  match item with
  | 0x0001 => if index = 0 then some (s, s.serial, 128) else none
  | 0x0002 => if index = 0 then some (s, leNat s.romMeasure, 256) else none
  | 0x0003 => if index = 0 ∧ win ≠ 4 then some (s, leNat pt.nonce, 256) else none
  | 0x0004 =>
    if index = 0 ∧ win ≠ 4 then
      let digest := if pt.members.isEmpty then 0 else digest8 (pt.members.flatMap (toLe 2))
      some (s, digest * 2 ^ 64 + pt.epochState, 128)
    else none
  | 0x0010 =>
    if win ≠ 4 ∧ 1 ≤ index ∧ index ≤ 0xFF then
      let s1 := if clear then s.modPart p fun pt => { pt with errTotals := Tbl.set 0 pt.errTotals index 0 } else s
      some (s1, Tbl.get 0 pt.errTotals index, 96)
    else none
  | 0x0011 =>
    if win ≠ 4 ∧ index < 20 ∧ quarterOfPort index = win then
      let s1 := if clear then s.modPort index fun x => { x with fec := 0 } else s
      some (s1, min (s.port index).fec (2 ^ 96 - 1), 96)
    else none
  | _ => none

/-- WIDE_CAPTURE (R383): the selected value is taken whole, cleared in the same action when CLEAR is set, and VALID or BAD_SEL sets. -/
def execWideCapture (win : Nat) (s : State) : Host.Outcome State Fault Refusal :=
  let w := s.window win
  if win < 5 ∧ w.widePending = true then
    let sel := w.wideSel.toNat
    let tag := sel / 2 ^ 56
    match s.wideItem win (sel % 65536) (sel / 65536 % 65536) (sel.testBit 32) with
    | some (s1, v, width) =>
      .next (s1.modWindow win fun w =>
        { w with wideTag := tag, wideLen := ceilDiv width 64, wideValid := true, widePending := false,
                 wideData := (List.range 4).map fun i => BitVec.ofNat 64 (v / 2 ^ (64 * i)) })
    | none => .next (s.modWindow win fun w => { w with wideTag := tag, wideBad := true, widePending := false })
  else .next s

/-- A reset request by a path at a window (R390): it acts, or is discarded and recorded as a bad access. -/
def State.resetBy (s : State) (path : Path) (win v : Nat) : State :=
  if s.reachesWindow path win then s.regWrite path win 0x6028 8 (BitVec.ofNat 64 (0xC1EA * 2 ^ 32 + v)) else s

/-- The code of a stream class (Table 2.2). -/
def codeOfClass : StreamClass → Nat
  | .F => 0 | .B => 1 | .U => 2 | .I => 3 | .C => 4 | .M => 5 | .S => 6

/-- STREAM_RESET (R51, R390). -/
def execStreamReset (path : Path) (quarter : Nat) (cls : StreamClass) (s : State) : Host.Outcome State Fault Refusal :=
  if quarter < 4 then .next (s.resetBy path quarter (1 + 16 * codeOfClass cls)) else .next s

/-- PARTITION_RESET (R390, R455). -/
def execPartitionReset (path : Path) (quarter : Nat) (s : State) : Host.Outcome State Fault Refusal :=
  if quarter < 4 then .next (s.resetBy path quarter 2) else .next s

/-- MODULE_RESET (R390, R458). -/
def execModuleReset (path : Path) (s : State) : Host.Outcome State Fault Refusal := .next (s.resetBy path 4 3)

/-! REG and REG_RESP (R310, R372). -/

/-- The window that a device address lies in, with its offset (R372); `none` for the rest of the control-window range. -/
def regWindow (a : Nat) : Option (Nat × Nat) :=
  let o := a - 0x0F0000000000
  if a < 0x0F0000000000 ∨ 0x50000 ≤ o then none else some (o / 65536, o % 65536)

/-- Whether a device address lies in the control windows (Table 10.1). -/
def isControlRange (a : Nat) : Bool := decide (0x0F0000000000 ≤ a ∧ a < 0x100000000000)

/-- What a REG message does (R372): a register access, or outside the windows a bad access that reads zero, recorded in the device window
(DESIGN CHOICE, log entry 37). It answers a read. -/
def State.serveReg (s : State) (m : Msg) : State :=
  let path : Path := .reg 0
  let a := deviceOf m
  match regWindow a with
  | some (win, off) =>
    if m.data.isEmpty then
      let (s1, b) := s.regRead path win off 8
      s1.respond (s.lowQ (win % 4)) m M_REG_RESP 0 b
    else s.regWrite path win off m.data.length (BitVec.ofNat 64 (leNat m.data))
  | none =>
    if !isControlRange a then s
    else
      let s1 := s.badAccess 4 path (!m.data.isEmpty) (a % 65536)
      if m.data.isEmpty then s1.respond 0 m M_REG_RESP 0 (List.replicate 8 0) else s1

/-- REG (R310, R372): taken without an epoch check (Table 14.3). -/
def execRegMsg (port : Nat) (m : Msg) (s : State) : Host.Outcome State Fault Refusal :=
  .next (s.receive port M_REG m fun s => s.serveReg m)

/-- REG_RESP (R310): the bridge's read completes with the data. -/
def execRegRespMsg (port : Nat) (m : Msg) (s : State) : Host.Outcome State Fault Refusal :=
  .next (s.receive port M_REG_RESP m fun s =>
    match s.bridgeReqs.find? fun r => r.msgId == m.msgId && !r.aperture && !r.isWrite with
    | none => s
    | some q => { s with bridgeReqs := s.bridgeReqs.filter fun r => r != q }.emit (.readData (.reg q.fn) (padTo 8 m.data)))

end Sys2Proof.Machine
end

