-- ==== Sys2Proof/Machine/Bridge.lean ====
section
/-! DEFINITION. The host bridge (R320–R326, R431): BAR2 and aperture accesses, read timeouts, MSI-X unmasking, and the PCIe endpoint's
reset and link. -/

namespace Sys2Proof.Machine

/-- A refused bridge access logged (R322, Table 18.3). -/
def State.logRefused (s : State) (fn member bar : Nat) : State := (s.log fn (mkEvent 0x4E member bar)).bridgeEvent fn

/-- An access that R323 may hold, sent as soon as it may go. -/
def State.bridgeSend (s : State) (fn member dst mtype addr len : Nat) (data : List Byte) : State :=
  let m : Msg := ⟨mtype, 0, dst, s.endpoint, 0, 0, addr, len, 0, data⟩
  let held : BridgeHeld := ⟨2 ^ 32 + s.nextMsgId, s.mclk, fn, member, m⟩
  { s with bridgeHeld := s.bridgeHeld ++ [held], nextMsgId := (s.nextMsgId + 1) % 2 ^ 32 }.releaseHeld

/-- A BAR2 access to a member's window of a quarter that the function serves: here on the bridge itself, as a REG message elsewhere. An
access that is no whole quadword goes no further than the bridge's own window (R374; DESIGN CHOICE, log entry 37). -/
def State.bar2 (s : State) (fn g q off size : Nat) (write : Option Word) : State :=
  let path : Path := .reg fn
  let dst := s.board.group[g]?.getD 0
  if dst = s.endpoint ∨ size ≠ 8 ∨ off % 8 ≠ 0 then
    match write with
    | some v => s.regWrite path q off size v
    | none => let (s1, b) := s.regRead path q off size; s1.emit (.readData path b)
  else
    let addr := globalAddr dst (0x0F0000000000 + q * 65536 + off)
    match write with
    | some v => s.bridgeSend fn g dst M_REG addr 8 (toLe 8 v.toNat)
    | none => s.bridgeSend fn g dst M_REG addr 0 []

/-- BAR2_ACCESS (R321–R323): slots of no member, or of a quarter that the function does not serve, read zero and drop writes. -/
def execBar2Access (fn offset size : Nat) (write : Option Word) (s : State) : Host.Outcome State Fault Refusal :=
  let g := offset / 0x40000
  let q := offset / 0x10000 % 4
  if !(s.pathUp (.bar0 fn) && s.isPart fn) || decide (0x800000 ≤ offset) then .next s
  else if s.board.group.length ≤ g ∨ s.lowQ q ≠ fn then
    match write with
    | some _ => .next s
    | none => .next (s.emit (.readData (.reg fn) (List.replicate size 0)))
  else .next (s.bar2 fn g q (offset % 0x10000) size write)

/-- An aperture access refused (R322): a write is discarded, a read completes with Completer Abort. -/
def State.refuseAperture (s : State) (fn member : Nat) (op : ApertureOp) : State :=
  let s1 := s.logRefused fn member 4
  match op with
  | .write _ => s1
  | .read _ => s1.emit (.completerAbort fn)

/-- An aperture access to the bridge's own memory. -/
def State.apertureHere (s : State) (fn g a : Nat) (op : ApertureOp) : State :=
  let len := match op with | .write d => d.length | .read n => n
  if !(s.inMemory fn a len && s.hostMayReach fn a len) then s.refuseAperture fn g op
  else if !s.reachable a len || s.quarterOff fn then (match op with | .write _ => s | .read _ => s.emit (.completerAbort fn))
  else
    match op with
    | .write d => s.store ⟨a, d, false⟩
    | .read n =>
      let s1 := if s.faults.isEmpty then s else (codewordsIn a n).foldl (fun s cw => s.readCw cw 0 0xFFFF false) s
      s1.hostData fn (s.read a n) (s.poisonMapOf a n)

/-- An aperture access to another member: a WRITE goes at once, a READ_REQ by R323. -/
def State.apertureThere (s : State) (fn g dst ga : Nat) (op : ApertureOp) : State :=
  match op with
  | .read n => s.bridgeSend fn g dst M_READ_REQ ga n []
  | .write d =>
    let (s1, r) := s.send fn none dst M_WRITE 0 ga d.length 0 d
    match r with
    | some (id, i) => { s1 with bridgeReqs := s1.bridgeReqs ++ [⟨id, fn, g, i, true, true, 0, s.mclk⟩] }
    | none => s1

/-- Whether a device address of a group member lies in a partition that holds a quarter which a function serves (R322), by that member's layout: this
module's own, or a free one (log entry 102). -/
def State.servesThere (s : State) (fn dst a : Nat) : Bool :=
  if dst = s.endpoint then s.ownerOf a == some fn
  else
    let there : State := { s with quartersPer := if Config.memberQuarters dst = 1 then 1 else if Config.memberQuarters dst = 2 then 2 else 4 }
    match there.ownerOf a with
    | some p => (s.quarters fn).any fun q => there.lowQ q == p
    | none => false

/-- APERTURE_ACCESS (R322, R431), by an access that the endpoint takes (R320): an endpoint outside the group is refused with UNIT 0xFFFF, and
so is a partition that holds no quarter which the function serves. -/
def execApertureAccess (fn offset : Nat) (access : ApertureOp) (s : State) : Host.Outcome State Fault Refusal :=
  let fits := match access with | .write d => decide (d.length ≤ 512) | .read n => decide (n ≤ 4096)
  if !(s.pathUp (.bar0 fn) && s.isPart fn && fits) || decide (64 * gib ≤ offset) then .next s
  else
    let ga := s.configItem fn 0xD0000 + offset
    let dst := ga / 2 ^ 49
    let a := ga % 2 ^ 49
    if !s.board.group.contains dst then .next (s.refuseAperture fn 0xFFFF access)
    else
      let g := s.board.group.idxOf dst
      if !s.servesThere fn dst a then .next (s.refuseAperture fn g access)
      else if dst = s.endpoint then .next (s.apertureHere fn g a access)
      else .next (s.apertureThere fn g dst ga access)

/-- A BAR2 read that ends by its time limit: every byte 0xFF, a record, and vector 0 (R322, R324). -/
def State.readTimedOut (s : State) (fn member bytes : Nat) : State :=
  ((s.emit (.readData (.reg fn) (List.replicate bytes 0xFF))).log fn (mkEvent 0x4F member 0)).bridgeEvent fn

/-- BRIDGE_READ_TIMEOUT (R322): a BAR2 read that has had no REG_RESP for 1 ms completes with every byte 0xFF and is logged, whether its message has
left or R323 still holds it. -/
def execBridgeReadTimeout (msgId : Nat) (s : State) : Host.Outcome State Fault Refusal :=
  match s.bridgeReqs.find? fun r => r.msgId == msgId && !r.aperture && !r.isWrite with
  | some q =>
    if s.mclk < q.time + msCycles then .next s
    else .next ({ s with bridgeReqs := s.bridgeReqs.filter fun r => r != q }.readTimedOut q.fn q.member q.bytes)
  | none =>
    match s.bridgeHeld.find? fun h => h.id == msgId && h.msg.mtype == M_REG && h.msg.data.isEmpty with
    | some h =>
      if s.mclk < h.time + msCycles then .next s
      else .next ({ s with bridgeHeld := s.bridgeHeld.filter fun x => x != h }.readTimedOut h.fn h.member 8)
    | none => .next s

/-- MSIX_UNMASK (R324): the vector is unmasked, and a pending bit sends its one message. -/
def execMsixUnmask (fn vector : Nat) (s : State) : Host.Outcome State Fault Refusal :=
  if s.pathUp (.bar0 fn) && s.isPart fn && decide (vector < 64) then
    let e := s.msixEntry fn vector
    .next (s.setMsix fn vector (e.1, e.2.1, false))
  else .next s

/-- PCIE_HOT_RESET (R455, R457): a UNIT reset of the endpoint. -/
def execPcieHotReset (s : State) : Host.Outcome State Fault Refusal :=
  if s.mainUp = true ∧ s.board.xLanug = false then .next s.endpointReset else .next s

/-- PCIE_LINK_UP (R320): the link has trained at a speed and a width of R320. -/
def execPcieLinkUp (speed width : Nat) (s : State) : Host.Outcome State Fault Refusal :=
  if s.mainUp = true ∧ s.board.xLanug = false ∧ s.clocksLost.contains 40 = false ∧ s.tripped = false ∧ 1 ≤ speed ∧ speed ≤ 6
      ∧ (width = 1 ∨ width = 4 ∨ width = 8 ∨ width = 16) then
    .next { s with pcieSpeed := speed, pcieWidth := width }
  else .next s

end Sys2Proof.Machine
end

