-- ==== Sys2Proof/Machine/Power.lean ====
section
/-! DEFINITION. Clocks and throttling (R451–R454, R305), the fatal state (R411, R412), and the low-power states (R448, R459–R461). -/

namespace Sys2Proof.Machine

/-! Throttling (R453) and ACLK (R452). -/

/-- A change of one half. -/
def State.modHalf (s : State) (h : Nat) (f : Half → Half) : State := { s with halves := s.halves.modify h f }

/-- The effective ACLK of a half: its set point less 20 MHz for each step (R453). -/
def Half.target (x : Half) : Nat := x.setPoint - 20 * x.steps

/-- The conditions behind a step down (Table 16.6): bit 0 power, bit 1 current, bit 2 temperature. -/
def throttleWhy (sn : Sensors) (tj : Int) : BitVec 3 :=
  BitVec.ofNat 3 ((if 3300 < sn.powerW then 1 else 0) + (if 6200 < sn.current10mA then 2 else 0) + (if 840 ≤ tj then 4 else 0))

/-- A half after a tick (R453). -/
def Half.tick (x : Half) (sn : Sensors) (tj : Int) : Half :=
  let y := { x with sinceStepUs := x.sinceStepUs + 10 }
  let why := throttleWhy sn tj
  if why ≠ 0 then
    if 320 ≤ x.target then { y with steps := x.steps + 1, why := why, sinceStepUs := 0 } else y
  else if 0 < x.steps ∧ 1000 ≤ y.sinceStepUs ∧ sn.powerW < 3200 ∧ sn.current10mA < 6000 ∧ tj < 800 then
    { y with steps := x.steps - 1, why := if x.steps = 1 then 0 else x.why, sinceStepUs := 0 }
  else y

/-- THROTTLE_TICK (R453): the AON logic compares what the sensors read with the limits. Without AON the sensors alone are read. -/
def execThrottleTick (sensors : Sensors) (s : State) : Host.Outcome State Fault Refusal :=
  if !s.vin then .next s
  else
    let s1 := { s with sensors := sensors }
    if !s.aonUp then .next s1
    else
      let low := s.halves.all fun x => decide (x.aclk ≤ 300)
      let s2 := { s1 with overTicks := if 3300 < sensors.powerW ∧ low = true then s.overTicks + 1 else 0 }
      .next ((s2.modHalf 0 fun x => x.tick sensors sensors.tjE).modHalf 1 fun x => x.tick sensors sensors.tjW)

/-- ACLK_STEP (R452): one 20 MHz step of 2 µs towards the effective set point. -/
def execAclkStep (half : Nat) (s : State) : Host.Outcome State Fault Refusal :=
  if half < 2 ∧ s.mainUp = true ∧ s.clocksLost.contains half = false then
    .next (s.modHalf half fun x =>
      { x with aclk := if x.aclk < x.target then min x.target (x.aclk + 20) else if x.target < x.aclk then max x.target (x.aclk - 20) else x.aclk })
  else .next s

/-- THERM_N (R453, R454). -/
def State.thermN (s : State) : Bool := s.tripped || s.halves.any fun x => x.why.toNat.testBit 2

/-- The ports that run Lanug and are not down. -/
def State.livePorts (s : State) : List Nat := (List.range 20).filter fun i => s.runsLanug i && (s.port i).state != .down

/-- A half's L and X ports. -/
def halfPorts (h : Nat) : List Nat := (List.range 20).filter fun i => portHalf i == h

/-- A trip (R454): every switched domain goes off, so that no unit answers; AON stays up. -/
def State.trip (s : State) : State :=
  let s1 := s.livePorts.foldl State.portDown s
  { (s1.dropHalf 0).dropHalf 1 with tripped := true, mainUp := false }

/-- THERMAL_TRIP (R454): a junction at 115 °C, or 10 ms of overpower with both halves at 300 MHz. -/
def execThermalTrip (cause : TripCause) (s : State) : Host.Outcome State Fault Refusal :=
  if !s.mainUp || s.tripped then .next s
  else
    match cause with
    | .junction h =>
      let x := s.sensors
      if h = 0 then .next ({ s with sensors := { x with tjE := max x.tjE 920 } }.trip)
      else if h = 1 then .next ({ s with sensors := { x with tjW := max x.tjW 920 } }.trip)
      else .next s
    | .overpower => if 1000 ≤ s.overTicks then .next s.trip else .next s

/-! The fatal state (R412). -/

/-- The fatal state entered; `bit` is the SUMMARY bit of the device window that it sets. -/
def State.goFatal (s : State) (bit : Nat) : State := { s.setDeviceSummary bit with fatal := true }

/-- WATCHDOG_EXPIRY (R411, R412). -/
def execWatchdogExpiry (s : State) : Host.Outcome State Fault Refusal :=
  if s.aonUp = true ∧ s.fatal = false then .next (s.goFatal 9) else .next s

/-- SYTEN_FATAL_ERROR (R412): the monitor sets SUMMARY.WATCHDOG for every cause but the loss of MCLK. -/
def execSytenFatalError (_cause : SytenError) (s : State) : Host.Outcome State Fault Refusal :=
  if s.aonUp = true ∧ s.fatal = false then .next (s.goFatal 9) else .next s

/-! Loss of lock (R305). -/

/-- The packets that use what a clock drove end with ERR_PEER_UNREACHABLE (R305): those whose work has not ended. -/
def State.stopPackets (s : State) (uses : Packet → Bool) : State :=
  s.partList.foldl (fun s p => ((s.part p).packets.filter uses).foldl (fun s k => s.stopPacket p k) s) s

/-- Whether a packet's engine lies in part in a half. -/
def Packet.usesHalf (h : Nat) (k : Packet) : Bool := match k.snap with | some sn => sn.leaves.any fun a => a / 128 == h | none => false

/-- Whether a packet is one of the ingest fronts (R353). -/
def Packet.isIngest (k : Packet) : Bool := k.hdr.opcode / 256 == 7

/-- What the stop of a clock does besides its mark (R305, R316). -/
def State.stopClock (s : State) (clock : Nat) : State :=
  if clock < 2 then s.stopPackets (Packet.usesHalf clock)
  else if clock < 4 then s.dropHalf (clock - 2)
  else if 20 ≤ clock ∧ clock < 40 then
    (if s.runsLanug (clock - 20) && (s.port (clock - 20)).state != .down then s.portDown (clock - 20) else s)
  else if clock = 40 then s.endpointReset
  else if clock = 41 then s.stopPackets Packet.isIngest
  else s

/-- The record of a loss of lock (Table 18.3, R415): NCLK is an event of the module; any other clock is logged in each partition that owns a quarter
which it drives, ICLK and PCLK driving something of every quarter. -/
def State.logClock (s : State) (clock : Nat) : State :=
  let r := mkEvent 0x45 clock 0
  if clock < 2 then (dedupNat [s.lowQ (2 * clock), s.lowQ (2 * clock + 1)]).foldl (fun s p => s.log p r) s
  else if clock < 4 ∨ 40 ≤ clock then s.logAll r
  else if clock < 12 then s.logQuarter ((clock - 4) / 2) r
  else if clock < 20 then s.logQuarter ((clock - 12) / 2) r
  else s.logQuarter (quarterOfPort (clock - 20)) r

/-- PLL_LOSS_OF_LOCK (R305): the clock stops and its domain is treated as powered off. Number 42 stands for MCLK, which Table 18.4 does
not number (DESIGN CHOICE, log entry 39); its loss is the fatal state, with no record (R412), as long as the always-on monitor has power. -/
def execPllLossOfLock (clock : Nat) (s : State) : Host.Outcome State Fault Refusal :=
  if 42 < clock ∨ (if clock = 42 then s.aonUp else s.mainUp) = false ∨ s.clocksLost.contains clock = true then .next s
  else
    let s1 := { s with clocksLost := setIns s.clocksLost clock }
    if clock = 42 then .next (s1.goFatal 8)
    else .next (((s1.setDeviceSummary 8).stopClock clock).logClock clock)

/-! Low power (R448, R459–R461). -/

/-- Whether every packet that a partition has issued has completed. -/
def State.quiet (s : State) (p : Nat) : Bool := (s.part p).packets.isEmpty

/-- QUIESCE_REACHED (R460): with every issued packet complete, the merge buffers drain; an entry into STANDBY goes on from there. -/
def execQuiesceReached (part : Nat) (s : State) : Host.Outcome State Fault Refusal :=
  if s.isPart part = false ∨ s.quiet part = false ∨ s.fatal = true then .next s
  else
    match (s.part part).pstate with
    | .entering 2 => .next ((s.drainPart part).modPart part fun pt => { pt with pstate := .quiesce })
    | .entering _ => .next (s.drainPart part)
    | _ => .next s

/-- A half powered off through QUIESCE: the queues of every crossing port drain first, so that nothing is discarded (R303). -/
def State.powerOffHalf (s : State) (h : Nat) : State :=
  if s.halvesDown.contains h then s else { s.drainCrossings.clearCrossings with halvesDown := setIns s.halvesDown h }

/-- STANDBY_REACHED (R460): the placement objects are released, every ring is unbound, READY clears, and the quarters' domains go off; a half
both of whose quarters are in STANDBY is powered off (R447). -/
def execStandbyReached (part : Nat) (s : State) : Host.Outcome State Fault Refusal :=
  if s.isPart part = false ∨ s.quiet part = false ∨ s.fatal = true then .next s
  else
    match (s.part part).pstate with
    | .entering 3 =>
      let s1 := (s.drainPart part).modPart part fun pt =>
        { pt.unbindRings with pstate := .standby, objects := [], progress := [], spilled := [], window := 0, ready := false }
      let s2 := (s.allowedPorts part).foldl (fun s i => if (s.port i).state = .down then s else s.portDown i) s1
      .next (([0, 1] : List Nat).foldl (fun s h => if s.quarterOff (2 * h) && s.quarterOff (2 * h + 1) then s.powerOffHalf h else s) s2)
    | _ => .next s

/-- What a return from STANDBY does to memory (R461, R282): HBM and the slices are zeroed, and the sump's replacements read as poisoned. -/
def State.wakeMemory (s : State) (p : Nat) : State :=
  let s1 := (s.quarters p).foldl (fun s q =>
    (s.zeroRange (q * hbmQuarter) ((q + 1) * hbmQuarter)).zeroRange (scratchBase + 64 * q * sliceBytes)
      (scratchBase + 64 * (q + 1) * sliceBytes)) s
  (s1.remaps.filter fun r => r.mem == .sump && s.lowQ (r.unit / 2) == p).foldl (fun s r =>
    s.addPoison (s.addrOf .sump r.unit (64 * r.granule))) s1

/-- STANDBY_WAKE_DONE (R461): memory is zeroed, the ports train, the bootstrap ring is bound, and READY sets. A half that was powered off
for STANDBY alone answers again. -/
def execStandbyWakeDone (part : Nat) (s : State) : Host.Outcome State Fault Refusal :=
  if s.isPart part = false ∨ s.fatal = true ∨ s.mainUp = false then .next s
  else
    match (s.part part).pstate with
    | .waking =>
      let hs := dedupNat ((s.quarters part).map (· / 2))
      let up := hs.filter fun h => !s.clocksLost.contains (2 + h)
      let s1 := { s with halvesDown := s.halvesDown.filter fun h => !up.contains h }.wakeMemory part
      let s2 := (s.allowedPorts part).foldl (fun s i =>
        if s.clocksLost.contains (20 + i) then s
        else s.modPort i fun p => { p with state := .training, retrains := p.retrains.hit 1 }) s1
      .next ((s2.openPart part 0).modPart part Part.activate)
    | _ => .next s

/-- BENCH_IDLE_GATE (R448): a bench none of whose arrays holds a tile or a ring grant is switched off. -/
def execBenchIdleGate (bench : Nat) (s : State) : Host.Outcome State Fault Refusal :=
  let mine := fun (a : Nat) => a / 8 == bench
  let p := s.lowQ (bench / 8)
  let pt := s.part p
  let granted := pt.progress.any fun x => match x.1 with | .array a | .vector a => mine a | _ => false
  let working := pt.packets.any fun k =>
    (k.phase == .ready || k.phase == .running) && (match k.snap with | some sn => sn.leaves.any mine | none => false)
  if bench < 32 ∧ s.mainUp = true ∧ s.fatal = false ∧ granted = false ∧ working = false then
    .next { s with gatedBenches := setIns s.gatedBenches bench }
  else .next s

end Sys2Proof.Machine
end

