-- ==== Sys2Proof/Machine/Sideband.lean ====
section
/-! DEFINITION. The J4 sideband (R467–R474): SMBus register access and configuration writes, the alert response, and the debug unlock over
the UART (R442). -/

namespace Sys2Proof.Machine

/-- GEO_ID_SAMPLE (R469): the pins are followed while PWR_EN is low. -/
def execGeoIdSample (pins : Nat) (s : State) : Host.Outcome State Fault Refusal :=
  if s.vin = true ∧ s.pwrEn = false then .next { s with geoPins := pins % 32 } else .next s

/-- The module's SMBus address (R469). -/
def State.smbusAddress (s : State) : Nat := 0x40 + (if s.pwrEn then s.geoId else s.geoPins)

/-- A Block Write taken (R471): NACKed, with no effect, where its PEC fails or its count is not the command's. -/
def State.blockWrite (s : State) (pecOk : Bool) (payload : List Byte) (count : Nat) (f : State → State) : State :=
  if !s.vin then s else if !pecOk || payload.length != count then s.emit .smbusNack else f s

/-- REG_WRITE (R471). A WIN of 5 to 255 is recorded nowhere. -/
def execRegWrite (pecOk : Bool) (payload : List Byte) (s : State) : Host.Outcome State Fault Refusal :=
  .next (s.blockWrite pecOk payload 11 fun s =>
    let win := leNat (payload.take 1)
    let off := leNat ((payload.drop 1).take 2)
    if s.aonUp && decide (win < 5) then s.regWrite .smbus win off 8 (BitVec.ofNat 64 (leNat (payload.drop 3))) else s)

/-- REG_ADDR (R471): the read target is latched. -/
def execRegAddr (pecOk : Bool) (payload : List Byte) (s : State) : Host.Outcome State Fault Refusal :=
  .next (s.blockWrite pecOk payload 3 fun s =>
    { s with smbusTarget := some (leNat (payload.take 1), leNat (payload.drop 1)) })

/-- The status and data of a REG_READ (R471). -/
def State.smbusRead (s : State) : State × Nat × List Byte :=
  match s.smbusTarget with
  | none => (s, 3, List.replicate 8 0)
  | some (win, off) =>
    let b := (regDecode off).1
    if 5 ≤ win then (s, 1, List.replicate 8 0xFF)
    else if !s.aonUp && b != 4 && b != 5 then (s, 2, List.replicate 8 0)
    else
      let (s1, d) := s.regRead .smbus win off 8
      (s1, if off % 8 = 0 then 0 else 1, d)

/-- REG_READ (R471): each is one read of the latched target. -/
def execRegRead (pecOk : Bool) (s : State) : Host.Outcome State Fault Refusal :=
  if !s.vin then .next s
  else if !pecOk then .next (s.emit .smbusNack)
  else
    let (s1, st, d) := s.smbusRead
    .next (s1.emit (.smbusReply (toLe 1 st ++ d)))

/-! Configuration writes (R472). -/

/-- CFG_OPEN (R472): the staging area is zeroed. -/
def execCfgOpen (pecOk : Bool) (payload : List Byte) (s : State) : Host.Outcome State Fault Refusal :=
  .next (s.blockWrite pecOk payload 1 fun s =>
    if s.aonUp && s.cfg.state != 1 && payload == [0x5A] then { s with cfg := ⟨List.replicate 8192 0, 0⟩ } else s.emit .smbusNack)

/-- CFG_DATA (R472): 32 bytes of the image at a multiple of 32 below 8,192. -/
def execCfgData (pecOk : Bool) (payload : List Byte) (s : State) : Host.Outcome State Fault Refusal :=
  .next (s.blockWrite pecOk payload 34 fun s =>
    let off := leNat (payload.take 2)
    let g := s.cfg.staging
    if s.aonUp && s.cfg.state != 1 && decide (off % 32 = 0 ∧ off < 8192) then
      { s with cfg := { s.cfg with staging := g.take off ++ payload.drop 2 ++ g.drop (off + 32) } }
    else s.emit .smbusNack)

/-- CFG_CLOSE (R472): the check and the write of the staged image begin. -/
def execCfgClose (pecOk : Bool) (payload : List Byte) (s : State) : Host.Outcome State Fault Refusal :=
  .next (s.blockWrite pecOk payload 1 fun s =>
    if s.aonUp && payload == [0xA5] then { s with cfg := { s.cfg with state := 1 } } else s.emit .smbusNack)

/-- CFG_WRITE_DONE (R472): a valid image is in the flash, an invalid one is not written, and a flash fault leaves the flash as it was. -/
def execCfgWriteDone (flashOk : Bool) (s : State) : Host.Outcome State Fault Refusal :=
  if s.cfg.state ≠ 1 then .next s
  else
    let img := s.cfg.staging
    if !s.imageValid img then .next { s with cfg := { s.cfg with state := 3 } }
    else if flashOk then .next { s with cfg := { s.cfg with state := 2 }, flashImage := img.take (imageLength img) }
    else .next { s with cfg := { s.cfg with state := 4 } }

/-- CFG_STATUS (R472): STATE, and the digest of the image in force in the flash. -/
def execCfgStatus (pecOk : Bool) (s : State) : Host.Outcome State Fault Refusal :=
  if !s.vin then .next s
  else if !pecOk || !s.aonUp then .next (s.emit .smbusNack)
  else .next (s.emit (.smbusReply (toLe 1 s.cfg.state ++ (sha3 s.flashImage).take 8)))

/-- ALERT_RESPONSE (R467): a module that asserts ALERT_N answers with its address (PRESUMED, log entry 38: in bits 7:1, as SMBus gives it). -/
def execAlertResponse (s : State) : Host.Outcome State Fault Refusal :=
  if s.vin = true ∧ s.aonUp = true ∧ s.alertN = true then .next (s.emit (.smbusReply (toLe 1 (2 * s.smbusAddress)))) else .next s

/-! The unlock dialogue (R442, R473). -/

/-- A frame of the UART (R473). -/
def uartFrame (type : Nat) (payload : List Byte) : List Byte :=
  let b := toLe 1 type ++ toLe 2 payload.length ++ payload
  (0x7E : Byte) :: b ++ toLe 4 (crc32c b)

/-- A frame taken apart: its type and payload, when it is one of the two that the module takes, with its length and a good CRC. -/
def parseUart (f : List Byte) : Option (Nat × List Byte) :=
  let type := leNat ((f.drop 1).take 1)
  let len := leNat ((f.drop 2).take 2)
  let body := (f.drop 1).take (3 + len)
  let want := if type = 1 then some 0 else if type = 3 then some 2420 else none
  if f.take 1 == [0x7E] && want == some len && decide (f.length = len + 8) && leNat (f.drop (4 + len)) == crc32c body then
    some (type, (f.drop 4).take len)
  else none

/-- A refusal with its reason (Table 21.5). -/
def State.uartRefuse (s : State) (reason : Nat) : State := s.emit (.uart (uartFrame 5 (toLe 1 reason)))

/-- The challenge (R442, Table 21.5): serial, nonce, ROM_MEASURE and the scope 1. -/
def State.newChallenge (s : State) : List Byte := s.serialBytes ++ s.randomBytes 32 ++ padTo 32 s.romMeasure ++ [1]

/-- Every partition scrubbed as a reassignment does, without the erase of the store, and formed again (R442 step 4). -/
def State.unlockScrub (s : State) : State :=
  let s1 := s.partList.foldl (State.scrubPart · false) s
  s1.partList.foldl (fun s p => s.openPart p 0) s1

/-- An UNLOCK_REQ (R442): refused within 1 s of a failed answer, else a fresh challenge. -/
def State.unlockAsked (s : State) : State :=
  match s.lastRefused with
  | some t =>
    if s.mclk < t + 1000 * msCycles then s.uartRefuse 2
    else { s.drew 32 with challenge := some s.newChallenge }.emit (.uart (uartFrame 2 s.newChallenge))
  | none => { s.drew 32 with challenge := some s.newChallenge }.emit (.uart (uartFrame 2 s.newChallenge))

/-- An ANSWER (R442): a challenge is good for one answer. A valid signature unlocks after every partition is scrubbed. -/
def State.unlockAnswered (s : State) (sig : List Byte) : State :=
  match s.challenge with
  | none => s.uartRefuse 3
  | some c =>
    let s1 := { s with challenge := none }
    if Config.digestVerify s.debugKeyDigest [] c sig then
      { s1.unlockScrub with debugUnlocked := true, jtagOpen := true }.emit (.uart (uartFrame 4 []))
    else { s1 with lastRefused := some s.mclk }.uartRefuse 1

/-- A frame on the UART (R473), once the Kwadar root and the controller run. -/
def State.uartArrives (s : State) (frame : List Byte) : State :=
  if !s.ready || s.fatal || s.tripped then s
  else
    match parseUart frame with
    | none => s.uartRefuse 4
    | some (1, _) => s.unlockAsked
    | some (_, sig) => s.unlockAnswered sig

/-- UNLOCK_REQ (R442). -/
def execUnlockReq (frame : List Byte) (s : State) : Host.Outcome State Fault Refusal := .next (s.uartArrives frame)

/-- ANSWER (R442): the same reception, where the frame's type decides. -/
def execAnswer (frame : List Byte) (s : State) : Host.Outcome State Fault Refusal := .next (s.uartArrives frame)

end Sys2Proof.Machine
end

