-- ==== Sys2Proof/Machine/Dispatch.lean ====
section
/-! DEFINITION. One arm per command: its meaning. -/

namespace Sys2Proof.Machine

/-- The effect of a command on everything but the queue. -/
def exec (i : Instr) (s : State) : Host.Outcome State Fault Refusal :=
  match i with
  | .doorbellWrite path quarter k data => Sys2Proof.Machine.execDoorbellWrite path quarter k data s
  | .slotFetch part ring => Sys2Proof.Machine.execSlotFetch part ring s
  | .packetIssue part ring => Sys2Proof.Machine.execPacketIssue part ring s
  | .packetComplete p => Sys2Proof.Machine.execPacketComplete p s
  | .ringServiceGrant part res units jobDone => Sys2Proof.Machine.execRingServiceGrant part res units jobDone s
  | .emptyGrant part res => Sys2Proof.Machine.execEmptyGrant part res s
  | .quotaWindowEnd part => Sys2Proof.Machine.execQuotaWindowEnd part s
  | .configSet p => Sys2Proof.Machine.execConfigSet p s
  | .configGet p => Sys2Proof.Machine.execConfigGet p s
  | .ringBind p => Sys2Proof.Machine.execRingBind p s
  | .ringUnbind p => Sys2Proof.Machine.execRingUnbind p s
  | .ringRebindApply p => Sys2Proof.Machine.execRingRebindApply p s
  | .gangForm p => Sys2Proof.Machine.execGangForm p s
  | .gangDissolve p => Sys2Proof.Machine.execGangDissolve p s
  | .gangChangeTurn p => Sys2Proof.Machine.execGangChangeTurn p s
  | .matmul p => Sys2Proof.Machine.execMatmul p s
  | .splitKCombine p tile => Sys2Proof.Machine.execSplitKCombine p tile s
  | .spmmCsr p => Sys2Proof.Machine.execSpmmCsr p s
  | .spmmNm p => Sys2Proof.Machine.execSpmmNm p s
  | .spsp p => Sys2Proof.Machine.execSpsp p s
  | .sddmm p => Sys2Proof.Machine.execSddmm p s
  | .groupedMatmul p => Sys2Proof.Machine.execGroupedMatmul p s
  | .predictActive p => Sys2Proof.Machine.execPredictActive p s
  | .compress p => Sys2Proof.Machine.execCompress p s
  | .maskedit p => Sys2Proof.Machine.execMaskedit p s
  | .maskeditRefsReleased p => Sys2Proof.Machine.execMaskeditRefsReleased p s
  | .twinBuild p => Sys2Proof.Machine.execTwinBuild p s
  | .eltwise p => Sys2Proof.Machine.execEltwise p s
  | .reduceDim p => Sys2Proof.Machine.execReduceDim p s
  | .softmaxBwd p => Sys2Proof.Machine.execSoftmaxBwd p s
  | .normBwd p => Sys2Proof.Machine.execNormBwd p s
  | .quantize p => Sys2Proof.Machine.execQuantize p s
  | .updateWeight p => Sys2Proof.Machine.execUpdateWeight p s
  | .updateOldVersionReleased p => Sys2Proof.Machine.execUpdateOldVersionReleased p s
  | .updateTurn p => Sys2Proof.Machine.execUpdateTurn p s
  | .versionQueueRelease p => Sys2Proof.Machine.execVersionQueueRelease p s
  | .dress p => Sys2Proof.Machine.execDress p s
  | .copyTensor p => Sys2Proof.Machine.execCopyTensor p s
  | .windowExpand p => Sys2Proof.Machine.execWindowExpand p s
  | .route p => Sys2Proof.Machine.execRoute p s
  | .dispatchRows p => Sys2Proof.Machine.execDispatchRows p s
  | .dispatchCompact p => Sys2Proof.Machine.execDispatchCompact p s
  | .exchangeTimeout p member => Sys2Proof.Machine.execExchangeTimeout p member s
  | .combineRows p => Sys2Proof.Machine.execCombineRows p s
  | .combineBwd p => Sys2Proof.Machine.execCombineBwd p s
  | .placeExpertsSet p => Sys2Proof.Machine.execPlaceExpertsSet p s
  | .placeExpertsStep p => Sys2Proof.Machine.execPlaceExpertsStep p s
  | .placementRevision p => Sys2Proof.Machine.execPlacementRevision p s
  | .placeExpertsRelease p => Sys2Proof.Machine.execPlaceExpertsRelease p s
  | .scaleAgree p => Sys2Proof.Machine.execScaleAgree p s
  | .rsInt p => Sys2Proof.Machine.execRsInt p s
  | .bucketReduce p bucket => Sys2Proof.Machine.execBucketReduce p bucket s
  | .allgather p => Sys2Proof.Machine.execAllgather p s
  | .allgatherSlotFree p => Sys2Proof.Machine.execAllgatherSlotFree p s
  | .alltoall p => Sys2Proof.Machine.execAlltoall p s
  | .permuteShards p => Sys2Proof.Machine.execPermuteShards p s
  | .stagingSetFree p => Sys2Proof.Machine.execStagingSetFree p s
  | .barrier p => Sys2Proof.Machine.execBarrier p s
  | .epochSetAdvance p => Sys2Proof.Machine.execEpochSetAdvance p s
  | .epochSetJoin p => Sys2Proof.Machine.execEpochSetJoin p s
  | .heartbeatTimer part => Sys2Proof.Machine.execHeartbeatTimer part s
  | .peerLost part endpoint => Sys2Proof.Machine.execPeerLost part endpoint s
  | .collTimeout p rank => Sys2Proof.Machine.execCollTimeout p rank s
  | .tsDemux p => Sys2Proof.Machine.execTsDemux p s
  | .decodeVideo p => Sys2Proof.Machine.execDecodeVideo p s
  | .patchify p => Sys2Proof.Machine.execPatchify p s
  | .shufflePlan p => Sys2Proof.Machine.execShufflePlan p s
  | .snapBegin p => Sys2Proof.Machine.execSnapBegin p s
  | .snapDiscard p => Sys2Proof.Machine.execSnapDiscard p s
  | .snapWrite p => Sys2Proof.Machine.execSnapWrite p s
  | .snapParity p => Sys2Proof.Machine.execSnapParity p s
  | .snapParityHoldEnd p => Sys2Proof.Machine.execSnapParityHoldEnd p s
  | .parityUnitXor p unit => Sys2Proof.Machine.execParityUnitXor p unit s
  | .snapCommit p => Sys2Proof.Machine.execSnapCommit p s
  | .restoreGen p => Sys2Proof.Machine.execRestoreGen p s
  | .rebuild p => Sys2Proof.Machine.execRebuild p s
  | .rebuildStripe p stripe => Sys2Proof.Machine.execRebuildStripe p stripe s
  | .watchRead p => Sys2Proof.Machine.execWatchRead p s
  | .layerScaleSet p => Sys2Proof.Machine.execLayerScaleSet p s
  | .layerScaleUnbind p => Sys2Proof.Machine.execLayerScaleUnbind p s
  | .emulateSet p => Sys2Proof.Machine.execEmulateSet p s
  | .scrubSet p => Sys2Proof.Machine.execScrubSet p s
  | .remapAdd p => Sys2Proof.Machine.execRemapAdd p s
  | .retireUnit p => Sys2Proof.Machine.execRetireUnit p s
  | .retireDrainEnd p => Sys2Proof.Machine.execRetireDrainEnd p s
  | .arrayAutoRetire array => Sys2Proof.Machine.execArrayAutoRetire array s
  | .reinstate p testPassed => Sys2Proof.Machine.execReinstate p testPassed s
  | .errlogRead p => Sys2Proof.Machine.execErrlogRead p s
  | .attest p => Sys2Proof.Machine.execAttest p s
  | .hostGen p => Sys2Proof.Machine.execHostGen p s
  | .hostAccept p => Sys2Proof.Machine.execHostAccept p s
  | .clearHost p => Sys2Proof.Machine.execClearHost p s
  | .keyExchangePort p => Sys2Proof.Machine.execKeyExchangePort p s
  | .clearPort p => Sys2Proof.Machine.execClearPort p s
  | .bounceBind p => Sys2Proof.Machine.execBounceBind p s
  | .bounceUnbind p => Sys2Proof.Machine.execBounceUnbind p s
  | .bounceSend p => Sys2Proof.Machine.execBounceSend p s
  | .bounceSendRoom p => Sys2Proof.Machine.execBounceSendRoom p s
  | .bounceDoorbellWrite path quarter k data => Sys2Proof.Machine.execBounceDoorbellWrite path quarter k data s
  | .bounceRecord part queue record => Sys2Proof.Machine.execBounceRecord part queue record s
  | .partitionSet p => Sys2Proof.Machine.execPartitionSet p s
  | .partitionChange => Sys2Proof.Machine.execPartitionChange s
  | .partitionChangeComplete ms => Sys2Proof.Machine.execPartitionChangeComplete ms s
  | .poolRetry part => Sys2Proof.Machine.execPoolRetry part s
  | .poolResize p => Sys2Proof.Machine.execPoolResize p s
  | .placementHoldRelease p => Sys2Proof.Machine.execPlacementHoldRelease p s
  | .restoreEntryWaitEnd p => Sys2Proof.Machine.execRestoreEntryWaitEnd p s
  | .rebuildHoldEnd p => Sys2Proof.Machine.execRebuildHoldEnd p s
  | .unitReset p => Sys2Proof.Machine.execUnitReset p s
  | .quiesceRequest p => Sys2Proof.Machine.execQuiesceRequest p s
  | .standbyRequest p => Sys2Proof.Machine.execStandbyRequest p s
  | .activeRequest p => Sys2Proof.Machine.execActiveRequest p s
  | .quiesceReached part => Sys2Proof.Machine.execQuiesceReached part s
  | .standbyReached part => Sys2Proof.Machine.execStandbyReached part s
  | .standbyWakeDone part => Sys2Proof.Machine.execStandbyWakeDone part s
  | .benchIdleGate bench => Sys2Proof.Machine.execBenchIdleGate bench s
  | .registerWrite path win offset size data => Sys2Proof.Machine.execRegisterWrite path win offset size data s
  | .rcRegisterRead path win offset => Sys2Proof.Machine.execRcRegisterRead path win offset s
  | .linkCounterRead path win offset => Sys2Proof.Machine.execLinkCounterRead path win offset s
  | .wideSelWrite path win data => Sys2Proof.Machine.execWideSelWrite path win data s
  | .wideCapture win => Sys2Proof.Machine.execWideCapture win s
  | .streamReset path quarter cls => Sys2Proof.Machine.execStreamReset path quarter cls s
  | .partitionReset path quarter => Sys2Proof.Machine.execPartitionReset path quarter s
  | .moduleReset path => Sys2Proof.Machine.execModuleReset path s
  | .perstNRise lowUs => Sys2Proof.Machine.execPerstNRise lowUs s
  | .vinPresent mv => Sys2Proof.Machine.execVinPresent mv s
  | .coldReset lowMs env => Sys2Proof.Machine.execColdReset lowMs env s
  | .bootReady ms => Sys2Proof.Machine.execBootReady ms s
  | .pwrEnFall lowMs => Sys2Proof.Machine.execPwrEnFall lowMs s
  | .powerFault kind => Sys2Proof.Machine.execPowerFault kind s
  | .throttleTick sensors => Sys2Proof.Machine.execThrottleTick sensors s
  | .aclkStep half => Sys2Proof.Machine.execAclkStep half s
  | .thermalTrip cause => Sys2Proof.Machine.execThermalTrip cause s
  | .watchdogExpiry => Sys2Proof.Machine.execWatchdogExpiry s
  | .sytenFatalError cause => Sys2Proof.Machine.execSytenFatalError cause s
  | .pllLossOfLock clock => Sys2Proof.Machine.execPllLossOfLock clock s
  | .geoIdSample pins => Sys2Proof.Machine.execGeoIdSample pins s
  | .scrubRead mem unit => Sys2Proof.Machine.execScrubRead mem unit s
  | .scrubPassEnd mem unit => Sys2Proof.Machine.execScrubPassEnd mem unit s
  | .mergeEntryTimeout granule => Sys2Proof.Machine.execMergeEntryTimeout granule s
  | .fabricFlitReceive link flit => Sys2Proof.Machine.execFabricFlitReceive link flit s
  | .meshLinkFailed link => Sys2Proof.Machine.execMeshLinkFailed link s
  | .seamPeerDown half => Sys2Proof.Machine.execSeamPeerDown half s
  | .seamPeerUp half => Sys2Proof.Machine.execSeamPeerUp half s
  | .flitReceive port codewordOk flit => Sys2Proof.Machine.execFlitReceive port codewordOk flit s
  | .retryReq port ack ackValid => Sys2Proof.Machine.execRetryReq port ack ackValid s
  | .laneFault port lane => Sys2Proof.Machine.execLaneFault port lane s
  | .retrain port => Sys2Proof.Machine.execRetrain port s
  | .retrainDone port passing => Sys2Proof.Machine.execRetrainDone port passing s
  | .portRetrainAttempt port => Sys2Proof.Machine.execPortRetrainAttempt port s
  | .writeMsg port m => Sys2Proof.Machine.execWriteMsg port m s
  | .readReqMsg port m => Sys2Proof.Machine.execReadReqMsg port m s
  | .readRespMsg port m => Sys2Proof.Machine.execReadRespMsg port m s
  | .atomicMsg port m => Sys2Proof.Machine.execAtomicMsg port m s
  | .atomicRespMsg port m => Sys2Proof.Machine.execAtomicRespMsg port m s
  | .writeAckMsg port m => Sys2Proof.Machine.execWriteAckMsg port m s
  | .regMsg port m => Sys2Proof.Machine.execRegMsg port m s
  | .regRespMsg port m => Sys2Proof.Machine.execRegRespMsg port m s
  | .readyMsg port m => Sys2Proof.Machine.execReadyMsg port m s
  | .doneMsg port m => Sys2Proof.Machine.execDoneMsg port m s
  | .arriveMsg port m => Sys2Proof.Machine.execArriveMsg port m s
  | .heartbeatMsg port m => Sys2Proof.Machine.execHeartbeatMsg port m s
  | .staleMsg port m => Sys2Proof.Machine.execStaleMsg port m s
  | .lostMsg port m => Sys2Proof.Machine.execLostMsg port m s
  | .notifyMsg port m => Sys2Proof.Machine.execNotifyMsg port m s
  | .bar2Access fn offset size write => Sys2Proof.Machine.execBar2Access fn offset size write s
  | .apertureAccess fn offset access => Sys2Proof.Machine.execApertureAccess fn offset access s
  | .bridgeReadTimeout msgId => Sys2Proof.Machine.execBridgeReadTimeout msgId s
  | .msixUnmask fn vector => Sys2Proof.Machine.execMsixUnmask fn vector s
  | .pcieHotReset => Sys2Proof.Machine.execPcieHotReset s
  | .regWrite pecOk payload => Sys2Proof.Machine.execRegWrite pecOk payload s
  | .regAddr pecOk payload => Sys2Proof.Machine.execRegAddr pecOk payload s
  | .regRead pecOk => Sys2Proof.Machine.execRegRead pecOk s
  | .cfgOpen pecOk payload => Sys2Proof.Machine.execCfgOpen pecOk payload s
  | .cfgData pecOk payload => Sys2Proof.Machine.execCfgData pecOk payload s
  | .cfgClose pecOk payload => Sys2Proof.Machine.execCfgClose pecOk payload s
  | .cfgWriteDone flashOk => Sys2Proof.Machine.execCfgWriteDone flashOk s
  | .cfgStatus pecOk => Sys2Proof.Machine.execCfgStatus pecOk s
  | .alertResponse => Sys2Proof.Machine.execAlertResponse s
  | .unlockReq frame => Sys2Proof.Machine.execUnlockReq frame s
  | .answer frame => Sys2Proof.Machine.execAnswer frame s
  | .pcieLinkUp speed width => Sys2Proof.Machine.execPcieLinkUp speed width s
  | .badAccessRead path win offset size => Sys2Proof.Machine.execBadAccessRead path win offset size s

end Sys2Proof.Machine
end

