-- ==== Sys2Proof/Machine/Idle.lean ====
section
/-! DEFINITION. What an idle cycle of MCLK does. -/

namespace Sys2Proof.Machine

/-- One MCLK cycle with no command (DESIGN CHOICE, log entry 2): MCLK_COUNT counts (R378) while MCLK runs, the fabric moves flits (R288,
R302), and at every 500th cycle SCLK has an edge (R304). Before AON is up the housekeeping logic serves the slow copies (R471). -/
def idle (s : State) : State :=
  if !s.aonUp then (if s.vin then s.refreshSlow else s)
  else if s.clocksLost.contains 42 then s
  else
    let s1 := (List.range 20).foldl State.idlePort { s with mclk := s.mclk + 1 }.moveFlits
    if s1.mclk % 500 = 0 then s1.refreshSlow else s1

end Sys2Proof.Machine
end

