-- ==== Sys2Proof/Safety.lean ====
section
/-! DEFINITION. The terms in which the statements are said: a safe step, and the invariant of the module's state. -/

namespace Sys2Proof

open Sys2Proof.Machine

/-- A state whose next step stops neither with a fault nor with a refusal. -/
def Safety.Runs (s : State) : Prop := ∃ t, step s = .next t

/-- What every step keeps: device memory lists each byte that is not 0 once, in ascending order of addresses (R245); the layout is one of
the three of R8; and there are four places for partitions, the five register windows of R372, the 20 ports of R307 and the two halves. -/
structure Safety.Inv (s : State) : Prop where
  memory : Tbl.ok 0 s.mem = true
  layout : s.quartersPer = 4 ∨ s.quartersPer = 2 ∨ s.quartersPer = 1
  parts : s.parts.length = 4
  windows : s.windows.length = 5
  ports : s.ports.length = 20
  halves : s.halves.length = 2

/-- What the module's fuses, ROM and Kwadar root hold for good: the serial number, the stepping, the digests in fuses and ROM, and the
identity key with its certificate (R426, R439, R440, R442). -/
def Safety.identity (s : State) : Nat × Nat × List (List Byte) :=
  (s.serial, s.stepping, [s.romDigest, s.boardKeyDigest, s.rootKeyDigest, s.debugKeyDigest, s.identityKey, s.identityPub, s.certificate])

/-! Frames. -/

/-- A partition without its error log. -/
def Safety.sansLog (pt : Part) : Part := { pt with log := [], logSeq := 0, logLost := 0, errTotals := [] }

/-- A register window without its SUMMARY bits. -/
def Safety.sansSummary (w : Window) : Window := { w with summary := 0 }

/-- The module without what an access to memory may change: stored bytes, poison, symbol faults, merge buffers, trackers and repairs, the
error logs, and the SUMMARY bits that tell of them. -/
def Safety.sansData (s : State) : State :=
  { s with parts := s.parts.map sansLog, windows := s.windows.map sansSummary, mem := [], poison := [], faults := [], merge := [],
           trackers := [], remaps := [], fuseScheduled := [] }

/-- Nothing but that differs between two states. -/
def Safety.OnlyData (s t : State) : Prop := sansData t = sansData s

/-- The module without what a packet's work may change: what accesses to memory change, the packets of the partition, and the busy, stall
and residue counts, banks and riddles of arrays. -/
def Safety.sansWork (p : Nat) (s : State) : State :=
  { sansData s with parts := (s.parts.map sansLog).modify p fun pt => { pt with packets := [] }, busy := [], stall := [], residues := [],
                    banks := [], riddles := [], retiring := [] }

/-- Nothing but that differs between two states. -/
def Safety.OnlyWork (p : Nat) (s t : State) : Prop := sansWork p t = sansWork p s

/-- Device memory after writes, one after the other. -/
def Safety.written (m : Tbl Byte) (ws : List Write) : Tbl Byte := ws.foldl (fun m w => putBytes m w.addr w.bytes) m

end Sys2Proof
end

