-- ==== Sys2Proof/Certificates/Slice0/Obligations.lean ====
section
/-! DEFINITION. The statements for the provers. -/

open Sys2Proof Sys2Proof.Machine

/-- A step takes the command at the front of the queue and runs exec on it with the queue's rest; on an empty queue one idle cycle of
MCLK passes (the model's choice, log entry 2). -/
def Obligations.StepRunsFront : Prop :=
  (∀ (c : Instr) (rest : List Instr) (s : State), s.pending = c :: rest → step s = exec c { s with pending := rest })
    ∧ ∀ s : State, s.pending = [] → step s = .next (idle s)

/-- No command stops the block, and none touches the queue. -/
def Obligations.QueueUntouched : Prop :=
  ∀ (c : Instr) (s : State), ∃ t, exec c s = .next t ∧ t.pending = s.pending

/-- The state after reset has the invariant. -/
def Obligations.ResetHasInvariant : Prop := Safety.Inv State.reset

/-- Every step keeps the invariant. -/
def Obligations.StepKeepsInvariant : Prop :=
  ∀ s t : State, Safety.Inv s → step s = .next t → Safety.Inv t

/-- No command changes the serial number, the stepping, the digests in fuses and ROM, or the identity key and its certificate. -/
def Obligations.IdentityKept : Prop :=
  ∀ (c : Instr) (s t : State), exec c s = .next t → Safety.identity t = Safety.identity s

/-! Terms of the statements about packets. -/

/-- A packet `k` that has issued, been validated and stands ready to run an opcode, with its context `c`, in a module that is not in the
fatal state (R36, R412). -/
structure Claims.Ready (s : State) (p : PacketRef) (opcode : Nat) (k : Packet) (c : Ctx) : Prop where
  found : s.packet p = some k
  opcode : k.hdr.opcode = opcode
  phase : k.phase = .ready
  alive : s.fatal = false
  ctx : s.ctx p.part k = some c

/-- A packet that runs, at work on messages or parts of its job. -/
structure Claims.Running (s : State) (p : PacketRef) (opcode : Nat) (k : Packet) (c : Ctx) : Prop where
  found : s.packet p = some k
  opcode : k.hdr.opcode = opcode
  phase : k.phase = .running
  alive : s.fatal = false
  ctx : s.ctx p.part k = some c

/-- The arrays of a packet's engine run, and every granule that its work touches can be reached (R11, R252, R305). -/
def Claims.Reached (s : State) (k : Packet) (w : WorkOut) : Prop :=
  s.engineDown k = false ∧ (s.accessCodes k.carriers w.reads w.writes).contains ERR_PEER_UNREACHABLE = false

/-- The result of work that reached its memory: its own, with the codes met by reading and by a residue mismatch (R48, R103, R274). -/
def Claims.result (s : State) (k : Packet) (w : WorkOut) : Result :=
  { w.res with codes := w.res.codes ++ (s.accessCodes k.carriers w.reads w.writes ++ if w.mismatched.isEmpty then [] else [ERR_DATAPATH]) }

/-- What a packet's work leaves: its packet is `k'`, every other packet is found as before, nothing but what work may change has changed
(Safety.OnlyWork: every register, ring, counter and setting stays), and where no stored symbol is in error device memory holds the work's
writes and is otherwise as it was. -/
structure Claims.Works (s t : State) (p : PacketRef) (w : WorkOut) (k' : Packet) : Prop where
  packet : t.packet p = some k'
  others : ∀ r, r ≠ p → t.packet r = s.packet r
  frame : Safety.OnlyWork p.part s t
  memory : s.faults = [] → t.mem = Safety.written s.mem w.writes

/-- One command of the opcodes that do all their work when they run: the opcode's code, the variant the command takes, and its work. -/
structure Claims.OpcodeRow where
  cmd : Instr
  code : Nat
  variant : Ctx → Bool
  work : Ctx → WorkOut

/-- A record of effects for a completion, with no work before it. -/
def Claims.effects (es : List Effect) : WorkOut := WorkOut.of { Result.empty with effects := es }

/-- The commands of the opcodes that do all their work when they run (R36), with the work that the opcode's chapter gives it. -/
def Claims.opcodeRows (p : PacketRef) : List Claims.OpcodeRow :=
  let all := fun (_ : Ctx) => true
  [⟨.configGet p, 0x0102, all, fun c =>
      { reads := [], writes := [⟨c.addr 8, c.configItems.flatMap fun i => toLe 8 (c.s.configItem c.p i), false⟩], res := Result.empty }⟩,
   ⟨.gangForm p, 0x0104, all, fun c => Claims.effects [.gangForm (c.u 0 2 - 0x100) c.gangMembers]⟩,
   ⟨.gangDissolve p, 0x0105, all, fun c => Claims.effects [.gangDissolve (c.u 0 2 - 0x100)]⟩,
   ⟨.matmul p, 0x0201, fun c => c.snap.c3, fun c => c.c3Work c.matmulJob⟩,
   ⟨.spsp p, 0x0204, fun c => (c.desc 2).kind == 1 && c.spspJob.split == 1, fun c => c.spspCsrWork c.spspJob⟩,
   ⟨.predictActive p, 0x0207, all, Ctx.predictWork⟩,
   ⟨.compress p, 0x0208, all, Ctx.compressWork⟩,
   ⟨.maskedit p, 0x0209, all, Ctx.maskeditWork⟩,
   ⟨.twinBuild p, 0x020A, all, Ctx.twinWork⟩,
   ⟨.eltwise p, 0x0301, all, Ctx.eltwiseWork⟩,
   ⟨.reduceDim p, 0x0302, all, Ctx.reduceWork⟩,
   ⟨.softmaxBwd p, 0x0303, all, Ctx.softmaxWork⟩,
   ⟨.normBwd p, 0x0304, all, Ctx.normWork⟩,
   ⟨.quantize p, 0x0305, all, Ctx.quantizeWork⟩,
   ⟨.updateWeight p, 0x0306, all, Ctx.updateWork⟩,
   ⟨.dress p, 0x0401, all, fun c => let r := c.permuted (c.u 0x10 2) (c.rgroup 0x18); c.layoutOut r.1 r.2⟩,
   ⟨.windowExpand p, 0x0402, all, fun c => let r := c.expanded; c.layoutOut r.1 r.2⟩,
   ⟨.copyTensor p, 0x0403, all, fun c => let r := c.permuted permIdentity (c.rgroup 0x10); c.layoutOut r.1 r.2⟩,
   ⟨.epochSetAdvance p, 0x0607, fun c => c.u 0xE 1 == 0, fun c =>
      WorkOut.of { Result.of [] 0 c.epochList.length 0 with effects := [.epochSet (c.u 8 4) c.epochList false] }⟩,
   ⟨.epochSetJoin p, 0x0607, fun c => c.u 0xE 1 == 1, fun c =>
      WorkOut.of { Result.of [] 0 c.epochList.length 0 with effects := [.epochSet (c.u 8 4) c.epochList true] }⟩,
   ⟨.decodeVideo p, 0x0702, all, Ctx.decodeWork⟩,
   ⟨.patchify p, 0x0703, all, Ctx.patchWork⟩,
   ⟨.shufflePlan p, 0x0704, all, Ctx.planWork⟩,
   ⟨.layerScaleSet p, 0x0902, fun c => c.u 3 1 != 3, Ctx.layerScaleWork⟩,
   ⟨.layerScaleUnbind p, 0x0902, fun c => c.u 3 1 == 3, fun c => Claims.effects [.layerUnbind (c.u 0 2)]⟩,
   ⟨.emulateSet p, 0x0903, all, fun c => Claims.effects [.emulate (c.u 0 2) (c.u 2 1 == 1)]⟩,
   ⟨.retireUnit p, 0x0A03, all, Ctx.retireWork⟩,
   ⟨.reinstate p true, 0x0A04, all, fun c =>
      let u := c.u 2 2
      if c.s.halvesDown.contains (u / 128) then WorkOut.of (Result.of [ERR_PEER_UNREACHABLE] 0 0 0)
      else Claims.effects (if c.u 0 1 = 1 then [.reinstateSlice u] else [.reinstateArray u])⟩,
   ⟨.reinstate p false, 0x0A04, all, fun c =>
      let u := c.u 2 2
      if c.s.halvesDown.contains (u / 128) then WorkOut.of (Result.of [ERR_PEER_UNREACHABLE] 0 0 0)
      else if c.u 0 1 = 1 then Claims.effects [.reinstateSlice u]
      else if c.s.retired.contains u then WorkOut.of (Result.of [ERR_DATAPATH] 1 (c.s.servingIn (u / 64)) 0)
      else Claims.effects [.reinstateArray u]⟩]

/-- A ready packet of an opcode of Claims.opcodeRows runs to its end (R36, R40, and the chapter of each opcode). -/
def Obligations.OpcodeRuns : Prop :=
  ∀ (p : PacketRef) (row : Claims.OpcodeRow), row ∈ Claims.opcodeRows p →
    ∀ (s : State) (k : Packet) (c : Ctx), Claims.Ready s p row.code k c → row.variant c = true → Claims.Reached s k (row.work c) →
      ∃ t, exec row.cmd s = .next t
        ∧ Claims.Works s t p (row.work c) { k with phase := .finished, res := Claims.result s k (row.work c) }

/-- A packet that meets what cannot be reached ends with ERR_PEER_UNREACHABLE (R11, R252, R305); that it writes nothing is the model's
choice (log entry 8). -/
def Obligations.UnreachableWritesNothing : Prop :=
  ∀ (p : PacketRef) (row : Claims.OpcodeRow), row ∈ Claims.opcodeRows p →
    ∀ (s : State) (k : Packet) (c : Ctx), Claims.Ready s p row.code k c → row.variant c = true →
      (s.engineDown k = true ∨ (s.engineDown k = false ∧ (s.accessCodes k.carriers (row.work c).reads (row.work c).writes).contains ERR_PEER_UNREACHABLE = true)) →
      ∃ t k', exec row.cmd s = .next t ∧ t.packet p = some k' ∧ k'.phase = .finished ∧ k'.hdr = k.hdr
        ∧ k'.res.codes.contains ERR_PEER_UNREACHABLE = true ∧ (∀ r, r ≠ p → t.packet r = s.packet r)
        ∧ Safety.OnlyWork p.part s t ∧ (s.faults = [] → t.mem = s.mem)

/-- The commands of the products (R104–R115, R166–R175, R190–R194, R236, R237): the opcode, the variant the command takes, and its job. -/
def Claims.productRows (p : PacketRef) : List (Instr × Nat × (Ctx → Bool) × (Ctx → Job)) :=
  [(.matmul p, 0x0201, fun c => !c.snap.c3, Ctx.matmulJob),
   (.spmmCsr p, 0x0202, fun _ => true, Ctx.sparseJob),
   (.spmmNm p, 0x0203, fun _ => true, Ctx.sparseJob),
   (.spsp p, 0x0204, fun c => !((c.desc 2).kind == 1 && c.spspJob.split == 1), Ctx.spspJob),
   (.sddmm p, 0x0205, fun _ => true, Ctx.sddmmJob),
   (.groupedMatmul p, 0x0206, fun _ => true, Ctx.groupedJob)]

/-- A ready product runs (R104, R112, R115, R170, R175, R194, R237). -/
def Obligations.ProductRuns : Prop :=
  ∀ (p : PacketRef) (row : Instr × Nat × (Ctx → Bool) × (Ctx → Job)), row ∈ Claims.productRows p →
    ∀ (s : State) (k : Packet) (c : Ctx), Claims.Ready s p row.2.1 k c → row.2.2.1 c = true →
      ∀ (w : WorkOut) (areas : List CombineArea), c.jobWork (row.2.2.2 c) = (w, areas) → Claims.Reached s k w →
      ∃ t, exec row.1 s = .next t
        ∧ Claims.Works s t p w
            (if areas = [] then { k with phase := .finished, res := Claims.result s k w }
             else { k with phase := .running, res := Claims.result s k w, combine := areas })

/-- A combine area is read back (R115). -/
def Obligations.SplitTileCombines : Prop :=
  ∀ (p : PacketRef) (tile : Nat) (s : State) (k : Packet) (c : Ctx) (w : WorkOut) (areas : List CombineArea),
    Claims.Running s p k.hdr.opcode k c →
    (if k.hdr.opcode = 0x0204 ∧ (c.desc 2).kind = 1 then c.combineCsr c.job tile else c.combineTile c.job tile) = some (w, areas) →
    (s.accessCodes k.carriers [] w.writes).contains ERR_PEER_UNREACHABLE = false →
    ∃ t, exec (.splitKCombine p tile) s = .next t
      ∧ Claims.Works s t p w
          { k with phase := if areas.isEmpty then .finished else .running, combine := areas,
                   res := { w.res with codes := w.res.codes ++ s.accessCodes k.carriers [] w.writes } }

/-- What a byte reads as after a packet's writes (R139). -/
def Obligations.WrittenBytes : Prop :=
  ∀ (s t : State) (ws : List Write) (w : Write), Tbl.ok 0 s.mem = true → s.faults = [] → t.faults = [] →
    t.mem = Safety.written s.mem (ws ++ [w]) →
    (∀ a, (∀ v ∈ ws ++ [w], a < v.addr ∨ v.addr + v.bytes.length ≤ a) → t.byte a = s.byte a)
      ∧ ∀ i, i < w.bytes.length → t.byte (w.addr + i) = w.bytes[i]?.getD 0

/-- One command of the opcodes whose work goes with a change of the module's settings: its code, its variant, its work, and the change. -/
structure Claims.SettingRow where
  cmd : Instr
  code : Nat
  variant : Ctx → Bool
  work : Ctx → WorkOut
  change : Ctx → State → State

/-- The settings that CONFIG_SET changes while it runs (R41), a failed value leaving them as they are. -/
def Claims.configRow (cmd : Instr) (kind : Nat) : Claims.SettingRow := ⟨cmd, 0x0101, fun c => c.configKind == kind, Ctx.configSetWork, Ctx.configSetEff⟩

/-- The commands of those opcodes. -/
def Claims.settingRows (p : PacketRef) : List Claims.SettingRow :=
  let all := fun (_ : Ctx) => true
  let nothing := fun (_ : Ctx) => WorkOut.of Result.empty
  [Claims.configRow (.configSet p) 0, Claims.configRow (.quiesceRequest p) 4, Claims.configRow (.standbyRequest p) 5,
   Claims.configRow (.activeRequest p) 3,
   ⟨.unitReset p, 0x0101, fun c => c.configKind == 2, fun c =>
      if c.configApplies && c.s.unitHalfOff ((c.configVals[0xF0000 - c.u 0 4]?).getD 0) then
        { c.configSetWork with res := Result.of [ERR_PEER_UNREACHABLE] 0 0 0 }
      else c.configSetWork,
      fun c s =>
        if c.configApplies && c.s.unitHalfOff ((c.configVals[0xF0000 - c.u 0 4]?).getD 0) then s
        else if c.configApplies then (c.configSetEff s).unitReset c.p ((c.configVals[0xF0000 - c.u 0 4]?).getD 0) else c.configSetEff s⟩,
   ⟨.tsDemux p, 0x0701, all, Ctx.demuxWork, fun c s => s.modPart c.p fun pt =>
      { pt with demuxes := (pt.demuxes.filter fun t => t.area != c.demuxArea) ++ (c.demuxed.1.tail c.demuxArea).toList }⟩,
   ⟨.watchRead p, 0x0901, all, Ctx.watchReadWork, fun c s =>
      if (c.u 4 1).testBit 0 then
        s.modPart c.p fun pt => (List.range c.watchCount).foldl (fun pt i => pt.modWatch (c.u 0 2 + i) WatchSlot.clear) pt
      else s⟩,
   ⟨.scrubSet p, 0x0A01, all, nothing, Ctx.scrubEff⟩,
   ⟨.errlogRead p, 0x0A05, all, fun c =>
      let rs := (c.s.part c.p).log.take c.logCount
      { reads := [], writes := if rs.isEmpty then [] else [⟨c.addr 8, rs.flatMap LogRecord.bytes, false⟩],
        res := Result.of [] rs.length (c.s.part c.p).logLost 0 },
      fun c s => if (c.u 2 1).testBit 0 then
          s.modPart c.p fun pt =>
            { pt with log := pt.log.filter fun r => ((c.s.part c.p).log.take c.logCount).all fun x => decide (x.seq < r.seq),
                      logLost := pt.logLost - (c.s.part c.p).logLost }
        else s⟩,
   ⟨.attest p, 0x0B01, all, fun c => { reads := [], writes := [⟨c.addr 0, c.report, false⟩], res := Result.of [] c.reportLen 0 0 },
      fun c s => (s.modPart c.p fun pt => { pt with nonce := c.nonce, reportCounter := pt.reportCounter + 1 }).drew 32⟩,
   ⟨.hostGen p, 0x0B02, fun c => c.keyOp == 0, fun c =>
      { reads := [], writes := [⟨c.addr 8, padTo 1184 (Config.mlkemKeys (c.s.randomBytes 64)).1, false⟩], res := Result.empty },
      fun c s => (s.modPart c.p fun pt =>
        { pt with host := { pt.host with pendingEk := some (padTo 1184 (Config.mlkemKeys (c.s.randomBytes 64)).1),
                                         pendingDk := some (Config.mlkemKeys (c.s.randomBytes 64)).2 } }).drew 64⟩,
   ⟨.clearHost p, 0x0B02, fun c => c.keyOp == 3, nothing, fun c s => s.modPart c.p fun pt => { pt with host := .none }.unbindQueues⟩,
   ⟨.bounceUnbind p, 0x0B03, fun c => c.bounceOp == 1, nothing, fun c s =>
      s.modQueue c.p c.bounceQueue fun b => { b with bound := false, named := [] }⟩,
   ⟨.bounceBind p, 0x0B03, fun c => c.bounceOp == 0, nothing, fun c s =>
      let s1 := c.bindQueue s
      (State.bouncePump ((s1.part c.p).queue c.bounceQueue).waiting.length c.p c.bounceQueue s1).flushAll c.p⟩]

/-- A ready packet of Claims.settingRows runs to its end, and its setting changes (R41, R90, R277, R286, R427, R428, R430, R435, R457,
R460). -/
def Obligations.SettingsRun : Prop :=
  ∀ (p : PacketRef) (row : Claims.SettingRow), row ∈ Claims.settingRows p →
    ∀ (s : State) (k : Packet) (c : Ctx), Claims.Ready s p row.code k c → row.variant c = true → Claims.Reached s k (row.work c) →
      ∃ t, Claims.Works s t p (row.work c) { k with phase := .finished, res := Claims.result s k (row.work c) }
        ∧ exec row.cmd s = .next (row.change c t)

/-- HOST_ACCEPT (R429, R434). -/
def Obligations.HostKeysAccepted : Prop :=
  ∀ (p : PacketRef) (s : State) (k : Packet) (c : Ctx), Claims.Ready s p 0x0B02 k c → c.keyOp = 1 →
    (c.acceptsKeys = true →
      let w : WorkOut := { reads := [(c.addr 8, 1088)],
                           writes := [⟨c.addr 8 + 0x440, gcmTag c.hostKeys.2.1 (nonce96 c.hostKeys.2.2 (2 ^ 64 - 1)) [] [], false⟩],
                           res := Result.empty }
      (s.part p.part).host.pendingDk.isSome = true → Claims.Reached s k w →
      ∃ t, Claims.Works s t p w { k with phase := .finished, res := Claims.result s k w }
        ∧ exec (.hostAccept p) s = .next (t.modPart p.part fun pt =>
            { pt with host := ⟨none, none, pt.host.pendingEk, c.hostKeys.1, c.hostKeys.2.1, c.hostKeys.2.2, true⟩,
                      bounce := pt.bounce.map fun q => (q.1,
                        { q.2 with inProd := 0, inCons := 0, outProd := 0, outCons := 0, inSeq := 0, outSeq := 0 }) }))
    ∧ ((s.part p.part).host.pendingDk = none → c.acceptsKeys = false →
      let w : WorkOut := { reads := [(c.addr 8, 1088)], writes := [], res := { Result.of [ERR_DESCRIPTOR] 0 0 0 with field := 0 } }
      Claims.Reached s k w →
      ∃ t, Claims.Works s t p w { k with phase := .finished, res := Claims.result s k w } ∧ exec (.hostAccept p) s = .next t)

/-- REMAP_ADD (R280, R281). -/
def Obligations.RemapAdds : Prop :=
  ∀ (p : PacketRef) (s : State) (k : Packet) (c : Ctx), Claims.Ready s p 0x0A02 k c → s.engineDown k = false →
    let a := c.addr 0
    let g := a / 64 * 64
    let end_ := fun (r : Result) => { k with phase := .finished, res := Claims.result s k (WorkOut.of r) }
    (s.addrUp a = true → s.isRemapped a = false → 0 < s.remapRoom a → ∀ (m : MemKind) (u off : Nat), s.localOf a = some (m, u, off) →
      ∃ t, exec (.remapAdd p) s = .next t ∧ t.packet p = some (end_ (Result.of [] 1 (s.remapRoom a - 1) 0))
        ∧ (∃ e : Remap, t.remaps = s.remaps ++ [e] ∧ e.mem = m ∧ e.unit = u ∧ e.granule = off / 64 ∧ e.persist = (c.u 8 1).testBit 0
            ∧ e.serial = s.unitSerial m u ∧ (∀ i, i < 64 → Tbl.get 0 e.own i = s.beneath (g + i))
            ∧ e.ownPoison = ((unitsIn g 64).filter s.poison.contains).map (· - g))
        ∧ (∀ r, r ≠ p → t.packet r = s.packet r) ∧ Safety.OnlyWork p.part s t ∧ t.faults = s.faults
        ∧ (let moved := if s.faults = [] then s else (granuleCodewords g).foldl State.moveCw s
           t.mem = moved.mem ∧ t.poison = moved.poison)
        ∧ (Tbl.ok 0 s.mem = true → ∀ b, b < g ∨ g + 64 ≤ b → Tbl.get 0 t.mem b = Tbl.get 0 s.mem b))
    ∧ (s.addrUp a = true → s.isRemapped a = true →
      ∃ t, exec (.remapAdd p) s = .next t ∧ t.packet p = some (end_ (Result.of [] 0 (s.remapRoom a) 0))
        ∧ t.remaps = s.remaps ∧ (∀ r, r ≠ p → t.packet r = s.packet r) ∧ Safety.OnlyWork p.part s t ∧ t.mem = s.mem)
    ∧ (s.addrUp a = true → s.isRemapped a = false → s.remapRoom a = 0 →
      ∃ t, exec (.remapAdd p) s = .next t ∧ t.packet p = some (end_ { Result.of [ERR_DESCRIPTOR] 0 0 0 with field := 0 })
        ∧ t.remaps = s.remaps ∧ (∀ r, r ≠ p → t.packet r = s.packet r) ∧ Safety.OnlyWork p.part s t ∧ t.mem = s.mem)
    ∧ (s.addrUp a = false →
      ∃ t, exec (.remapAdd p) s = .next t ∧ t.packet p = some (end_ (Result.of [ERR_PEER_UNREACHABLE] 0 0 0))
        ∧ t.remaps = s.remaps ∧ (∀ r, r ≠ p → t.packet r = s.packet r) ∧ Safety.OnlyWork p.part s t ∧ t.mem = s.mem)

/-- The phase of an UPDATE or MASKEDIT at the front of its entry's turns (R206, R212): an UPDATE waits while the old version has references,
a MASKEDIT while either version has. -/
def Claims.turnPhase (opcode : Nat) (v : VersionEntry) : Phase :=
  if (if opcode = 0x0306 then v.refOld else v.refCur + v.refOld) = 0 then .ready else .refWait

/-- The ends of turns and of waits for references (R206, R212, R404). -/
def Obligations.TurnsAndWaitsEnd : Prop :=
  ∀ (p : PacketRef) (s : State) (k : Packet), s.packet p = some k → s.fatal = false →
    (∀ (e : Nat) (v : VersionEntry), (s.part p.part).turnEntry k = some (e, v) →
      (k.phase = .turnWait → v.turns.head? = some (k.ring, k.idx) →
        exec (.updateTurn p) s = .next (s.setPacket p.part
          { k with phase := Claims.turnPhase k.hdr.opcode v,
                   work := if Claims.turnPhase k.hdr.opcode v = .refWait ∧ k.hdr.opcode = 0x0306 then [1] else k.work }))
      ∧ (k.phase = .refWait → k.hdr.opcode = 0x0306 → v.refOld = 0 →
        exec (.updateOldVersionReleased p) s = .next (s.setPacket p.part { k with phase := .ready }))
      ∧ (k.phase = .refWait → k.hdr.opcode = 0x0209 → v.refCur + v.refOld = 0 →
        exec (.maskeditRefsReleased p) s = .next (s.setPacket p.part { k with phase := .ready })))
    ∧ (∀ c, s.ctx p.part k = some c → k.hdr.opcode = 0x0805 → k.phase = .refWait → c.restoreWaits = false →
        exec (.restoreEntryWaitEnd p) s = .next (s.setPacket p.part { k with phase := .ready }))

/-- RETIRE_DRAIN_END (R127) and POOL_RESIZE (R254). -/
def Obligations.WaitingPacketsRun : Prop :=
  ∀ (p : PacketRef) (s : State) (k : Packet), s.packet p = some k → s.fatal = false → k.phase = .refWait →
    let s1 := s.setPacket p.part { k with phase := .ready }
    ∀ c, s1.ctx p.part { k with phase := .ready } = some c →
      (k.hdr.opcode = 0x0A03 → (s.part p.part).drained k.work = true → Claims.Reached s1 { k with phase := .ready } c.retireWork →
        ∃ t, exec (.retireDrainEnd p) s = .next t
          ∧ Claims.Works s t p c.retireWork { k with phase := .finished, res := Claims.result s1 k c.retireWork })
      ∧ (k.hdr.opcode = 0x0101 → c.configKind = 1 → (s.part p.part).reserved = false →
        Claims.Reached s1 { k with phase := .ready } c.configSetWork →
        ∃ t, Claims.Works s t p c.configSetWork { k with phase := .finished, res := Claims.result s1 k c.configSetWork }
          ∧ exec (.poolResize p) s = .next (c.configSetEff t))

/-- RING_BIND (R25, R29, R97); what becomes of a slot fetched and not issued is the model's choice (log entry 93). -/
def Obligations.RingBindApplies : Prop :=
  ∀ (p : PacketRef) (s : State) (k : Packet) (c : Ctx) (unbind : Bool),
    let cmd : Instr := if unbind then .ringUnbind p else .ringBind p
    let old := (s.part p.part).ring c.bindRing
    let fresh : Ring := { Ring.unbound with binding := if c.unbinds then none else some c.binding, c3 := old.c3 }
    let done := fun (n : Nat) =>
      (s.setPacket p.part { k with phase := .finished, res := Claims.result s k (WorkOut.of (Result.of [] n 0 0)) }).modRing p.part c.bindRing
        fun _ => fresh
    s.engineDown k = false →
    (Claims.Ready s p 0x0103 k c → c.unbinds = unbind → old.binding = none → exec cmd s = .next (done 0))
      ∧ (Claims.Ready s p 0x0103 k c → c.unbinds = unbind → old.binding.isSome = true →
        exec cmd s = .next (s.setPacket p.part { k with phase := .refWait }))
      ∧ (s.packet p = some k → s.ctx p.part k = some c → k.hdr.opcode = 0x0103 → k.phase = .refWait → s.fatal = false →
        ((s.part p.part).packets.all fun x => x.ring != c.bindRing) = true →
        exec (.ringRebindApply p) s = .next (done ((old.tail + 2 ^ 32 - old.head) % 2 ^ 32 - if old.fetched.isSome then 1 else 0)))

/-! Terms of the statements about rings. -/

/-- The window at which an access to slot `slot` arrives (R321): BAR0 of a function shows its partition's quarters at slots 0 on and the device window at 4;
other paths name the window itself. -/
def Claims.Slot (s : State) (path : Path) (slot win : Nat) : Prop :=
  match path with
  | .bar0 fn => (slot = 4 ∧ win = 4) ∨ (slot < 4 ∧ slot < s.quartersPer ∧ win = fn + slot)
  | _ => win = slot

/-- Whether a doorbell write is one that R26 does not ignore: the ring is bound, the new tail lies at most 2^RING_LOG2 slots beyond the head,
and the new completion head does not pass the completion tail. -/
def Claims.DoorbellTaken (r : Ring) (data : Word) : Prop :=
  ∃ b, r.binding = some b ∧ (data.toNat % 2 ^ 32 + 2 ^ 32 - r.head) % 2 ^ 32 ≤ 2 ^ b.ringLog2
    ∧ (data.toNat / 2 ^ 32 + 2 ^ 32 - r.cqHead) % 2 ^ 32 ≤ (r.cqTail + 2 ^ 32 - r.cqHead) % 2 ^ 32

/-- A write of a doorbell that is ignored: DB_REJECT of the doorbell's window names the ring, SUMMARY has its bit 0, and nothing else of the
module changes. -/
def Claims.DoorbellRejected (s t : State) (q k : Nat) : Prop :=
  t = { s with windows := t.windows } ∧ (∀ w, w ≠ q → t.window w = s.window w)
    ∧ t.window q = { s.window q with dbReject := (s.window q).dbReject ||| BitVec.ofNat 64 (2 ^ k),
                                     summary := (s.window q).summary ||| 1 }

/-- The doorbell (R26): what a write sets, the three cases in which it is ignored, and what a read returns. Every other case of a doorbell
write has its own statement: BounceDoorbells, DoorbellWakes. -/
def Obligations.DoorbellRule : Prop :=
  ∀ (path : Path) (q slot k : Nat) (data : Word) (s : State), s.pathReaches path q = true → Claims.Slot s path slot q → k < 64 → s.windows.length = 5 →
    let p := s.lowQ q
    let ring := 64 * (q - p) + k
    let r := (s.part p).ring ring
    ((s.part p).pstate ≠ .quiesce → (s.part p).pstate ≠ .standby → (s.part p).servedBy ring = none →
        ((s.part p).confidential && (s.part p).host.keysSet) = false →
      ∀ cmd ∈ [Instr.doorbellWrite path q k data, Instr.registerWrite path slot (0x1000 + 8 * k) 8 data],
        (Claims.DoorbellTaken r data →
          let s1 := s.modRing p ring fun r => { r with tail := data.toNat % 2 ^ 32, cqHead := data.toNat / 2 ^ 32, stopped := false }
          exec cmd s = .next (if s.fatal then s1 else s1.flush p ring))
        ∧ (¬Claims.DoorbellTaken r data → ∃ t, exec cmd s = .next t ∧ Claims.DoorbellRejected s t q k))
    ∧ exec (.rcRegisterRead path slot (0x1000 + 8 * k)) s
        = .next (s.emit (.readData path (toLe 8 ((r.head + r.cqTail * 2 ^ 32) % 2 ^ 64))))

/-- The doorbell of a ring that a bound bounce queue serves (R435). -/
def Obligations.BounceDoorbells : Prop :=
  ∀ (path : Path) (q k n : Nat) (data : Word) (s : State), s.pathReaches path q = true → k < 64 → s.windows.length = 5 →
    let p := s.lowQ q
    let ring := 64 * (q - p) + k
    let b := (s.part p).queue n
    let prod := data.toNat % 2 ^ 32
    let cons := data.toNat / 2 ^ 32
    let taken := (prod + 2 ^ 32 - b.inCons) % 2 ^ 32 ≤ 2 ^ b.log2 ∧ (cons + 2 ^ 32 - b.outCons) % 2 ^ 32 ≤ (b.outProd + 2 ^ 32 - b.outCons) % 2 ^ 32
    let s1 := s.modQueue p n fun b => { b with inProd := prod, outCons := cons }
    let s2 := if prod = b.inCons ∨ b.stopped = true then s1 else s1.emit (.hostFetch p n b.inCons prod)
    (s.part p).pstate ≠ .quiesce → (s.part p).pstate ≠ .standby → (s.part p).servedBy ring = some n →
    ∀ cmd ∈ [Instr.doorbellWrite path q k data, Instr.bounceDoorbellWrite path q k data],
      (taken → exec cmd s = .next ((State.bouncePump b.waiting.length p n s2).flushAll p))
      ∧ (¬taken → ∃ t, exec cmd s = .next t ∧ Claims.DoorbellRejected s t q k)

/-- A doorbell write to a partition in QUIESCE or STANDBY (R461), and to a ring that confidential mode closes (R431). -/
def Obligations.DoorbellWakes : Prop :=
  ∀ (path : Path) (q k : Nat) (data : Word) (s : State), s.pathReaches path q = true → k < 64 → s.windows.length = 5 → s.parts.length = 4 →
    let p := s.lowQ q
    let ring := 64 * (q - p) + k
    ((s.part p).pstate = .quiesce →
        exec (.doorbellWrite path q k data) s = exec (.doorbellWrite path q k data) (s.modPart p Part.activate)
        ∧ ((s.modPart p Part.activate).part p).pstate = .active)
      ∧ ((s.part p).pstate = .standby → ∃ t, exec (.doorbellWrite path q k data) s = .next t
        ∧ Claims.DoorbellRejected (s.modPart p fun pt => { pt with pstate := .waking, pstateReq := 0 }) t q k)
      ∧ ((s.part p).pstate = .active → (s.part p).servedBy ring = none → (s.part p).confidential = true → (s.part p).host.keysSet = true →
        ∃ t, exec (.doorbellWrite path q k data) s = .next t ∧ Claims.DoorbellRejected s t q k)

/-- SLOT_FETCH (R27). -/
def Obligations.SlotFetches : Prop :=
  ∀ (part ring : Nat) (s : State) (b : Binding), s.mayFetch part ring = true →
    ((s.part part).ring ring).binding = some b →
    let head := ((s.part part).ring ring).head
    let a := b.base + 256 * (head % 2 ^ b.ringLog2)
    s.reachable a 256 = true →
    ∃ u, Safety.OnlyData s u ∧ (s.faults = [] → u.mem = s.mem) ∧
      ((s.badOf a 64 = [] → s.readNat (a + 4) 4 = head →
          exec (.slotFetch part ring) s = .next (u.modRing part ring fun r =>
            { r with fetched := some ⟨s.read a 256, s.badOf (a + 64) 192⟩ }))
        ∧ (s.badOf a 64 ≠ [] ∨ s.readNat (a + 4) 4 ≠ head →
          exec (.slotFetch part ring) s = .next ((u.modRing part ring fun r => { r with stopped := true }).markRing 1 (part + ring / 64) (ring % 64))))

/-- PACKET_ISSUE (R28, R34, R460). -/
def Obligations.PacketIssues : Prop :=
  ∀ (part ring : Nat) (s : State) (f : Fetched) (b : Binding),
    let pt := s.part part
    let r := pt.ring ring
    let h := Header.parse f.bytes
    let mine := pt.packets.filter fun k => k.ring == ring
    let met := fun (enabled : Bool) (ctr val : Nat) => enabled = false ∨ 4096 * s.quartersPer ≤ ctr ∨ val ≤ Tbl.get 0 pt.counters ctr
    r.fetched = some f → r.binding = some b →
    let may := s.isPart part = true ∧ s.fatal = false ∧ pt.pstate = .active ∧ r.stopped = false ∧ s.rebinding part ring = false
      ∧ mine.length < 64 ∧ (r.cqTail + 2 ^ 32 - r.cqHead) % 2 ^ 32 < 2 ^ b.cqLog2 ∧ (∀ k ∈ mine, k.phase ≠ .recordHeld)
      ∧ (h.flags.testBit 4 = true → mine = []) ∧ met (h.flags.testBit 1) h.wait0Ctr h.wait0Val ∧ met (h.flags.testBit 2) h.wait1Ctr h.wait1Val
    (may →
      let k := Packet.issued ring r.head b.cls f
      exec (.packetIssue part ring) s = .next ((s.modPart part fun pt =>
        { pt.modRing ring (fun r => { r with head := (r.head + 1) % 2 ^ 32, fetched := none }) with packets := pt.packets ++ [k] }).takeUp part k))
    ∧ (¬may → exec (.packetIssue part ring) s = .next s)

/-- The completion record (R47). -/
def Obligations.RecordLayout : Prop :=
  ∀ (k : Packet) (i cqLog2 : Nat),
    let b := k.record i cqLog2
    b.length = 32 ∧ fieldAt b 0x00 4 = k.hdr.tag % 2 ^ 32 ∧ fieldAt b 0x04 2 = k.status % 2 ^ 16 ∧ fieldAt b 0x06 2 = k.hdr.opcode % 2 ^ 16
      ∧ fieldAt b 0x08 4 = k.hdr.seq % 2 ^ 32 ∧ fieldAt b 0x0C 4 = clampMapOf k.allClamps % 2 ^ 32
      ∧ fieldAt b 0x14 4 = min k.res.count0 0xFFFFFFFF ∧ fieldAt b 0x18 4 = min k.res.count1 0xFFFFFFFF
      ∧ fieldAt b 0x1C 2 = k.ring % 2 ^ 16 ∧ fieldAt b 0x1E 1 = 0 ∧ fieldAt b 0x1F 1 = 1 - (i / 2 ^ cqLog2) % 2
      ∧ fieldAt b 0x10 4 / 2 ^ 24 = k.res.opflags % 256 ∧ fieldAt b 0x10 4 / 2 ^ 16 % 2 ^ 8 = k.res.field % 256
      ∧ fieldAt b 0x10 4 / 2 ^ 9 % 2 ^ 7 = 0 ∧ fieldAt b 0x10 4 / 2 ^ 8 % 2 = (if moreErr k.codes then 1 else 0)
      ∧ fieldAt b 0x10 4 % 2 ^ 8 = notesOf k.codes

/-- When several codes apply (R48). -/
def Obligations.StatusHighest : Prop :=
  ∀ k : Packet, k.aborted = false →
    (∀ c ∈ k.codes, c ≤ k.status) ∧ (k.codes = [] → k.status = 0) ∧ (k.codes ≠ [] → k.status ∈ k.codes)
      ∧ (∀ n, 1 ≤ n → n ≤ 6 → ((notesOf k.codes).testBit n = true ↔ n ∈ k.codes))
      ∧ (moreErr k.codes = true ↔ ∃ c d, c ∈ k.codes ∧ d ∈ k.codes ∧ c ≠ d ∧ 0x10 ≤ c ∧ 0x10 ≤ d)

/-- PACKET_COMPLETE (R25, R28, R39, R40). -/
def Obligations.PacketCompletes : Prop :=
  ∀ (p : PacketRef) (s : State) (k : Packet) (b : Binding), s.packet p = some k → k.phase = .finished → k.aborted = false → s.fatal = false →
    s.faults = [] → s.parts.length = 4 →
    k.refs = [] → k.pool = [] → k.hdr.opcode ≠ 0x0802 → k.hdr.flag 5 = false →
    k.res.late = [] → k.res.watch = [] → k.res.slots = [] → k.res.effects = [] → k.res.ternInvalid = 0 → k.res.clipped = 0 →
    let pt := s.part p.part
    let r := pt.ring p.ring
    pt.versions = [] → pt.bounce = [] → (∀ x ∈ pt.packets, x.heldOther = false ∧ x.phase ≠ .recordHeld) →
    r.binding = some b → (b.haltOnError && isError k.status) = false →
    (r.cqTail + 2 ^ 32 - r.cqHead) % 2 ^ 32 < 2 ^ b.cqLog2 →
    let a := b.cqBase + 32 * (r.cqTail % 2 ^ b.cqLog2)
    let bare := k.hdr.flag 6 && !isError k.status
    ∃ t, exec (.packetComplete p) s = .next t
      ∧ (s.reachable a 32 = true → t.mem = if bare then s.mem else Safety.written s.mem [⟨a, k.record r.cqTail b.cqLog2, false⟩])
      ∧ (t.part p.part).ring p.ring = (if bare then r else { r with cqTail := (r.cqTail + 1) % 2 ^ 32 })
      ∧ (∀ i, i ≠ p.ring → (t.part p.part).ring i = pt.ring i)
      ∧ (t.part p.part).packets = pt.packets.filter (fun x => !(x.ring == p.ring && x.idx == p.idx))
      ∧ (t.part p.part).counters = (if k.hdr.flag 3 && decide (k.hdr.sigCtr < 4096 * s.quartersPer) then
          Tbl.set 0 pt.counters k.hdr.sigCtr (min (2 ^ 64 - 1) (Tbl.get 0 pt.counters k.hdr.sigCtr + clampNat 1 0xFFFFFFFF k.hdr.sigInc))
          else pt.counters)

/-- RING_SERVICE_GRANT (R44, R46, R293). -/
def Obligations.RingServiceGrants : Prop :=
  ∀ (part : Nat) (res : Resource) (units : Nat) (jobDone : Bool) (s : State), s.isPart part = true → s.fatal = false →
    s.ownsResource part res = true → s.parts.length = 4 →
    let pt := (s.part part).closeWindow
    let cs := pt.contenders res
    let forced := fun i => (pt.ring i).limit ≤ (pt.ring i).wait
    cs ≠ [] → (∀ i ∈ cs, (pt.ring i).binding.isSome = true) →
    ∃ w t, exec (.ringServiceGrant part res units jobDone) s = .next t ∧ w ∈ cs
      ∧ (if ∃ i ∈ cs, forced i then forced w ∧ ∀ i ∈ cs, forced i → i ≤ w else ∀ i ∈ cs, i ≤ w)
      ∧ (∀ i ∈ cs, i ≠ w → (t.part part).ring i = { pt.ring i with wait := min ((pt.ring i).wait + 1) (pt.ring i).limit })
      ∧ (∀ i, i ∉ cs → (t.part part).ring i = pt.ring i)
      ∧ (t.part part).ring w =
          (match (pt.ring w).binding with
           | some b => if b.quota then
               { pt.ring w with wait := 0, granted := (pt.ring w).granted + 1, masked := decide (b.quotaGrants ≤ (pt.ring w).granted + 1) }
               else { pt.ring w with wait := 0 }
           | none => { pt.ring w with wait := 0 })
      ∧ (t.part part).window = pt.window + 1 ∧ (t.part part).packets = pt.packets
      ∧ (∀ x ∈ pt.progress, ¬(x.1 = res ∧ x.2.1 = w) → x ∈ (t.part part).progress)
      ∧ (if jobDone then ∀ x ∈ (t.part part).progress, ¬(x.1 = res ∧ x.2.1 = w)
         else (res, w, (((pt.progress.find? fun x => x.1 == res && x.2.1 == w).map (·.2.2)).getD 0) + units) ∈ (t.part part).progress)
      ∧ (∀ n, res = .array n → ∀ b ∈ Tbl.get [] s.banks n, b.part = part → b.ring ≠ w →
          (∃ x ∈ (t.part part).progress, x.1 = res ∧ x.2.1 = b.ring) → (n, b) ∈ (t.part part).spilled)

/-- EMPTY_GRANT and QUOTA_WINDOW_END (R46, R293). -/
def Obligations.QuotaWindows : Prop :=
  ∀ (part : Nat) (res : Resource) (s : State), part < s.parts.length →
    (s.isPart part = true → s.fatal = false → s.ownsResource part res = true → (s.part part).window < 256 →
      (s.part part).requesters res ≠ [] → (∀ i ∈ (s.part part).requesters res, ((s.part part).ring i).masked = true) →
      exec (.emptyGrant part res) s = .next (s.modPart part fun pt => { pt with window := pt.window + 1 }))
    ∧ ((s.part part).window < 256 → exec (.quotaWindowEnd part) s = .next s)
    ∧ (256 ≤ (s.part part).window → ∃ t, exec (.quotaWindowEnd part) s = .next t ∧ (t.part part).window = 0
        ∧ (∀ i, (t.part part).ring i = { (s.part part).ring i with granted := 0, masked := false })
        ∧ (∀ q, q ≠ part → t.part q = s.part q) ∧ (t.part part).packets = (s.part part).packets ∧ t.windows = s.windows ∧ t.mem = s.mem)

/-! The ends of holds, and an idle cycle. -/

/-- The commands that end a hold before the parameter snapshot, with the kind of hold that each ends (R117, R202, R220, R243, R348, R351, R401,
R405). -/
def Claims.holdRows (p : PacketRef) : List (Instr × (Hold → Bool)) :=
  [(.gangChangeTurn p, (· == .gangChange)),
   (.versionQueueRelease p, fun h => match h with | .versionQueue _ => true | _ => false),
   (.allgatherSlotFree p, (· == .allgather)),
   (.stagingSetFree p, (· == .staging)),
   (.placementHoldRelease p, fun h => match h with | .placement _ => true | _ => false),
   (.snapParityHoldEnd p, fun h => match h with | .generation _ => true | _ => false),
   (.rebuildHoldEnd p, (· == .rebuild))]

/-- The ends of the holds that R34 lists and that have commands of their own. -/
def Obligations.HoldsEnd : Prop :=
  ∀ (p : PacketRef) (row : Instr × (Hold → Bool)), row ∈ Claims.holdRows p →
    ∀ (s : State) (k : Packet), s.packet p = some k → s.fatal = false →
      (∀ h, k.phase = .held h → row.2 h = true → ∃ t, exec row.1 s = .next t ∧
        ∀ (op : OpSpec), opSpec k.hdr.opcode = some op →
          let k0 : Packet := { k with snap := none }
          let sn := (s.gather p.part k0 op).1
          let c : Ctx := ⟨s, p.part, k0, sn⟩
          let hold := c.holdOf op (c.allFails op k.cls).isEmpty
          (∀ h', hold = some h' → t = s.setPacket p.part { k0 with phase := .held h' })
            ∧ (hold = none → ∃ k', t.packet p = some k' ∧ k'.hdr = k.hdr ∧ k'.cls = k.cls ∧ k'.snap.isSome = true
                ∧ (k'.phase = .finished ∨ k'.phase = .ready ∨ k'.phase = .turnWait ∨ k'.phase = .refWait ∨ k'.phase = .poolWait
                  ∨ k'.phase = .held .poolResize)))
      ∧ ((∀ h, k.phase ≠ .held h) → exec row.1 s = .next s)

/-- POOL_RETRY (R255). -/
def Obligations.PoolWaitEnds : Prop :=
  ∀ (part : Nat) (s : State), s.isPart part = true → s.fatal = false →
    let waiting := (s.part part).packets.filter fun k => k.phase == .poolWait || k.heldOther
    (waiting = [] → exec (.poolRetry part) s = .next s)
    ∧ ∀ (k : Packet) (op : OpSpec) (c : Ctx), waiting = [k] → k.phase = .poolWait → s.packet (k.ref part) = some k →
        opSpec k.hdr.opcode = some op → s.ctx part k = some c → (s.part part).resizing = false →
        let bufs := (op.buffers c).filter fun b => decide (0 < b.bytes)
        bufs ≠ [] →
        let room := s.placesFor part k.hdr.opcode bufs
        (room = none → exec (.poolRetry part) s = .next (s.setPacket part { k with phase := .poolWait }))
        ∧ (∀ places, room = some places → ∃ u, exec (.poolRetry part) s = .next u
            ∧ (u.part part).spillHbm = satAdd (2 ^ 64 - 1) (s.part part).spillHbm (places.filter fun x => x.1 = .hbm).length
            ∧ (u.part part).poolWaits = (s.part part).poolWaits
            ∧ ∃ k', u.packet (k.ref part) = some k' ∧ k'.pool = places ∧ k'.hdr = k.hdr ∧ k'.phase ≠ .poolWait)

/-- A flit of 256 bytes (Table 13.1): type, sequence number, acknowledgement, channel, returned credits, payload, CRC-32C and reserved bytes. -/
def Claims.flit (ftype seq ack : Nat) (ackValid : Bool) (vc : Nat) (credit : Option (Nat × Nat)) (payload : List Byte) : List Byte :=
  let b := toLe 2 (4096 * ftype + seq) ++ toLe 2 ((if ackValid then 4096 else 0) + ack) ++ toLe 1 vc
    ++ (match credit with | some (v, n) => toLe 1 (128 + v) ++ toLe 2 n | none => toLe 3 0) ++ payload
  b ++ toLe 4 (crc32c b) ++ toLe 4 0

/-- The credits that a port's next flit returns (R308, R311): those of the lowest channel that owes any. -/
def Claims.owes (p : Port) : Option (Nat × Nat) := ((List.range 4).map fun v => (v, p.owed[v]?.getD 0)).find? fun x => decide (0 < x.2)

/-- A port that is up and has an acknowledgement or credits to tell. -/
def Claims.Tells (p : Port) : Prop := p.state = .up ∧ (p.ackDue = true ∨ (Claims.owes p).isSome = true)

/-- A step on an empty queue (log entries 2 and 100). -/
def Obligations.IdleCycles : Prop :=
  ∀ s : State, s.pending = [] → s.ports.length = 20 → ∃ t, step s = .next t
    ∧ t.parts = s.parts ∧ t.windows = s.windows ∧ t.mem = s.mem ∧ t.poison = s.poison ∧ t.faults = s.faults ∧ t.merge = s.merge
    ∧ t.pending = [] ∧ s.out <+: t.out
    ∧ (let runs := s.aonUp && !s.clocksLost.contains 42
       let still := ∀ x ∈ s.fabric, x.queued = [] ∧ x.held = [] ∧ x.back = []
       t.mclk = (if runs then s.mclk + 1 else s.mclk)
        ∧ (runs = true → ∀ i, i < 20 → Claims.Tells (s.port i) →
            Out.flit i (Claims.flit 1 0 ((s.port i).rxLast % 4096) (s.port i).rxAny 0 (Claims.owes (s.port i)) (List.replicate 240 0)) ∈ t.out)
        ∧ (runs = true → still → t.fabric = s.fabric ∧ ((∀ i, i < 20 → ¬Claims.Tells (s.port i)) → t.out = s.out))
        ∧ (runs = true → (s.mclk + 1) % 500 ≠ 0 → t.slowPower = s.slowPower ∧ ∀ i, i < 20 →
            (Claims.Tells (s.port i) → t.port i = { s.port i with
              ackDue := false, owed := (match Claims.owes (s.port i) with | some x => (s.port i).owed.set x.1 0 | none => (s.port i).owed) })
            ∧ (¬Claims.Tells (s.port i) → t.port i = s.port i))
        ∧ (runs = true → (s.mclk + 1) % 500 = 0 → ∀ i, i < 20 → ∀ f ∈ [Port.downs, Port.retrains, Port.replays, Port.msgDrops, Port.tagFails],
            f (t.port i) = ⟨(f (s.port i)).count - (f (s.port i)).subtract, (f (s.port i)).count - (f (s.port i)).subtract, 0⟩))

/-! Registers. -/

/-- The registers that a write changes by themselves (Tables 16.2, 16.3, 16.8): the offset, and the window with the value written. The last three
are not in the device window. -/
def Claims.writtenRegs : List (Nat × (Window → Word → Window)) :=
  [(0x0020, fun w v => { w with scratch := v }), (0x0028, fun w v => { w with scratchS := v }),
   (0x2030, fun w v => { w with alertEn := v.setWidth 10 }), (0x6008, fun w v => { w with bootRingBase := v }),
   (0x6010, fun w v => { w with bootCqBase := v }), (0x6018, fun w v => { w with bootSizes := v.setWidth 16 })]

/-- A bad access recorded in a window, and nothing else (R374, Table 16.3). -/
def Claims.BadAccess (s t : State) (win : Nat) (write : Bool) (path : Path) (offset : Nat) : Prop :=
  t = { s with windows := t.windows } ∧ (∀ w, w ≠ win → t.window w = s.window w)
    ∧ t.window win = { s.window win with badCount := min 0xFFFF ((s.window win).badCount + 1), badWrite := write,
                                         badPath := (match path with | .bar0 _ => 0 | .reg _ => 1 | .smbus => 2), badOffset := offset,
                                         summary := (s.window win).summary ||| 8 }

/-- REGISTER_WRITE (R373, R374, R376, R377). -/
def Obligations.RegisterWrites : Prop :=
  ∀ (path : Path) (slot win size off : Nat) (v : Word) (s : State), Claims.Slot s path slot win → s.reachesWindow path win = true → s.windows.length = 5 → win < 5 → off < 0x8000 →
    let may := win ≠ 4 ∨ path = .smbus ∨ s.quartersPer = 4
    (size = 8 → off % 8 = 0 → may →
      (∀ r ∈ Claims.writtenRegs, r.1 = off → (win = 4 → off < 0x6000) →
        exec (.registerWrite path slot off 8 v) s = .next (s.modWindow win fun w => r.2 w v))
      ∧ ((0x4000 ≤ off ∧ off < 0x6000) ∨ off < 0x0020 → exec (.registerWrite path slot off 8 v) s = .next s))
    ∧ (size ≠ 8 ∨ off % 8 ≠ 0 ∨ ¬may → ∃ t, exec (.registerWrite path slot off size v) s = .next t ∧ Claims.BadAccess s t win true path off)

/-- RC_REGISTER_READ, LINK_COUNTER_READ and BAD_ACCESS_READ (R374, R381, R387). -/
def Obligations.RegisterReads : Prop :=
  ∀ (path : Path) (pos win : Nat) (s : State), Claims.Slot s path pos win → s.reachesWindow path win = true → s.windows.length = 5 → win < 5 →
    let ans := fun (t : State) (b : List Byte) => t.emit (.readData path b)
    let w := s.window win
    (exec (.rcRegisterRead path pos 0x2000) s = .next (ans (s.modWindow win fun w => { w with summary := 0 }) (toLe 8 w.summary.toNat))
      ∧ exec (.rcRegisterRead path pos 0x2008) s = .next (ans (s.modWindow win fun w => { w with dbReject := 0 }) (toLe 8 w.dbReject.toNat))
      ∧ exec (.rcRegisterRead path pos 0x2010) s = .next (ans (s.modWindow win fun w => { w with seqStop := 0 }) (toLe 8 w.seqStop.toNat))
      ∧ exec (.rcRegisterRead path pos 0x2018) s = .next (ans (s.modWindow win fun w => { w with haltStop := 0 }) (toLe 8 w.haltStop.toNat))
      ∧ exec (.rcRegisterRead path pos 0x0020) s = .next (ans s (toLe 8 w.scratch.toNat)))
    ∧ (∀ slot, win ≠ 4 → slot < 5 →
        let i := if slot < 4 then 4 * win + slot else 16 + win
        exec (.linkCounterRead path pos (0x5008 + 64 * slot)) s
          = .next (ans (s.modPort i fun p => { p with downs := { p.downs with subtract := p.downs.copy },
                                                      retrains := { p.retrains with subtract := p.retrains.copy } })
              (toLe 8 (min (s.port i).downs.copy 0xFFFFFFFF * 2 ^ 32 + min (s.port i).retrains.copy 0xFFFFFFFF))))
    ∧ (∀ off size, off < 0x8000 → size ≠ 8 ∨ off % 8 ≠ 0 → ∃ t, Claims.BadAccess s t win false path off
        ∧ exec (.badAccessRead path pos off size) s = .next (ans t (List.replicate size 0xFF)))

/-- WIDE_SEL_WRITE and WIDE_CAPTURE (R383, R384, Table 16.5). -/
def Obligations.WideValues : Prop :=
  ∀ (path : Path) (slot win : Nat) (v : Word) (s : State), win < 5 → s.windows.length = 5 → s.parts.length = 4 →
    (Claims.Slot s path slot win → s.reachesWindow path win = true → win ≠ 4 ∨ path = .smbus ∨ s.quartersPer = 4 →
      exec (.wideSelWrite path slot v) s = .next (s.modWindow win fun w =>
        { w with wideSel := v &&& 0xFF000001FFFFFFFF, wideTag := 0, wideLen := 0, wideBad := false, wideValid := false, widePending := true,
                 wideData := [0, 0, 0, 0] }))
    ∧ ((s.window win).widePending = false → exec (.wideCapture win) s = .next s)
    ∧ ((s.window win).widePending = true →
        let sel := (s.window win).wideSel.toNat
        let tag := sel / 2 ^ 56
        let got := fun (t : State) (x words : Nat) => t.modWindow win fun w =>
          { w with wideTag := tag, wideLen := words, wideValid := true, widePending := false,
                   wideData := [BitVec.ofNat 64 x, BitVec.ofNat 64 (x / 2 ^ 64), BitVec.ofNat 64 (x / 2 ^ 128), BitVec.ofNat 64 (x / 2 ^ 192)] }
        (sel % 2 ^ 32 = 0x0001 → exec (.wideCapture win) s = .next (got s s.serial 2))
        ∧ (∀ ev, sel % 2 ^ 16 = 0x0010 → sel / 2 ^ 16 % 2 ^ 16 = ev → 1 ≤ ev → ev ≤ 0xFF → win ≠ 4 →
            exec (.wideCapture win) s = .next (got (if sel.testBit 32 then
                s.modPart (s.lowQ win) fun pt => { pt with errTotals := Tbl.set 0 pt.errTotals ev 0 } else s)
              (Tbl.get 0 (s.part (s.lowQ win)).errTotals ev) 2))
        ∧ (sel % 2 ^ 16 = 0 ∨ 0x12 ≤ sel % 2 ^ 16 →
            exec (.wideCapture win) s = .next (s.modWindow win fun w => { w with wideTag := tag, wideBad := true, widePending := false })))

/-- STREAM_RESET, PARTITION_RESET and MODULE_RESET (R51, R390, R455, R456, R458, R462). -/
def Obligations.ResetRequests : Prop :=
  (∀ (path : Path) (q : Nat) (cls : StreamClass) (s : State), s.pathReaches path q = true → s.fatal = false → Safety.Inv s →
      s.resetDiscarded (s.lowQ q) = false →
      ∃ t, exec (.streamReset path q cls) s = .next t
        ∧ (t.part (s.lowQ q)).host = .none ∧ (t.part (s.lowQ q)).bounce = []
        ∧ (∀ r b, ((s.part (s.lowQ q)).ring r).binding = some b →
            ((t.part (s.lowQ q)).ring r).binding = some b ∧ ((t.part (s.lowQ q)).ring r).tail = ((s.part (s.lowQ q)).ring r).tail
            ∧ (b.cls = cls → ((t.part (s.lowQ q)).ring r).head = ((s.part (s.lowQ q)).ring r).tail ∧ ((t.part (s.lowQ q)).ring r).fetched = none))
        ∧ t = s.streamReset (s.lowQ q) cls)
  ∧ (∀ (path : Path) (q : Nat) (s : State), s.pathReaches path q = true → s.fatal = false → Safety.Inv s →
      s.resetDiscarded (s.lowQ q) = false →
      ∃ t, exec (.partitionReset path q) s = .next t
        ∧ (t.part (s.lowQ q)).packets = [] ∧ (t.part (s.lowQ q)).counters = []
        ∧ (t.part (s.lowQ q)).members = [] ∧ (t.part (s.lowQ q)).epoch = Part.reset.epoch ∧ (t.part (s.lowQ q)).ready = true
        ∧ (∀ r, r ≠ 64 * t.quartersPer - 1 → (t.part (s.lowQ q)).ring r = Ring.unbound)
        ∧ (∃ b, ((t.part (s.lowQ q)).ring (64 * t.quartersPer - 1)) =
            { Ring.unbound with binding := some b, head := 0, tail := 0, cqTail := 0, cqHead := 0 } ∧ b.cls = .S)
        ∧ ∀ g ∈ (t.part (s.lowQ q)).catalogue, g = Generation.free ∨ g.state = .committed)
  ∧ (∀ (path : Path) (s : State), s.reachesWindow path 4 = true → path = .smbus ∨ s.quartersPer = 4 → s.coldBooting = false →
      s.mainUp = true → s.tripped = false →
      ∃ t, exec (.moduleReset path) s = .next t
        ∧ t.ready = false ∧ t.fatal = decide (s.romMeasure ≠ s.romDigest)
        ∧ t.bootStage = (if s.romMeasure = s.romDigest then 1 else 0) ∧ t.boot = some s.presentEnv ∧ t.bootHeld = false ∧ t.bootModule.isSome = true
        ∧ t.parts = s.parts.map (fun pt => { Part.reset with catalogue := pt.catalogue, confidential := pt.confidential })
        ∧ t.ports = s.ports.map (fun p => { Port.reset false with retired := p.retired, width := p.width })
        ∧ t.merge = [] ∧ t.change = none ∧ t.halvesDown = [] ∧ t.clocksLost = [] ∧ t.residues = []
        ∧ t.mem = s.mem ∧ t.mclk = s.mclk ∧ t.dimms = s.dimms ∧ t.channels = s.channels ∧ t.retired = s.retired
        ∧ t.quartersPer = s.quartersPer ∧ t.debugUnlocked = s.debugUnlocked)
  ∧ (∀ (path : Path) (s : State), s.reachesWindow path 4 = true → path = .smbus ∨ s.quartersPer = 4 → s.coldBooting = false →
      s.mainUp = false ∨ s.tripped = true → exec (.moduleReset path) s = .next s)
  ∧ (∀ (path : Path) (q : Nat) (cls : StreamClass) (s : State), s.pathReaches path q = true → s.fatal = false → Safety.Inv s →
      s.resetDiscarded (s.lowQ q) = true → ∀ cmd ∈ [Instr.streamReset path q cls, Instr.partitionReset path q],
        ∃ t, exec cmd s = .next t ∧ Claims.BadAccess s t q true path 0x6028)
  ∧ (∀ (path : Path) (s : State), s.reachesWindow path 4 = true → path = .smbus ∨ s.quartersPer = 4 → Safety.Inv s → s.coldBooting = true →
      ∃ t, exec (.moduleReset path) s = .next t ∧ Claims.BadAccess s t 4 true path 0x6028)

/-! The sideband (R467 to R473). -/

/-- The payload of REG_WRITE: WIN, OFFSET and 8 bytes of data; and of REG_ADDR, without the data (Table 21.3). -/
def Claims.regPayload (win off : Nat) (data : List Byte) : List Byte := toLe 1 win ++ toLe 2 off ++ data

/-- REG_WRITE, REG_ADDR, REG_READ, ALERT_RESPONSE and GEO_ID_SAMPLE (R467, R469, R471); the form of the alert response is the model's (log entry
38). -/
def Obligations.SidebandAccess : Prop :=
  ∀ s : State, s.vin = true →
    (∀ (win off : Nat) (v : Word), win < 256 → off < 65536 →
      exec (.regWrite true (Claims.regPayload win off (toLe 8 v.toNat))) s =
          (if s.aonUp = true ∧ win < 5 then exec (.registerWrite .smbus win off 8 v) s else .next s)
        ∧ exec (.regAddr true (Claims.regPayload win off [])) s = .next { s with smbusTarget := some (win, off) }
        ∧ (s.smbusTarget = some (win, off) →
            (5 ≤ win → exec (.regRead true) s = .next (s.emit (.smbusReply (1 :: List.replicate 8 0xFF))))
            ∧ (win < 5 → s.aonUp = false → off / 4096 % 8 ≠ 4 → off / 4096 % 8 ≠ 5 →
                exec (.regRead true) s = .next (s.emit (.smbusReply (2 :: List.replicate 8 0))))
            ∧ (win < 5 → s.aonUp = true → off % 8 = 0 →
                exec (.regRead true) s = .next ((s.readClears win off).emit (.smbusReply (0 :: toLe 8 (s.regValue win off).toNat))))))
    ∧ (s.smbusTarget = none → exec (.regRead true) s = .next (s.emit (.smbusReply (3 :: List.replicate 8 0))))
    ∧ exec (.regRead false) s = .next (s.emit .smbusNack)
    ∧ (∀ payload, exec (.regWrite false payload) s = .next (s.emit .smbusNack) ∧ exec (.regAddr false payload) s = .next (s.emit .smbusNack)
        ∧ (payload.length ≠ 11 → exec (.regWrite true payload) s = .next (s.emit .smbusNack)))
    ∧ (s.aonUp = true → (∃ w ∈ s.windows, w.summary &&& w.alertEn ≠ 0) →
        exec .alertResponse s = .next (s.emit (.smbusReply [BitVec.ofNat 8 (2 * (0x40 + if s.pwrEn then s.geoId else s.geoPins))])))
    ∧ (∀ pins, exec (.geoIdSample pins) s = if s.pwrEn then .next s else .next { s with geoPins := pins % 32 })
    ∧ (∀ t : State, t.vin = false → exec (.regRead true) t = .next t ∧ exec .alertResponse t = .next t ∧ exec (.cfgStatus true) t = .next t)

/-- CFG_OPEN, CFG_DATA, CFG_CLOSE, CFG_WRITE_DONE and CFG_STATUS (R472). -/
def Obligations.ConfigurationWrites : Prop :=
  ∀ s : State, s.vin = true → s.aonUp = true →
    let nack := (.next (s.emit .smbusNack) : Host.Outcome State Fault Refusal)
    (∀ b : Byte, exec (.cfgOpen true [b]) s =
      if b = 0x5A ∧ s.cfg.state ≠ 1 then .next { s with cfg := ⟨List.replicate 8192 0, 0⟩ } else nack)
    ∧ (∀ (off : Nat) (data : List Byte), off < 65536 → data.length = 32 → exec (.cfgData true (toLe 2 off ++ data)) s =
        if s.cfg.state ≠ 1 ∧ off % 32 = 0 ∧ off < 8192 then
          .next { s with cfg := { s.cfg with staging := s.cfg.staging.take off ++ data ++ s.cfg.staging.drop (off + 32) } }
        else nack)
    ∧ (∀ b : Byte, exec (.cfgClose true [b]) s = if b = 0xA5 then .next { s with cfg := { s.cfg with state := 1 } } else nack)
    ∧ (∀ flashOk : Bool, s.cfg.state = 1 →
        let img := s.cfg.staging
        (s.imageValid img = false → exec (.cfgWriteDone flashOk) s = .next { s with cfg := ⟨img, 3⟩ })
        ∧ (s.imageValid img = true → flashOk = false → exec (.cfgWriteDone flashOk) s = .next { s with cfg := ⟨img, 4⟩ })
        ∧ (s.imageValid img = true → flashOk = true →
            exec (.cfgWriteDone flashOk) s = .next { s with cfg := ⟨img, 2⟩, flashImage := img.take (imageLength img) }))
    ∧ exec (.cfgStatus true) s = .next (s.emit (.smbusReply (BitVec.ofNat 8 s.cfg.state :: (sha3 s.flashImage).take 8)))
    ∧ (∀ payload, exec (.cfgOpen false payload) s = nack ∧ exec (.cfgData false payload) s = nack ∧ exec (.cfgClose false payload) s = nack
        ∧ exec (.cfgStatus false) s = nack)

/-- UNLOCK_REQ and ANSWER (R442, R473). -/
def Obligations.UnlockDialogue : Prop :=
  ∀ s : State, ∀ cmd ∈ [Instr.unlockReq, Instr.answer],
    let refused := fun (t : State) (reason : Nat) => t.emit (.uart (uartFrame 5 (toLe 1 reason)))
    let runs := s.ready = true ∧ s.fatal = false ∧ s.tripped = false
    let ch := s.serialBytes ++ s.randomBytes 32 ++ padTo 32 s.romMeasure ++ [1]
    (¬runs → ∀ frame, exec (cmd frame) s = .next s)
    ∧ (runs → (∀ t, s.lastRefused = some t → s.mclk < t + 1000 * msCycles → exec (cmd (uartFrame 1 [])) s = .next (refused s 2))
      ∧ ((∀ t, s.lastRefused = some t → t + 1000 * msCycles ≤ s.mclk) →
          exec (cmd (uartFrame 1 [])) s = .next ({ s.drew 32 with challenge := some ch }.emit (.uart (uartFrame 2 ch))))
      ∧ (∀ sig, sig.length = 2420 →
          (s.challenge = none → exec (cmd (uartFrame 3 sig)) s = .next (refused s 3))
          ∧ (∀ c, s.challenge = some c →
              (Config.digestVerify s.debugKeyDigest [] c sig = false →
                exec (cmd (uartFrame 3 sig)) s = .next (refused { s with challenge := none, lastRefused := some s.mclk } 1))
              ∧ (Config.digestVerify s.debugKeyDigest [] c sig = true → ∃ t, exec (cmd (uartFrame 3 sig)) s = .next t
                  ∧ t.debugUnlocked = true ∧ t.jtagOpen = true
                  ∧ t = { { s with challenge := none }.unlockScrub with debugUnlocked := true, jtagOpen := true }.emit (.uart (uartFrame 4 [])))))
      ∧ (∀ frame, parseUart frame = none → exec (cmd frame) s = .next (refused s 4)))

/-! Power, boot and clocks. -/

/-- What a module whose rails shut down keeps and loses (R446, R462). -/
def Claims.RailsDown (s t : State) : Prop :=
  t.mem = [] ∧ t.poison = [] ∧ t.merge = [] ∧ t.aonUp = false ∧ t.mainUp = false ∧ t.pwrGood = false ∧ t.ready = false ∧ t.fatal = false
    ∧ t.parts = s.parts.map (fun pt => { Part.reset with catalogue := pt.catalogue })
    ∧ t.faults = s.faults.filter (·.stuck) ∧ t.remaps = s.remaps.filter (·.persist)
    ∧ t.fuseScheduled = s.fuseScheduled ∧ t.fuseDone = s.fuseDone ∧ t.retired = s.retired ∧ t.retiredSlices = s.retiredSlices
    ∧ t.flashImage = s.flashImage ∧ t.vin = s.vin ∧ Safety.identity t = Safety.identity s

/-- VIN_PRESENT, PWR_EN_FALL, POWER_FAULT, COLD_RESET and PERST_N_RISE (R439, R445, R446, R455, R468, R469). -/
def Obligations.PowerRails : Prop :=
  (∀ (mv : Nat) (s : State), 52000 < mv →
      exec (.vinPresent mv) s = .next { s with vin := true, sensors := { s.sensors with vinMv := mv } })
  ∧ (∀ (mv : Nat) (s : State), mv ≤ 52000 → exec (.vinPresent mv) s = .next s)
  ∧ (∀ (ms : Nat) (s : State), 10 ≤ ms → s.pwrEn = true → ∃ t, exec (.pwrEnFall ms) s = .next t
      ∧ Claims.RailsDown s t ∧ t.pwrEn = false ∧ t.converterFault = false)
  ∧ (∀ (kind : PowerFault) (s : State), s.pwrEn = true → ∃ t, exec (.powerFault kind) s = .next t
      ∧ Claims.RailsDown s t ∧ t.pwrEn = true ∧ t.converterFault = true)
  ∧ (∀ (ms : Nat) (s : State), ms < 10 ∨ s.pwrEn = false → exec (.pwrEnFall ms) s = .next s)
  ∧ (∀ (kind : PowerFault) (s : State), s.pwrEn = false → exec (.powerFault kind) s = .next s)
  ∧ (∀ (ms : Nat) (env : BootEnv) (s : State), 10 ≤ ms → s.vin = true →
      ∃ t, exec (.coldReset ms env) s = .next t
        ∧ t.pwrEn = true ∧ t.aonUp = true ∧ t.pwrGood = true ∧ t.mainUp = true ∧ t.ready = false
        ∧ t.geoId = s.geoPins ∧ t.smbusTarget = none ∧ t.dimms = env.dimms ∧ t.refclk = env.refclk ∧ t.perstLow = env.perstLow
        ∧ t.boot = some env ∧ t.bootModule = none ∧ t.bootHeld = env.perstLow
        ∧ t.fatal = decide (env.romOk = false ∨ s.romMeasure ≠ s.romDigest)
        ∧ t.bootStage = (if env.perstLow = true ∨ t.fatal = true then 0 else 1)
        ∧ t.mem = [] ∧ t.poison = [] ∧ t.merge = [] ∧ t.mclk = 0 ∧ t.debugUnlocked = false ∧ t.channels = []
        ∧ t.parts = s.parts.map (fun pt => { Part.reset with catalogue := pt.catalogue })
        ∧ (∀ f, f ∈ t.faults ↔ f ∈ s.faults ∧ f.stuck = true ∧ s.sameDimm env.dimms f = true)
        ∧ t.remaps = s.remaps.filter (·.persist) ∧ t.retired = s.retired ∧ t.fuseScheduled = s.fuseScheduled ∧ t.fuseDone = s.fuseDone)
  ∧ (∀ (ms : Nat) (env : BootEnv) (s : State), ms < 10 ∨ s.vin = false → exec (.coldReset ms env) s = .next s)
  ∧ (∀ (us : Nat) (s : State), 100 ≤ us → s.mainUp = true → s.coldBooting = true →
      exec (.perstNRise us) s = .next { s with bootHeld := false, perstLow := false, bootStage := 1 })
  ∧ (∀ (us : Nat) (s : State), 100 ≤ us → s.mainUp = true → s.coldBooting = false → s.tripped = false →
      ∃ t, exec (.perstNRise us) s = .next t ∧ t.perstLow = false
        ∧ t.ready = false ∧ t.fatal = decide (s.romMeasure ≠ s.romDigest) ∧ t.bootStage = (if s.romMeasure = s.romDigest then 1 else 0)
        ∧ t.boot = some s.presentEnv ∧ t.bootHeld = false
        ∧ t.parts = s.parts.map (fun pt => { Part.reset with catalogue := pt.catalogue, confidential := pt.confidential })
        ∧ t.ports = s.ports.map (fun p => { Port.reset false with retired := p.retired, width := p.width })
        ∧ t.mem = s.mem ∧ t.mclk = s.mclk ∧ t.dimms = s.dimms ∧ t.channels = s.channels)
  ∧ (∀ (us : Nat) (s : State), 100 ≤ us → s.mainUp = true → s.tripped = true → s.coldBooting = false →
      exec (.perstNRise us) s = .next { s with perstLow := false })
  ∧ (∀ (us : Nat) (s : State), us < 100 ∨ s.mainUp = false → exec (.perstNRise us) s = .next s)

/-- BOOT_READY (Table 20.3, R412, R449, R450). -/
def Obligations.BootBecomesReady : Prop :=
  (∀ (ms : Nat) (env : BootEnv) (s : State), s.boot = some env → s.mainUp = true → s.fatal = false → s.bootHeld = false → s.ready = false →
      env.fusesOk = true →
      ∃ t, exec (.bootReady ms) s = .next t
        ∧ t.ready = true ∧ t.bootStage = 7 ∧ t.boot = none ∧ t.bootMs = min ms 0xFFFFFFFF
        ∧ t.configDefault = !s.imageValid s.flashImage ∧ t.fatal = false
        ∧ t.quartersPer = layoutQuarters t.board.layout)
  ∧ (∀ (ms : Nat) (env : BootEnv) (s : State), s.boot = some env → s.mainUp = true → s.fatal = false → s.bootHeld = false → s.ready = false →
      env.fusesOk = false →
      ∃ t, exec (.bootReady ms) s = .next t ∧ t.fatal = true ∧ t.ready = false ∧ t = { s with fatal := true })
  ∧ (∀ (ms : Nat) (s : State), s.boot = none ∨ s.mainUp = false ∨ s.fatal = true ∨ s.bootHeld = true ∨ s.ready = true →
      exec (.bootReady ms) s = .next s)

/-- WATCHDOG_EXPIRY, SYTEN_FATAL_ERROR and the fatal state (R411, R412). -/
def Obligations.FatalHalts : Prop :=
  ∀ s : State,
    (∀ cause, ∀ cmd ∈ [Instr.watchdogExpiry, Instr.sytenFatalError cause],
      (s.aonUp = true → s.fatal = false →
        exec cmd s = .next { s.modWindow 4 (fun w => { w with summary := w.summary ||| 512 }) with fatal := true })
      ∧ (s.aonUp = false ∨ s.fatal = true → exec cmd s = .next s))
    ∧ (s.fatal = true → ∀ (part ring : Nat) (p : PacketRef),
        (∀ cmd ∈ [Instr.slotFetch part ring, .packetIssue part ring, .packetComplete p, .poolRetry part, .heartbeatTimer part, .quiesceReached part,
            .standbyReached part, .standbyWakeDone part, .partitionChange], exec cmd s = .next s)
        ∧ (∀ row ∈ Claims.opcodeRows p, exec row.cmd s = .next s) ∧ (∀ row ∈ Claims.productRows p, exec row.1 s = .next s)
        ∧ (∀ row ∈ Claims.settingRows p, exec row.cmd s = .next s) ∧ (∀ row ∈ Claims.holdRows p, exec row.1 s = .next s)
        ∧ (∀ res units d, exec (.ringServiceGrant part res units d) s = .next s ∧ exec (.emptyGrant part res) s = .next s))

/-- THROTTLE_TICK, ACLK_STEP, THERMAL_TRIP and PLL_LOSS_OF_LOCK (R305, R452 to R454); number 42 for MCLK is the model's (log entry 39). -/
def Obligations.ClocksAndThrottling : Prop :=
  ∀ s : State, s.halves.length = 2 →
    (∀ sn : Sensors, s.vin = true → s.aonUp = true → ∃ t, exec (.throttleTick sn) s = .next t ∧ t.sensors = sn
      ∧ ∀ h, h < 2 →
          let x := s.half h
          let tj := if h = 0 then sn.tjE else sn.tjW
          let above := 3300 < sn.powerW ∨ 6200 < sn.current10mA ∨ 840 ≤ tj
          let low := sn.powerW < 3200 ∧ sn.current10mA < 6000 ∧ tj < 800
          (above → 320 ≤ x.setPoint - 20 * x.steps → (t.half h).steps = x.steps + 1 ∧ (t.half h).sinceStepUs = 0)
          ∧ (above → x.setPoint - 20 * x.steps < 320 → (t.half h).steps = x.steps)
          ∧ (¬above → low → 0 < x.steps → 1000 ≤ x.sinceStepUs + 10 → (t.half h).steps = x.steps - 1 ∧ (t.half h).sinceStepUs = 0)
          ∧ (¬above → ¬low ∨ x.steps = 0 ∨ x.sinceStepUs + 10 < 1000 → (t.half h).steps = x.steps)
          ∧ (t.half h).aclk = x.aclk ∧ (t.half h).setPoint = x.setPoint)
    ∧ (∀ h, h < 2 → s.mainUp = true → s.clocksLost.contains h = false → ∃ t, exec (.aclkStep h) s = .next t
        ∧ t = { s with halves := t.halves }
        ∧ (let x := s.half h
           let goal := x.setPoint - 20 * x.steps
           (x.aclk ≤ goal → (t.half h).aclk = min goal (x.aclk + 20)) ∧ (goal ≤ x.aclk → (t.half h).aclk = max goal (x.aclk - 20)))
        ∧ t.half (1 - h) = s.half (1 - h))
    ∧ (∀ cause, s.mainUp = true → s.tripped = false →
        (∃ h, cause = TripCause.junction h ∧ h < 2) ∨ (cause = .overpower ∧ 1000 ≤ s.overTicks) →
        ∃ t, exec (.thermalTrip cause) s = .next t ∧ t.tripped = true ∧ t.mainUp = false ∧ (0 ∈ t.halvesDown ∧ 1 ∈ t.halvesDown))
    ∧ (∀ clock, clock ∉ s.clocksLost →
        let s1 := { s with clocksLost := setIns s.clocksLost clock }
        (clock < 42 → s.mainUp = true → exec (.pllLossOfLock clock) s = .next (((s1.modWindow 4 (·.setSummary 8)).stopClock clock).logClock clock))
        ∧ (clock = 42 → s.aonUp = true → exec (.pllLossOfLock clock) s = .next { s1.modWindow 4 (·.setSummary 8) with fatal := true }))

/-- QUIESCE_REACHED, STANDBY_REACHED, STANDBY_WAKE_DONE and BENCH_IDLE_GATE (R448, R460, R461). -/
def Obligations.LowPowerStates : Prop :=
  ∀ (part : Nat) (s : State), s.isPart part = true → s.fatal = false →
    let pt := s.part part
    (pt.packets = [] →
      (pt.pstate = .entering 2 → exec (.quiesceReached part) s = .next ((s.drainPart part).modPart part fun pt => { pt with pstate := .quiesce }))
      ∧ (pt.pstate = .entering 3 →
          let s1 := (s.drainPart part).modPart part fun pt =>
            { pt with pstate := .standby, objects := [], progress := [], spilled := [], window := 0, ready := false,
                      rings := (pt.rings.filter fun r => r.2.c3).map fun r => (r.1, { Ring.unbound with c3 := true }) }
          let s2 := (s.allowedPorts part).foldl (fun s i => if (s.port i).state = .down then s else s.portDown i) s1
          exec (.standbyReached part) s = .next (([0, 1] : List Nat).foldl (fun s h =>
            if s.quarterOff (2 * h) && s.quarterOff (2 * h + 1) then s.powerOffHalf h else s) s2)))
    ∧ (pt.packets ≠ [] → exec (.quiesceReached part) s = .next s ∧ exec (.standbyReached part) s = .next s)
    ∧ (pt.pstate = .active ∨ pt.pstate = .quiesce → exec (.quiesceReached part) s = .next s ∧ exec (.standbyReached part) s = .next s
        ∧ exec (.standbyWakeDone part) s = .next s)
    ∧ (s.mainUp = true → pt.pstate = .waking → part < s.parts.length → ∃ t, exec (.standbyWakeDone part) s = .next t
        ∧ (t.part part).pstate = .active ∧ (t.part part).pstateReq = 0 ∧ (t.part part).ready = true
        ∧ ((t.part part).ring (64 * t.quartersPer - 1)).binding.isSome = true)
    ∧ (∀ bench, bench < 32 → s.mainUp = true →
        let home := s.part (s.lowQ (bench / 8))
        let idle := (∀ x ∈ home.progress, ∀ a, x.1 = .array a ∨ x.1 = .vector a → a / 8 ≠ bench)
          ∧ ∀ k ∈ home.packets, k.phase = .ready ∨ k.phase = .running → ∀ sn, k.snap = some sn → ∀ a ∈ sn.leaves, a / 8 ≠ bench
        (idle → exec (.benchIdleGate bench) s = .next { s with gatedBenches := setIns s.gatedBenches bench })
        ∧ (¬idle → exec (.benchIdleGate bench) s = .next s))

/-- PARTITION_SET, PARTITION_CHANGE and PARTITION_CHANGE_COMPLETE (R421 to R425). -/
def Obligations.LayoutChanges : Prop :=
  (∀ (p : PacketRef) (s : State) (k : Packet) (c : Ctx), Claims.Ready s p 0x0B04 k c →
    let a := c.layoutAsk
    let others := s.pendingLayouts.map (·.2)
    let mine := ∃ q ∈ s.quarters p.part, q ∈ s.reassigned a.1 a.2.1
    let ends := fun (w : Result) => ∃ t, exec (.partitionSet p) s = .next t ∧ (s.engineDown k = false →
      Claims.Works s t p (WorkOut.of w) { k with phase := .finished, res := Claims.result s k (WorkOut.of w) })
    ((∀ l ∈ others, l.layout = a.1 ∧ l.conf = a.2.1 ∧ l.ptag = a.2.2) →
      (¬mine → ends Result.empty)
      ∧ (mine → exec (.partitionSet p) s = .next ((s.setPacket p.part { k with phase := .pending }).modPart p.part fun pt =>
          { pt with pendingLayout := some (pt.pendingLayout.getD ⟨k.ring, k.idx, k.hdr.tag, a.1, a.2.1, a.2.2⟩) })))
    ∧ ((∃ l ∈ others, l.layout ≠ a.1) → ends { Result.of [ERR_DESCRIPTOR] 0 0 0 with field := 0 }))
  ∧ ∀ (s : State) (ms : Nat), s.fatal = false →
    (∀ p l rest, s.pendingLayouts = (p, l) :: rest → s.change = none →
      let all := ∀ x ∈ s.concerned l, (s.part x).pendingLayout.isSome = true
      (all → ∃ t, exec .partitionChange s = .next t ∧ t.mem = ((s.concerned l).foldl (State.scrubPart · true) s).mem ∧ t.changeStart = s.mclk
          ∧ t.parts = ((s.concerned l).foldl (State.scrubPart · true) s).parts
          ∧ ∃ c, t.change = some c ∧ c.layout = l.layout ∧ c.conf = l.conf ∧ c.quarters = s.reassigned l.layout l.conf)
      ∧ (¬all → exec .partitionChange s = .next s))
    ∧ (s.pendingLayouts = [] → exec .partitionChange s = .next s)
    ∧ (∀ c, s.change = some c → exec (.partitionChangeComplete ms) s =
        .next (if layoutQuarters c.layout ≠ s.quartersPer ∧ s.board.xLanug = false then (s.formParts c ms).endpointReset else s.formParts c ms))
    ∧ (s.change = none → exec (.partitionChangeComplete ms) s = .next s)

/-! Lanug links (R308 to R316). -/

/-- What a port's replay buffer keeps under an acknowledgement (R313): the flits after the one it names. -/
def Claims.unacked (p : Port) (ack : Nat) (valid : Bool) : List (Nat × TxFlit × List Byte) :=
  if valid && p.replay.any (·.1 == ack) then (p.replay.dropWhile (·.1 != ack)).drop 1 else p.replay

/-- Nothing but one port and what goes out at the connectors differs between two states. -/
def Claims.PortOnly (s t : State) (i : Nat) : Prop :=
  t = { s with ports := t.ports, out := t.out } ∧ (∀ j, j ≠ i → t.port j = s.port j) ∧ s.out <+: t.out

/-- The lanes that a retrain ends with (R315): all four, else a pair, else the lowest one. -/
def Claims.lanes (pass : Nat → Bool) : List Nat :=
  if pass 0 && pass 1 && pass 2 && pass 3 then [0, 1, 2, 3]
  else if pass 0 && pass 1 then [0, 1]
  else if pass 2 && pass 3 then [2, 3]
  else if pass 0 then [0] else if pass 1 then [1] else if pass 2 then [2] else if pass 3 then [3] else []

/-- RETRAIN, LANE_FAULT, RETRAIN_DONE and PORT_RETRAIN_ATTEMPT (R315, R316); that a faulty lane does not pass is the model's reading (log entry
34). -/
def Obligations.PortsRetrain : Prop :=
  ∀ (i : Nat) (s : State), s.runsLanug i = true → i < s.ports.length →
    let p := s.port i
    let again := fun (p : Port) => { p with state := .retraining, retrains := { p.retrains with count := p.retrains.count + 1 } }
    (p.state = .up → exec (.retrain i) s = .next (s.modPort i again))
    ∧ (p.state = .up → ∀ l, l < 4 → l ∉ p.retired →
        exec (.laneFault i l) s = .next (s.modPort i fun p => again { p with faulty := setIns p.faulty l }))
    ∧ (p.state = .retraining ∨ p.state = .training → ∀ l, l < 4 → l ∉ p.retired →
        exec (.laneFault i l) s = .next (s.modPort i fun p => { p with faulty := setIns p.faulty l }))
    ∧ (p.state ≠ .up → exec (.retrain i) s = .next s)
    ∧ (∀ l, p.state = .down ∨ 4 ≤ l ∨ l ∈ p.retired → exec (.laneFault i l) s = .next s)
    ∧ (∀ pass, p.state = .retraining ∨ p.state = .training →
        let lanes := Claims.lanes fun l => pass.contains l && !p.retired.contains l && !p.faulty.contains l
        (lanes ≠ [] → ∃ t, exec (.retrainDone i pass) s = .next t ∧ (t.port i).state = .up ∧ (t.port i).width = lanes.length
          ∧ (t.port i).retired = [0, 1, 2, 3].filter (fun l => !lanes.contains l) ∧ (t.port i).faulty = []
          ∧ (∀ ks, p.switching = some ks → p.replay = [] ∨ p.state = .training → (t.port i).keys.isSome = ks.isSome ∧ (t.port i).switching = none)
          ∧ ∀ j, j ≠ i → t.port j = s.port j)
        ∧ (lanes = [] → p.state = .training →
            exec (.retrainDone i pass) s = .next (s.modPort i fun p => { p with state := .down, width := 0, faulty := [] }))
        ∧ (lanes = [] → p.state = .retraining → exec (.retrainDone i pass) s = .next (s.portDown i)))
    ∧ (p.state ≠ .retraining → p.state ≠ .training → ∀ pass, exec (.retrainDone i pass) s = .next s)
    ∧ (p.state = .down → 20 + i ∉ s.clocksLost → s.mainUp = true → (s.part (s.lowQ (quarterOfPort i))).pstate ≠ .standby →
        exec (.portRetrainAttempt i) s = .next (s.modPort i fun p =>
          { p with state := .training, retrains := { p.retrains with count := p.retrains.count + 1 } }))

/-- FLIT_RECEIVE and RETRY_REQ (R308, R309, R311, R313, R314), for a port in clear mode. -/
def Obligations.FlitsArrive : Prop :=
  ∀ (i : Nat) (s : State), s.runsLanug i = true → i < s.ports.length → (s.port i).state = .up → (s.port i).keys = none →
    let p := s.port i
    let next := if p.rxAny then (p.rxLast + 1) % 4096 else 0
    let owes := Claims.owes p
    let ask := (s.modPort i fun p =>
        { p with discarding := true, ackDue := false, owed := (match owes with | some x => p.owed.set x.1 0 | none => p.owed) }).emit
      (.flit i (Claims.flit 2 0 (p.rxLast % 4096) p.rxAny 0 owes (List.replicate 240 0)))
    (∀ flit, exec (.flitReceive i false flit) s = .next ask)
    ∧ (∀ (seq ack vc : Nat) (valid : Bool) (cr : Option (Nat × Nat)) (pay : List Byte), seq < 4096 → ack < 4096 → vc < 4 → pay.length = 240 →
        (∀ x, cr = some x → x.1 < 4 ∧ x.2 < 65536) →
        (seq = next → ∃ t, exec (.flitReceive i true (Claims.flit 0 seq ack valid vc cr pay)) s = .next t ∧ Claims.PortOnly s t i
          ∧ (t.port i).rxLast = seq ∧ (t.port i).rxAny = true ∧ (t.port i).discarding = false
          ∧ (t.port i).rxStream = p.rxStream.modify vc (· ++ [pay]) ∧ Claims.unacked p ack valid <+: (t.port i).replay)
        ∧ (seq ≠ next → p.discarding = false → exec (.flitReceive i true (Claims.flit 0 seq ack valid vc cr pay)) s = .next ask)
        ∧ (seq ≠ next → p.discarding = true → exec (.flitReceive i true (Claims.flit 0 seq ack valid vc cr pay)) s = .next s)
        ∧ (∃ t, exec (.flitReceive i true (Claims.flit 1 seq ack valid vc cr pay)) s = .next t ∧ Claims.PortOnly s t i
            ∧ (t.port i).rxLast = p.rxLast ∧ (t.port i).rxStream = p.rxStream ∧ Claims.unacked p ack valid <+: (t.port i).replay))
    ∧ (∀ ack valid, ack < 4096 →
        let kept := Claims.unacked p ack valid
        let q := (p.acked ack valid).countReplay s.mclk
        (q.failRun ≤ 8 → q.replayTimes.length ≤ 256 → ∃ t, exec (.retryReq i ack valid) s = .next t ∧ Claims.PortOnly s t i
          ∧ (s.out ++ kept.map fun x => Out.flit i x.2.2) <+: t.out ∧ kept <+: (t.port i).replay ∧ (t.port i).rxStream = p.rxStream)
        ∧ (8 < q.failRun ∨ 256 < q.replayTimes.length → ∃ t, exec (.retryReq i ack valid) s = .next t ∧ Claims.PortOnly s t i
          ∧ (t.port i).state = .retraining ∧ (t.port i).replay = kept ∧ t.out = s.out))

/-! The fabric and the seam (R298 to R303). -/

/-- The links of a message's way along a column, from a router to a row (R290): each is the input port of the next router. -/
def Claims.alongColumn (n row : Nat) : List FabricLink :=
  ((List.range (row - routerRow n)).map fun i => .mesh (n + 4 * (i + 1)) 2) ++ (List.range (routerRow n - row)).map fun i => .mesh (n - 4 * (i + 1)) 3

/-- The links of a message's way along a row, from a router to a column (R290). -/
def Claims.alongRow (n col : Nat) : List FabricLink :=
  ((List.range (col - routerCol n)).map fun i => .mesh (n + (i + 1)) 4) ++ (List.range (routerCol n - col)).map fun i => .mesh (n - (i + 1)) 5

/-- A message's way along a row to a column of a half, through the row's crossing port where the half is the other (R290). -/
def Claims.across (n half col port : Nat) : List FabricLink :=
  if routerHalf n = half then Claims.alongRow n col
  else Claims.alongRow n 0 ++ .crossing port (half == 1) :: Claims.alongRow (routerAt half (routerRow n) 0) col

/-- The route of R290 with no crossing port retired: in from the source's port, row first for a response and else column first, and out to the
destination's port. -/
def Claims.path (vc : Nat) (src dst : Attach) : List FabricLink :=
  let h := routerHalf dst.router
  let r := routerRow dst.router
  let c := routerCol dst.router
  let cross := fun (row : Nat) => 4 * row + (routerCol src.router + c) % 4
  .mesh src.router src.port ::
    ((if vc = 1 then Claims.across src.router h c (cross (routerRow src.router)) ++ Claims.alongColumn (routerAt h (routerRow src.router) c) r
      else Claims.alongColumn src.router r ++ Claims.across (routerAt (routerHalf src.router) r (routerCol src.router)) h c (cross r))
      ++ [.unit dst.router dst.port])

/-- FABRIC_FLIT_RECEIVE, MESH_LINK_FAILED, SEAM_PEER_DOWN and SEAM_PEER_UP, and the routes (R290, R298, R299, R303); see log entries 105, 106 and 107
for what is the model's. -/
def Obligations.FabricLinks : Prop :=
  ∀ s : State,
    (∀ (vc : Nat) (src dst : Attach), src.router < 128 → dst.router < 128 → s.crossingsRetired = [] → s.route vc src dst = some (Claims.path vc src dst))
    ∧ (∀ row k, (4 * row + k % 4 ∉ s.crossingsRetired → s.crossingPort row k = some (4 * row + k % 4))
        ∧ (4 * row + k % 4 ∈ s.crossingsRetired → 4 * row + (k + 1) % 4 ∉ s.crossingsRetired → s.crossingPort row k = some (4 * row + (k + 1) % 4)))
    ∧ (∀ (l : FabricLink) (f : FabricFlit), s.linkUp l = true → (s.link l).failed = false →
      let x := s.link l
      let put := fun (t : State) (y : FabLink) => t = { s with fabric := t.fabric, out := t.out } ∧ t.link l = y ∧ ∀ m, m ≠ l → t.link m = s.link m
      let again := x.sent.find? fun g => g.seq == f.seq
      let comes := again.isSome = true ∨ x.credit f.vc = true ∧ x.next < x.expect + 32
      let g := again.getD f
      let source := l = .mesh g.msg.src.router g.msg.src.port ∧ g.index = 0
      let sends := fun (y : FabLink) => y.next = x.next + (if again.isSome then 0 else 1) ∧ (again.isSome = true → y.sent = x.sent)
        ∧ (again = none → y.sent.getLast? = some { f with seq := x.next, crcOk := true } ∧ y.sent.length ≤ 32)
      (f.seq = x.expect → f.crcOk = true → comes → s.messageFails g.msg = false → ∃ t y, exec (.fabricFlitReceive l f) s = .next t ∧ put t y ∧ sends y
        ∧ y.expect = x.expect + 1 ∧ y.awaiting = false ∧ y.inRow = 0 ∧ t.out = s.out
        ∧ (if s.sendClock l ≠ s.recvClock l then y.queued = x.queued ++ [⟨g, 0⟩] ∧ y.held = x.held else y.held = x.held ++ [g] ∧ y.queued = x.queued))
      ∧ (f.seq = x.expect → f.crcOk = true → comes → s.messageFails g.msg = true → ∃ u y, put u y ∧ sends y ∧ u.out = s.out
        ∧ y.expect = x.expect + 1 ∧ y.awaiting = false ∧ y.inRow = 0 ∧ y.held = x.held ∧ y.queued = x.queued
        ∧ (source → exec (.fabricFlitReceive l f) s = .next (u.loseMessage g.msg)) ∧ (¬source → exec (.fabricFlitReceive l f) s = .next u))
      ∧ (f.seq = x.expect → f.crcOk = false → comes → ∃ t y, exec (.fabricFlitReceive l f) s = .next t ∧ put t y ∧ sends y ∧ y.queued = x.queued
        ∧ y.held = x.held ∧ y.expect = x.expect ∧ y.awaiting = true ∧ y.inRow = x.inRow + 1
        ∧ (y.inWindow = x.inWindow + 1 ∨ y.inWindow = 1 ∧ y.windowAt = s.mclk) ∧ t.out = s.out ++ [.fabricReplay l x.expect])
      ∧ (f.seq ≠ x.expect ∨ ¬comes → exec (.fabricFlitReceive l f) s = .next s)
      ∧ (x.inRow ≤ 8 ∧ x.inWindow ≤ 128 ∨ (∃ n p, p < 2 ∧ (l = .mesh n p ∨ l = .unit n p)) → exec (.meshLinkFailed l) s = .next s)
      ∧ (9 ≤ x.inRow ∨ 128 < x.inWindow → ∃ u, put u { x with failed := true } ∧ u.out = s.out
        ∧ (∀ r p, 2 ≤ p → l = .mesh r p ∨ l = .unit r p →
            exec (.meshLinkFailed l) s = .next (u.settleRoutes.logQuarter (2 * (r / 64) + r % 64 / 32) (mkEvent 0x41 r p)))
        ∧ (∀ p w, l = .crossing p w → exec (.meshLinkFailed l) s = .next
            (((({ u with crossingsRetired := setIns s.crossingsRetired p } : State).turnBack p true).turnBack p false).settleRoutes.logAll
              (mkEvent 0x42 p (p / 4 * 4 + (p + 1) % 4))))))
    ∧ (∀ m : FabricMsg, (m.kind.response = true → s.loseMessage m = s)
        ∧ (m.kind.response = false → m.owner.bind s.packet = none → s.loseMessage m = s.emit (.fabricFailed m.id)))
    ∧ (∀ h, h < 2 → s.mainUp = true →
        let off := ([2 * h, 2 * h + 1] : List Nat).all fun q => (s.part (s.lowQ q)).pstate == .standby
        let anew := fun (t : State) => ∀ x ∈ t.fabric, ∀ p w, x.link = .crossing p w →
          x.queued = [] ∧ x.back = [] ∧ x.taken = [0, 0, 0, 0] ∧ x.sent = [] ∧ x.next = 0 ∧ x.expect = 0
        (h ∉ s.halvesDown → ∃ (u : State) (lost : List FabricMsg), exec (.seamPeerDown h) s = .next (lost.foldl State.loseMessage u)
          ∧ u = { s with fabric := u.fabric, halvesDown := setIns s.halvesDown h } ∧ anew u ∧ lost.Nodup
          ∧ (∀ x ∈ u.fabric, routerHalf x.link.router = 1 - h)
          ∧ ∀ m, m ∈ lost ↔ (∃ x ∈ s.fabric, ∃ f ∈ x.flits, f.msg = m) ∧ routerHalf m.dst.router = h ∧ routerHalf m.src.router = 1 - h)
        ∧ (h ∈ s.halvesDown → 2 + h ∉ s.clocksLost → off = false → ∃ t, exec (.seamPeerUp h) s = .next t
          ∧ t = { s with fabric := t.fabric, halvesDown := t.halvesDown } ∧ h ∉ t.halvesDown ∧ anew t)
        ∧ (h ∈ s.halvesDown → exec (.seamPeerDown h) s = .next s) ∧ (h ∉ s.halvesDown → exec (.seamPeerUp h) s = .next s))

/-! Scrubbing, merge buffers and retirement (R127, R271, R275, R279, R410). -/

/-- SCRUB_READ, SCRUB_PASS_END and MERGE_ENTRY_TIMEOUT (R268, R269, R271, R275, R279). -/
def Obligations.ScrubbingAndMerging : Prop :=
  ∀ s : State,
    (∀ (m : MemKind) (u : Nat), s.scrubs m u = true →
      let x := s.scrubber m u
      let a := s.addrOf m u (64 * x.granule)
      let on := fun (s : State) => s.setScrubber { x with granule := x.granule + 1 }
      (x.granule < s.unitGranules m u → (∀ e ∈ s.merge, e.granule ≠ a) →
        ((∀ cw ∈ granuleCodewords a, s.decodeCw cw = .clean ∨ s.decodeCw cw = .poisoned) → exec (.scrubRead m u) s = .next (on s))
        ∧ ∀ c0 ∈ granuleCodewords a, (∀ cw ∈ granuleCodewords a, cw ≠ c0 → s.decodeCw cw = .clean) →
          (∀ sym pat, s.decodeCw c0 = .corrected sym pat → ∃ t, exec (.scrubRead m u) s = .next t ∧ t.mem = s.mem ∧ t.poison = s.poison
            ∧ t.faults = s.faults.filter (fun f => f.addr != c0 || f.stuck) ∧ (t.scrubber m u).granule = x.granule + 1)
          ∧ (s.decodeCw c0 = .uncorrectable → ∃ t, exec (.scrubRead m u) s = .next t ∧ (∀ v, v ∈ t.poison ↔ v = poisonUnit c0 ∨ v ∈ s.poison)
            ∧ (Tbl.ok 0 s.mem = true → ∀ b, codewordOf b ≠ c0 → Tbl.get 0 t.mem b = Tbl.get 0 s.mem b)
            ∧ t.faults = s.faults.filter (fun f => f.stuck || poisonUnit f.addr != poisonUnit c0) ∧ (t.scrubber m u).granule = x.granule + 1))
      ∧ (s.unitGranules m u ≤ x.granule → exec (.scrubRead m u) s = .next s)
      ∧ (0 < s.unitGranules m u → s.unitGranules m u ≤ x.granule → ∃ t, exec (.scrubPassEnd m u) s = .next t
          ∧ t.scrubber m u = { x with granule := 0, passes := x.passes + 1 }
          ∧ t.trackers = s.trackers.filter fun y => !(y.mem == m && (if m = .hbm then y.unit / 64 else y.unit) == u)))
    ∧ (∀ (m : MemKind) (u : Nat), s.scrubs m u = false → exec (.scrubRead m u) s = .next s ∧ exec (.scrubPassEnd m u) s = .next s)
    ∧ (∀ g, ((∀ e ∈ s.merge, e.granule ≠ g) → exec (.mergeEntryTimeout g) s = .next s)
        ∧ ∀ e, s.merge.find? (·.granule == g) = some e → ∃ t, exec (.mergeEntryTimeout g) s = .next t ∧ Safety.OnlyData s t
          ∧ (e.mask = BitVec.allOnes 64 → t.mem = s.mem ∧ t.merge = s.merge.filter (·.granule != g)
              ∧ ∀ v, v ∈ t.poison ↔ v ∈ s.poison ∧ v ∉ unitsIn g 64)
          ∧ (e.mask ≠ BitVec.allOnes 64 → s.faults = [] → t = { s with merge := s.merge.filter (·.granule != g) }))

/-- ARRAY_AUTO_RETIRE (R127, R410, R417). -/
def Obligations.ArraysRetire : Prop :=
  ∀ (a : Nat) (s : State), s.fatal = false →
    let part := s.lowQ (a / 64)
    let free := ∀ k ∈ (s.part part).packets, ∀ sn, k.snap = some sn → a ∉ sn.leaves
    let spares := s.reserve.filter fun b => b / 64 == a / 64
    let logged := fun (t u : State) (spare : Nat) => ∃ ring, t = u.logQuarter (a / 64) { mkEvent 0x4A a spare with ring := ring }
    (a ∈ s.retiring → free → a ∉ s.retired → ∃ t, exec (.arrayAutoRetire a) s = .next t ∧ a ∈ t.retired ∧ a ∉ t.retiring
      ∧ (a ∈ s.reserve → logged t { s with reserve := setDel s.reserve a, retired := setIns s.retired a, retiring := setDel s.retiring a } 0xFFFF)
      ∧ (a ∉ s.reserve → ∀ b ∈ spares, (∀ x ∈ spares, b ≤ x) →
          logged t { s.modPart part (fun pt => { pt with gangs := pt.gangs.map fun g => (g.1, g.2.map fun m => if m = a then b else m) }) with
            reserve := setDel s.reserve b, retired := setIns s.retired a, retiring := setDel s.retiring a } b)
      ∧ (a ∉ s.reserve → spares = [] →
          logged t { s.modPart part (fun pt => { pt with gangs := pt.gangs.map fun g => (g.1, g.2.filter (· ≠ a)) }) with
            retired := setIns s.retired a, retiring := setDel s.retiring a } 0xFFFF))
    ∧ (a ∉ s.retiring ∨ ¬free → exec (.arrayAutoRetire a) s = .next s)

/-! Lanug messages (R310, R322, R325, R331 to R340, R433, Tables 13.2 and 14.3). -/

/-- A port that takes messages in: it runs as a Lanug port, is up, and its half of the die runs (R9, R310). -/
def Claims.Takes (s : State) (i : Nat) : Prop := s.runsLanug i = true ∧ (s.port i).state = .up ∧ portHalf i ∉ s.halvesDown

/-- A message of a type that arrives whole for this module at a port that takes messages in, on the channel of its type (R310). -/
def Claims.Arrives (s : State) (i : Nat) (m : Msg) (mtype : Nat) : Prop :=
  Claims.Takes s i ∧ m.mtype = mtype ∧ m.dstEp = s.endpoint ∧ ∀ v, (s.port i).carrying m = some v → v = vcOf mtype

/-- A partition whose ports can take a message in: not in STANDBY, and with the port's keys where it is confidential (R433, R447). -/
def Claims.Listens (s : State) (i p : Nat) : Prop :=
  s.isPart p = true ∧ (s.part p).pstate ≠ .standby ∧ (s.part p).pstate ≠ .waking ∧ ((s.part p).confidential = true → (s.port i).keys.isSome = true)

/-- A message that passes every row of Table 14.3. -/
def Claims.Accepts (s : State) (i p : Nat) (m : Msg) : Prop :=
  Claims.Listens s i p ∧ (s.part p).members ≠ [] ∧ (s.part p).quarantined = false ∧ m.srcEp ∈ (s.part p).members ∧ m.epoch = (s.part p).epoch

/-- WRITE, READ_REQ and ATOMIC messages that are not accepted (R310, R333, R433, Table 14.3). -/
def Obligations.EpochCheck : Prop :=
  ∀ (i : Nat) (m : Msg) (s : State), ∀ cmd ∈ [(Instr.writeMsg i m, M_WRITE), (.readReqMsg i m, M_READ_REQ), (.atomicMsg i m, M_ATOMIC)],
    let s1 := s.modPort i (·.consume m)
    let dropped := s1.modPort i fun p => { p with msgDrops := { p.msgDrops with count := p.msgDrops.count + 1 } }
    (¬Claims.Takes s i → exec cmd.1 s = .next s)
    ∧ (Claims.Takes s i → m.mtype = 0 ∨ 9 < m.mtype ∨ m.dstEp ≠ s.endpoint ∨ (∃ v, (s.port i).carrying m = some v ∧ v ≠ vcOf m.mtype) →
        exec cmd.1 s = .next dropped)
    ∧ (Claims.Arrives s i m cmd.2 → ∀ p, s.ownerOf (m.addr % 2 ^ 49) = some p →
        let pt := s.part p
        let count := fun (f : Part → Part) => exec cmd.1 s = .next (s1.modPart p f)
        (s.isPart p = true → pt.pstate ≠ .standby → pt.pstate ≠ .waking → pt.confidential = true → (s.port i).keys = none →
          (cmd.2 = M_WRITE → s1.keyLanding i p m = none) → exec cmd.1 s = .next dropped)
        ∧ (Claims.Listens s i p →
          (pt.members = [] ∨ pt.quarantined = true → count fun pt => { pt with unsetDrops := min (2 ^ 64 - 1) (pt.unsetDrops + 1) })
          ∧ (pt.members ≠ [] → pt.quarantined = false → m.srcEp ∉ pt.members → exec cmd.1 s = .next
              ((s1.modPart p fun pt => { pt with staleDrops := min (2 ^ 64 - 1) (pt.staleDrops + 1) }).sendStale p m))
          ∧ (pt.members ≠ [] → pt.quarantined = false → m.srcEp ∈ pt.members →
              (m.epoch < pt.epoch → count fun pt => { pt with lagDrops := min (2 ^ 64 - 1) (pt.lagDrops + 1) })
              ∧ (pt.epoch < m.epoch → count fun pt => { pt with earlyDrops := min (2 ^ 64 - 1) (pt.earlyDrops + 1) }))))

/-- Accepted WRITE, READ_REQ and ATOMIC messages (R263, R310, R322); the empty answer of a refused read is the model's (log entry 35). -/
def Obligations.DataMessages : Prop :=
  ∀ (i p : Nat) (m : Msg) (s : State), s.ownerOf (m.addr % 2 ^ 49) = some p → Claims.Accepts s i p m →
    let a := m.addr % 2 ^ 49
    let s1 := s.modPort i (·.consume m)
    let n := m.data.length
    let page := p * hbmQuarter + s.quartersPer * hbmQuarter - 4096
    (Claims.Arrives s i m M_WRITE → a < page ∨ page + 4096 ≤ a → s1.keyLanding i p m = none → s1.gatherLanding p m = none → s.inLanding p m = false →
      (s.mayReach p m a n = true → s.reachable a n = true → ∃ u t, exec (.writeMsg i m) s = .next t ∧ t = u.respond p m M_WRITE_ACK 0 []
        ∧ Safety.OnlyData s1 u ∧ (s.faults = [] → u.mem = Safety.written s.mem (writesOf m)))
      ∧ (s.mayReach p m a n = false → exec (.writeMsg i m) s = .next ((s1.refuseAccess p m).respond p m M_WRITE_ACK 0 []))
      ∧ (s.mayReach p m a n = true → s.reachable a n = false → exec (.writeMsg i m) s = .next s1))
    ∧ (Claims.Arrives s i m M_WRITE → page ≤ a → a < page + 4096 → 
        let x := ExchangeMsg.parse m.data m.poisonMap
        exec (.writeMsg i m) s =
          .next (((s1.modPart p fun pt => { pt with exchange := pt.exchange ++ [x] }).respond p m M_WRITE_ACK 0 []).exchangeArrived p x))
    ∧ (Claims.Arrives s i m M_READ_REQ →
        (s.mayReach p m a m.len = true → s.reachable a m.len = true → s.faults = [] →
          exec (.readReqMsg i m) s = .next (s1.respond p m M_READ_RESP (s.poisonMapOf a m.len) (s.read a m.len)))
        ∧ (s.mayReach p m a m.len = false → exec (.readReqMsg i m) s = .next ((s1.refuseAccess p m).respond p m M_READ_RESP 0 [])))
    ∧ (Claims.Arrives s i m M_ATOMIC → s.faults = [] → s.poison = [] → m.poisonMap = 0 →
        ∀ w, (m.mflags % 4 = 0 ∧ w = 4 ∧ a % 4 = 0) ∨ (m.mflags % 4 = 1 ∧ w = 8 ∧ a % 8 = 0) → n = w →
          s.mayReach p m a w = true → s.reachable a w = true → ∃ u t, exec (.atomicMsg i m) s = .next t
            ∧ t = u.respond p m M_ATOMIC_RESP 0 (toLe w (leNat (s.read a w))) ∧ Safety.OnlyData s1 u
            ∧ u.mem = putBytes s.mem a (toLe w ((leNat (s.read a w) + leNat m.data) % 2 ^ (8 * w))))

/-- READ_RESP, WRITE_ACK, ATOMIC_RESP, REG and REG_RESP (R310, R322, R323, R372); see log entries 35 and 37 for what the model chose. -/
def Obligations.ResponsesReturn : Prop :=
  ∀ (i : Nat) (m : Msg) (s : State),
    let s1 := s.modPort i (·.consume m)
    let without := fun (q : BridgeReq) => { s1 with bridgeReqs := s1.bridgeReqs.filter fun r => r != q }
    (Claims.Arrives s i m M_READ_RESP →
      (∀ q, s.bridgeReqs.find? (fun r => r.msgId == m.msgId && r.aperture && !r.isWrite) = some q → Claims.Accepts s i q.fn m →
        (m.data ≠ [] → exec (.readRespMsg i m) s = .next ((without q).emit (if m.poisonMap % 2 ^ ceilDiv q.bytes 64 = 0 then
            .readData (.reg q.fn) (m.data.take q.bytes) else .readPoisoned (.reg q.fn) (m.data.take q.bytes) (m.poisonMap % 2 ^ ceilDiv q.bytes 64))))
        ∧ (m.data = [] → exec (.readRespMsg i m) s =
            .next ((((without q).log q.fn (mkEvent 0x4E q.member 4)).emit (.completerAbort q.fn)).bridgeEvent q.fn)))
      ∧ (s.bridgeReqs.find? (fun r => r.msgId == m.msgId && r.aperture && !r.isWrite) = none → exec (.readRespMsg i m) s = .next s1))
    ∧ (Claims.Arrives s i m M_WRITE_ACK →
      (∀ q, s.bridgeReqs.find? (fun r => r.msgId == m.msgId && r.isWrite) = some q → Claims.Accepts s i q.fn m →
        exec (.writeAckMsg i m) s = .next (without q).releaseHeld)
      ∧ (s.bridgeReqs.find? (fun r => r.msgId == m.msgId && r.isWrite) = none →
        (s.ackOwner m.msgId = none → exec (.writeAckMsg i m) s = .next s1)
        ∧ ∀ ref k, s.ackOwner m.msgId = some ref → s.packet ref = some k → Claims.Accepts s i ref.part m →
          exec (.writeAckMsg i m) s = .next ((s1.setPacket ref.part { k with remote := k.remote.map fun r =>
            { r with unacked := r.unacked.filter fun u => u.2.1 != m.msgId } }).goOn ref)))
    ∧ (Claims.Arrives s i m M_ATOMIC_RESP → exec (.atomicRespMsg i m) s = .next s1)
    ∧ (Claims.Arrives s i m M_REG →
      (∀ win off, win < 5 → off < 0x10000 → m.addr % 2 ^ 49 = 0x0F0000000000 + 0x10000 * win + off →
        (m.data = [] → off % 8 = 0 → exec (.regMsg i m) s =
          .next ((s1.readClears win off).respond (s.lowQ (win % 4)) m M_REG_RESP 0 (toLe 8 (s1.regValue win off).toNat)))
        ∧ (m.data ≠ [] → exec (.regMsg i m) s = .next (s1.regWrite (.reg 0) win off m.data.length (BitVec.ofNat 64 (leNat m.data)))))
      ∧ (s.windows.length = 5 → 0x0F0000050000 ≤ m.addr % 2 ^ 49 → m.addr % 2 ^ 49 < 0x100000000000 → ∃ u,
          Claims.BadAccess s1 u 4 (!m.data.isEmpty) (.reg 0) (m.addr % 2 ^ 49 % 0x10000)
          ∧ exec (.regMsg i m) s = .next (if m.data = [] then u.respond 0 m M_REG_RESP 0 (List.replicate 8 0) else u)))
    ∧ (Claims.Arrives s i m M_REG_RESP →
      (∀ q, s.bridgeReqs.find? (fun r => r.msgId == m.msgId && !r.aperture && !r.isWrite) = some q →
        exec (.regRespMsg i m) s = .next ((without q).emit (.readData (.reg q.fn) (padTo 8 m.data))))
      ∧ (s.bridgeReqs.find? (fun r => r.msgId == m.msgId && !r.aperture && !r.isWrite) = none → exec (.regRespMsg i m) s = .next s1))

/-- What a STALE notice does to one partition (R334): quarantined with a record, its SUMMARY bit set, and its waiting packets ended. -/
def Claims.staleOne (i : Nat) (m : Msg) (c : Control) (s : State) (p : Nat) : State :=
  let pt := s.part p
  if pt.confidential && (s.port i).keys.isNone then s.modPort i fun p => { p with msgDrops := { p.msgDrops with count := p.msgDrops.count + 1 } }
  else if m.srcEp ∈ pt.members ∧ pt.epoch = c.arg0 ∧ pt.epoch < c.arg1 ∧ pt.quarantined = false then
    (((((s.modPart p fun pt => { pt with quarantined := true }).log p (mkEvent 0x48 m.srcEp 0)).setSummary p 7)).endAwaiting p ERR_EPOCH).1
  else s

/-- READY, DONE, ARRIVE, HEARTBEAT, STALE, LOST and NOTIFY messages (R325, R331, R334, R338, R340, R352, R412). -/
def Obligations.ControlMessages : Prop :=
  ∀ (i : Nat) (m : Msg) (s : State),
    let c := Control.parse m.data
    let s1 := s.modPort i (·.consume m)
    let rows := [(Instr.readyMsg i m, 1), (.doneMsg i m, 2), (.arriveMsg i m, 3), (.heartbeatMsg i m, 4), (.staleMsg i m, 5), (.lostMsg i m, 6),
      (.notifyMsg i m, 7)]
    (∀ row ∈ rows, c.kind ≠ row.2 ∨ s.fatal = true → exec row.1 s = .next s)
    ∧ (s.fatal = false → Claims.Arrives s i m M_CONTROL →
      (∀ row ∈ rows.take 3, c.kind = row.2 → Claims.Accepts s i c.dstPart m →
        let p := c.dstPart
        let e : EarlyMsg := ⟨c.kind, c.srcPart, m.srcEp, c.round, c.opcode, c.ctag, c.srcRank, c.ghash, c.arg0, c.arg1, c.arg2, c.arg3, s.mclk⟩
        (s.matching p c = none → (s.part p).early.length < 1024 → exec row.1 s = .next (s1.modPart p fun pt => { pt with early := pt.early ++ [e] }))
        ∧ (s.matching p c = none → 1024 ≤ (s.part p).early.length →
            exec row.1 s = .next (s1.modPart p fun pt => { pt with earlyDrops := min (2 ^ 64 - 1) (pt.earlyDrops + 1) }))
        ∧ ∀ k sn, s.matching p c = some k → k.snap = some sn →
            (row.2 = 2 → exec row.1 s = .next ((s1.landDone (k.ref p) c.srcRank c.round).goOn (k.ref p)))
            ∧ (row.2 ≠ 2 → exec row.1 s = .next (((s1.setPacket p { k with remote := k.remote.map fun r => r.take e }).lateness p m.srcEp
                (usBetween sn.time s.mclk)).goOn (k.ref p))))
      ∧ (c.kind = 4 → exec (.heartbeatMsg i m) s = .next (if s.isPart c.dstPart = true ∧ m.srcEp ∈ (s.part c.dstPart).members then
          s1.modPart c.dstPart (fun pt => { pt with heartbeats := Tbl.set 0 pt.heartbeats m.srcEp s.mclk, lost := pt.lost.filter (· ≠ m.srcEp) }) else s1))
      ∧ (c.kind = 5 → exec (.staleMsg i m) s = .next (s.partList.foldl (Claims.staleOne i m c) s1))
      ∧ (c.kind = 6 → s.isPart c.dstPart = true → (s.part c.dstPart).confidential = false ∨ (s.port i).keys.isSome = true →
          exec (.lostMsg i m) s = .next (if m.srcEp ∈ (s.part c.dstPart).members then s1.loseEndpoint c.dstPart c.arg0 else s1))
      ∧ (c.kind = 7 → exec (.notifyMsg i m) s = .next (if s.isBridge = true ∧ m.srcEp ∈ s.board.group ∧ c.srcPart < 4 then
          s1.raiseMsix (s.lowQ c.srcPart) (1 + c.arg0 % 63)
        else s1.modPort i fun p => { p with msgDrops := { p.msgDrops with count := p.msgDrops.count + 1 } })))

/-- HEARTBEAT_TIMER, PEER_LOST, EXCHANGE_TIMEOUT and COLL_TIMEOUT (R235, R338, R339, R407). -/
def Obligations.PeersWatched : Prop :=
  ∀ s : State, s.fatal = false →
    (∀ part, s.isPart part = true →
      let pt := s.part part
      let own := s.endpoint
      let i := pt.members.idxOf own
      let n := pt.members.length
      let near := fun (ahead : Bool) => dedupNat (((List.range (min 4 (n - 1))).map fun j =>
        (pt.members[(if ahead then i + 1 + j else i + n - 1 - j) % max 1 n]?).getD own).filter (· ≠ own))
      let say := fun (kind arg : Nat) (s : State) (ep : Nat) => (s.sendControl part none ep ⟨kind, part, part, 0, 0, 0, 0, 0, arg, 0, 0, 0⟩).1
      (pt.members ≠ [] → exec (.heartbeatTimer part) s = .next ((near true).foldl (say 4 0) s))
      ∧ (pt.members = [] → exec (.heartbeatTimer part) s = .next s ∧ ∀ ep, exec (.peerLost part ep) s = .next s)
      ∧ ∀ ep, pt.members ≠ [] →
          (ep ∈ near false → Tbl.get 0 pt.heartbeats ep + pt.hbTime * 500000 ≤ s.mclk → exec (.peerLost part ep) s =
            .next ((((pt.members.filter (· ≠ own)).foldl (say 6 ep) (s.log part (mkEvent 0x47 ep 0))).setSummary part 6).loseEndpoint part ep))
          ∧ (ep ∉ near false ∨ s.mclk < Tbl.get 0 pt.heartbeats ep + pt.hbTime * 500000 → exec (.peerLost part ep) s = .next s))
    ∧ (∀ (p : PacketRef) (k : Packet) (c : Ctx) (r : Remote) (x : Nat), s.packet p = some k → s.ctx p.part k = some c → k.remote = some r →
        let pt := s.part p.part
        let late := fun (ms : Nat) => c.snap.time + ms * 500000 ≤ s.mclk
        let object := 0x0501 ≤ k.hdr.opcode ∧ k.hdr.opcode ≤ 0x0505
        let ended := s.endPacket p.part k ERR_TIMEOUT
        (object → k.phase = .running → c.owes r x = true → x < r.keys.length → late pt.hbTime → exec (.exchangeTimeout p x) s = .next
          (match k.hdr.opcode with
          | 0x0502 => s.compact p.part k c r [ERR_TIMEOUT]
          | 0x0503 => s.combineEnd p.part k c r [ERR_TIMEOUT]
          | 0x0504 => s.combineBwdEnd p.part k c r [ERR_TIMEOUT]
          | 0x0501 => (s.endPacket p.part { k with res :=
              { Result.empty with watch := k.res.watch, clipped := k.res.clipped, ternInvalid := k.res.ternInvalid } } ERR_TIMEOUT).dropExchange p.part c.routeKey
          | _ => (s.endPacket p.part { k with res := Result.empty } ERR_TIMEOUT).dropExchange p.part c.placeKey))
        ∧ (¬object ∨ k.phase ≠ .running ∨ c.owes r x = false ∨ r.keys.length ≤ x ∨ ¬late pt.hbTime → exec (.exchangeTimeout p x) s = .next s)
        ∧ (¬object → k.phase = .running → x ∈ c.awaits r → pt.collLimit ≠ 0 → late pt.collLimit → exec (.collTimeout p x) s = .next
          (if k.hdr.opcode = 0x0806 ∧ c.isSpare = true then ended.modPart p.part (·.dropFilling c.gen) else ended))
        ∧ (object ∨ k.phase ≠ .running ∨ x ∉ c.awaits r ∨ pt.collLimit = 0 ∨ ¬late pt.collLimit → exec (.collTimeout p x) s = .next s))

/-! Collectives (R331, R341 to R352). -/

/-- The packet of work that it goes on from: running, with its remote part. -/
def Claims.running (s : State) (k : Packet) (w : WorkOut) (r : Remote) : Packet :=
  { k with phase := .running, res := Claims.result s k w, remote := some r }

/-- One command that starts a collective: the opcode's code, the packet's own part, and the arguments of the READYs that it then sends. -/
structure Claims.CollectiveRow where
  cmd : Instr
  code : Nat
  own : Ctx → Remote → WorkOut × Remote
  args : Ctx → Remote → Nat × Nat × Nat × Nat

/-- The collectives: SCALE_AGREE forms its buckets' exponents and stages round 0, RS_INT its contributions, ALLGATHER and ALLTOALL their
rows, PERMUTE_SHARDS its moves, and BARRIER nothing (R342, R344, R346, R347, R349, R351, R352). -/
def Claims.collectives (p : PacketRef) : List Claims.CollectiveRow :=
  let landing := fun (c : Ctx) (r : Remote) => (globalAddr c.s.endpoint r.landing, 0, 0, 0)
  let spans := fun (c : Ctx) => (List.range c.buckets).flatMap fun b => (c.loc (bucketField b 0)).spans
  [⟨.scaleAgree p, 0x0601, fun c r =>
      let es := (List.range c.buckets).map c.localExp
      ({ reads := spans c, writes := [], res := { Result.empty with ternInvalid := c.bucketTern } },
       Remote.stageRound
         { r with vec := es.map (·.1), finishedUnits := ((List.range es.length).zip es).filterMap fun x => if x.2.2 then some x.1 else none }
         c.scaleStep 0), landing⟩,
   ⟨.rsInt p, 0x0602, fun c r =>
      let shard := fun (j : Nat) => ((List.range c.buckets).map fun b => (b, c.bucketElts b)).flatMap fun x =>
        c.shardWrites x.2 x.1 j (c.slotBase x.1 + r.rank * c.slotBytes x.1) (r.layerCounts x.1)
      ({ reads := spans c, writes := (shard r.rank).map fun w => { w with addr := w.addr + r.landing },
         res := { Result.empty with ternInvalid := c.bucketTern } },
       { r with staged := r.others.flatMap fun j => (shard j).map fun w => (j, w) }), landing⟩,
   ⟨.allgather p, 0x0603, Ctx.gatherWork, gatherArgs⟩,
   ⟨.alltoall p, 0x0604, Ctx.gatherWork, gatherArgs⟩,
   ⟨.permuteShards p, 0x0605, fun c r =>
      let mine := c.moves.filter fun m => m.src == r.rank
      let here := mine.filter fun m => m.dst == r.rank
      let base := c.shift (c.addr 0x20)
      ({ reads := mine.map fun m => (base + m.srcOff, m.len),
         writes := here.flatMap fun m => (c.moveTransfer m).map fun w => { w with addr := w.addr + base }, res := Result.empty },
       { r with vec := [(c.mhash : Int)], received := (here.map fun m => m.len / 64).sum,
                staged := (mine.filter fun m => m.dst != r.rank).flatMap fun m => (c.moveTransfer m).map fun w => (m.dst, w) }),
      fun c r => (globalAddr c.s.endpoint (c.shift (c.addr 0x20)), (r.vec.headD 0).toNat, 0, 0)⟩,
   ⟨.barrier p, 0x0606, fun _ r => (WorkOut.of Result.empty, r), fun _ _ => (0, 0, 0, 0)⟩]

/-- The start of a collective (R331, R342, R344, R347, R349, R351, R352). -/
def Obligations.CollectivesStart : Prop :=
  ∀ (p : PacketRef), ∀ row ∈ Claims.collectives p, ∀ (s : State) (k : Packet) (c : Ctx) (r : Remote),
    Claims.Ready s p row.code k c → k.remote = some r → Claims.Reached s k (row.own c r).1 →
      let w := (row.own c r).1
      let r1 := (row.own c r).2
      let k1 := Claims.running s k w r1
      ∃ b, Claims.Works s b p w k1
        ∧ exec row.cmd s = .next ((b.controlAll p.part p c.ctag 1 (row.args c r1) (c.sources r1)).advance (advanceFuel r.keys.length) p)
        ∧ (row.code ≠ 0x0602 → r.keys.length = 1 → r.rank = 0 → r.ready = [] → r.sentTo = [] → r.round = 0 →
            ∃ c1, b.ctx p.part k1 = some c1 ∧ exec row.cmd s = .next (b.endRunning p.part k1 (c1.collectiveEnd r1)))

/-- BUCKET_REDUCE (R344, R345, R346). -/
def Obligations.BucketsReduced : Prop :=
  ∀ (p : PacketRef) (bucket : Nat) (s : State) (k : Packet) (c : Ctx) (r : Remote),
    Claims.Running s p 0x0602 k c → k.remote = some r →
      (bucket < c.buckets → bucket ∉ r.finishedUnits → c.allLanded r = true →
        let out := c.bucketReduceWork r bucket
        let w := { out.1 with res := { k.res with
          codes := k.res.codes ++ out.1.res.codes, count1 := k.res.count1 + out.1.res.count1,
          watch := k.res.watch ++ out.1.res.watch, clipped := k.res.clipped + out.1.res.clipped } }
        let out32 := c.addr 0x20 ≠ 0 ∧ s.reachable (c.shift (c.addr 0x20)) 32 = false
        (out32 → exec (.bucketReduce p bucket) s = .next (s.endPacket p.part k ERR_PEER_UNREACHABLE))
        ∧ (¬out32 → Claims.Reached s k w → ∃ b, Claims.Works s b p w (Claims.running s k w { r with finishedUnits := setIns r.finishedUnits bucket })
          ∧ exec (.bucketReduce p bucket) s = .next
            (((if c.addr 0x20 = 0 then b else b.addQuads (c.shift (c.addr 0x20)) out.2).modPart p.part fun pt =>
              let l := pt.layer c.rsLayer
              let pt1 := if c.rsLayer ≠ 0xFFFF ∧ l.slot.isSome = true ∧ l.scope = .reduced then pt.setLayer c.rsLayer (l.addTotals out.2) else pt
              if c.bucketSig bucket = 0xFFFF then pt1 else pt1.raise (c.bucketSig bucket) 1).advance (advanceFuel r.keys.length) p)))
      ∧ (c.buckets ≤ bucket ∨ bucket ∈ r.finishedUnits ∨ c.allLanded r = false → exec (.bucketReduce p bucket) s = .next s)

/-! Expert routing (R218 to R244). -/

/-- The places of row `at_` of a tensor: its elements, then its scales. -/
def Claims.rowSpans (d : Desc) (at_ : List Nat) : List (Nat × Nat) :=
  (d.bitAddr at_ / 8, d.rowBytes) :: (if d.isScaled then [(d.scaleAddr at_, ceilDiv (d.e 0) 32)] else [])

/-- ROUTE, DISPATCH, COMBINE and COMBINE_BWD (R224, R226, R231, R232, R233, R234, R238, R240). -/
def Obligations.ExpertsExchange : Prop :=
  ∀ (p : PacketRef) (s : State) (k : Packet) (c : Ctx) (r : Remote),
    let ended := { k with phase := .finished, res := Claims.result s k (WorkOut.of Result.empty) }
    let key := c.waveKey
    let g := c.loc 1
    let recs := c.waveRecs c.wave
    let later := if c.deferred && c.wave == 0 then c.laterRecs else []
    let staged := fun (k1 : Packet) (row : Nat → Payload) (t : State) =>
      if later = [] then t else t.modPart p.part (·.stage key k1 (later.map fun y => (y.1, row y.1)))
    let roomless := fun (k1 : Packet) => if later = [] then k1 else { k1 with pool := [] }
    let seg := c.shift (c.addr (if k.hdr.opcode = 0x0503 then 0x10 else 0x20))
    let r1 := { r with vec := (c.segTable seg).map Int.ofNat }
    let segBytes := (seg, 4 * c.nSlots * (c.nMembers + 1))
    let sources := fun (_ : Unit) => (recs ++ later).flatMap fun y => Claims.rowSpans g [0, y.1 / max 1 c.routeK]
    (Claims.Ready s p 0x0501 k c →
      let as := c.assigned c.gate
      (c.defer = false → Claims.Reached s k (c.routeWork c.gate as 1) → ∃ t, exec (.route p) s = .next t
        ∧ Claims.Works s t p (c.routeWork c.gate as 1) { k with phase := .finished, res := Claims.result s k (c.routeWork c.gate as 1) })
      ∧ (c.defer = true → k.remote = some r →
        let w := c.routeWork c.gate as (localWaves as)
        let r0 := { r with vec := [(localWaves as : Int)] }
        Claims.Reached s k w → ∃ b, Claims.Works s b p w (Claims.running s k w r0) ∧
          let sent := b.sendMembers p.part p r0 (r.others.map fun i => (i, c.routeKey.msg r.rank X_COUNT 0 0 ⟨toLe 4 (localWaves as), []⟩))
          let k2 := Claims.running s k w sent.2
          let u := sent.1.setPacket p.part k2
          exec (.route p) s = .next ((u.routeNext p.part k2 c sent.2).getD u)))
    ∧ (c.waveCount ≤ c.wave → s.engineDown k = false → k.remote = some r →
      (Claims.Ready s p 0x0502 k c → exec (.dispatchRows p) s = .next (s.setPacket p.part ended))
      ∧ (Claims.Ready s p 0x0503 k c → exec (.combineRows p) s = .next (s.setPacket p.part ended))
      ∧ (Claims.Ready s p 0x0504 k c → exec (.combineBwd p) s = .next (s.setPacket p.part ended)))
    ∧ (c.wave < c.waveCount → k.remote = some r →
      (Claims.Ready s p 0x0502 k c →
        let row := fun (i : Nat) => c.s.rowPayload g [0, i / max 1 c.routeK]
        let w := { WorkOut.of Result.empty with reads := if c.wave = 0 then sources () else [] }
        Claims.Reached s k w → ∃ b, Claims.Works s b p w (Claims.running s k w r) ∧
          let headers := (List.range c.nMembers).map fun m => (m, key.msg r.rank X_HEADER 0 0 (countsPayload (c.headerCounts m)))
          let totals := if c.lastWave then (List.range c.nMembers).map fun m => (m, key.msg r.rank X_TOTALS 0 0 (countsPayload c.totalCounts)) else []
          let rows := recs.map fun y => (y.2.gslot / c.nSlots, key.msg r.rank X_ROW (y.2.gslot % c.nSlots) y.2.pos
            (((s.part p.part).staged key y.1).getD (row y.1)))
          let sent := (staged (Claims.running s k w r) row b).sendMembers p.part p r (headers ++ totals ++ rows)
          let ms := sent.1.held p.part key
          exec (.dispatchRows p) s = .next (sent.1.landStore p.part (roomless (Claims.running s k w r)) sent.2 2 c (c.landRows ms (rowsOf ms))))
      ∧ (Claims.Ready s p 0x0503 k c →
        let rows := (List.range c.nSlots).flatMap fun l => (List.range c.nMembers).flatMap fun σ =>
          (List.range (c.segRows r1 l σ)).map fun i => (σ, l, i, r1.seg c.nMembers l σ + i)
        let w := { WorkOut.of Result.empty with reads := segBytes :: rows.flatMap fun x => Claims.rowSpans g [0, x.2.2.2, x.2.1] }
        Claims.Reached s k w → ∃ b, Claims.Works s b p w (Claims.running s k w r1) ∧
          let sent := b.sendMembers p.part p r1 (rows.map fun x =>
            (x.1, key.msg r.rank X_ROW x.2.1 x.2.2.1 (c.s.rowPayload g [0, x.2.2.2, x.2.1])))
          let u := sent.1.landStore p.part (Claims.running s k w r1) sent.2 3 c (c.landReturned (rowsOf (sent.1.held p.part key)))
          exec (.combineRows p) s = .next (match u.packet p with
            | none => u
            | some k3 => if k3.phase ≠ .running then u else (u.combineNext p.part k3 { c with s := u } sent.2).getD u))
      ∧ (Claims.Ready s p 0x0504 k c →
        let w := { WorkOut.of { Result.empty with ternInvalid := if c.wave = 0 then c.s.ternDense g else 0 } with
          reads := segBytes :: (if c.wave = 0 then sources () else []) }
        Claims.Reached s k w → ∃ b, Claims.Works s b p w (Claims.running s k w r1) ∧
          let sent := (staged (Claims.running s k w r1) c.bwdRow b).sendMembers p.part p r1 (recs.map fun y => (y.2.gslot / max 1 c.nSlots,
            key.msg r.rank X_ROW (y.2.gslot % max 1 c.nSlots) y.2.pos (((s.part p.part).staged key y.1).getD (c.bwdRow y.1))))
          let u := sent.1.landStore p.part (roomless (Claims.running s k w r1)) sent.2 3 c (c.landGrads sent.2 (rowsOf (sent.1.held p.part key)))
          exec (.combineBwd p) s = .next (match u.packet p with
            | none => u
            | some k4 => if k4.phase ≠ .running then u else (u.combineBwdNext p.part k4 { c with s := u } sent.2).getD u)))
    ∧ (Claims.Running s p 0x0502 k c → k.remote = some r →
      let ms := (s.held p.part key).filter fun m => !(r.finishedUnits.contains m.src)
      let counts := (List.range c.nSlots).map fun l => (List.range c.nMembers).map fun σ => (c.segment ms l σ).length
      (c.dispatchComplete r (s.held p.part key) = true → ∃ w, w.res.count0 = (counts.map List.sum).sum ∧ w.res.count1 = r.sent
        ∧ (⟨c.addr 0x18, counts.flatMap fun ns => (List.range (ns.length + 1)).flatMap fun i => toLe 4 (ns.take i).sum, false⟩ : Write) ∈ w.writes
        ∧ (Claims.Reached s k w → ∃ b, Claims.Works s b p w { k with phase := .finished, res := Claims.result s k w }
            ∧ exec (.dispatchCompact p) s = .next ((b.countDrops p.part ((rowsOf ms).filter fun m => !c.rowFits ms m).length).dropExchange p.part key)))
      ∧ (c.dispatchComplete r (s.held p.part key) = false → exec (.dispatchCompact p) s = .next s))

/-- PLACE_EXPERTS (R218, R220, R243). -/
def Obligations.PlacementChanges : Prop :=
  ∀ (p : PacketRef) (s : State) (k : Packet) (c : Ctx), s.packet p = some k → s.ctx p.part k = some c → k.hdr.opcode = 0x0505 → s.fatal = false →
    let waiting := s.setPacket p.part { k with phase := .refWait }
    let ends := fun (cmd : Instr) (es : List Effect) => s.engineDown k = false → exec cmd s = .next (s.setPacket p.part
      { k with phase := .finished, res := Claims.result s k (Claims.effects es) })
    let talks := fun (cmd : Instr) (r : Remote) (what : Nat) (data : Payload) => s.engineDown k = false →
      ∃ b, Claims.Works s b p (WorkOut.of Result.empty) (Claims.running s k (WorkOut.of Result.empty) r) ∧
        let sent := b.sendMembers p.part p r (r.others.map fun i => (i, c.placeKey.msg r.rank what 0 0 data))
        exec cmd s = .next ((sent.1.setRemote p.part (Claims.running s k (WorkOut.of Result.empty) r) sent.2).placeAdvance 4 p)
    (∀ r, k.remote = some r →
      (k.phase = .ready → c.placeOp = 0 → talks (.placeExpertsSet p) r X_DIGEST ⟨c.setDigest, []⟩)
      ∧ (c.placeOp = 1 →
        (k.phase = .refWait → (s.part p.part).objHeld c.objNo = false →
          talks (.placementRevision p) r X_LOADS ⟨c.o.loads.flatMap (toLe 8), []⟩)
        ∧ (k.phase = .refWait → (s.part p.part).objHeld c.objNo = true → exec (.placementRevision p) s = .next s)
        ∧ (k.phase = .running → ∀ t, s.placeNext p.part k c r = some t → exec (.placementRevision p) s = .next (t.placeAdvance 3 p))
        ∧ (k.phase = .running → s.placeNext p.part k c r = none → exec (.placementRevision p) s = .next s)))
    ∧ (k.phase = .ready → c.placeOp = 1 →
      let pt := s.part p.part
      let alone := k.remote = none ∧ (pt.members = [] ∨ pt.quarantined = true)
      (c.o.due = true → ¬alone → exec (.placeExpertsStep p) s =
        .next (s.setPacket p.part { k with phase := .refWait, remote := some (k.remote.getD c.placeRemote) }))
      ∧ (c.o.due = true → alone → exec (.placeExpertsStep p) s =
        .next (s.endPacket p.part k (if pt.members = [] then ERR_PEER_UNREACHABLE else ERR_EPOCH)))
      ∧ (c.o.due = false → ends (.placeExpertsStep p) [.objStep c.objNo, .objMirror c.objNo]))
    ∧ (k.phase = .ready ∨ k.phase = .refWait → c.placeOp = 2 →
      ((s.part p.part).objHeld c.objNo = true → exec (.placeExpertsRelease p) s = .next waiting)
      ∧ ((s.part p.part).objHeld c.objNo = false → ends (.placeExpertsRelease p) [.objMirror c.objNo, .objUnset c.objNo]))

/-! Snapshots (R395 to R407), keys and bounce queues (R430 to R438), and the bridge (R320 to R326). -/

/-- SNAP_BEGIN, SNAP_WRITE, SNAP_PARITY, SNAP_COMMIT, RESTORE and REBUILD (R395, R397, R401, R402, R404, R406); the announcement of a spare is
the model's (log entry 26). -/
def Obligations.SnapshotsRun : Prop :=
  ∀ (p : PacketRef) (s : State) (k : Packet) (c : Ctx), s.packet p = some k → s.ctx p.part k = some c → s.fatal = false → s.engineDown k = false →
    let pt := s.part p.part
    let gen := fun (f : Generation → Generation) (t : State) => t.modPart p.part (·.modGen c.gen f)
    let done := fun (w : WorkOut) => { k with phase := .finished, res := Claims.result s k w }
    let ended := fun (r : Result) => s.setPacket p.part (done (WorkOut.of r))
    let waiting := s.setPacket p.part { k with phase := .refWait }
    let runs := fun (r : Remote) (f : State → State) (cmd : Instr) =>
      ∃ b, Claims.Works s b p (WorkOut.of Result.empty) (Claims.running s k (WorkOut.of Result.empty) r) ∧ exec cmd s = .next (f b)
    (k.hdr.opcode = 0x0801 →
      (k.phase = .ready → c.u 4 1 = 0 →
        (pt.beginFails c.gen = true → exec (.snapBegin p) s = .next (ended { Result.of [ERR_DESCRIPTOR] 0 0 0 with field := 0 }))
        ∧ (pt.beginFails c.gen = false →
            exec (.snapBegin p) s = .next ((ended Result.empty).modPart p.part fun pt =>
              let g := { Generation.free with state := .opened, gen := c.gen, noParity := (c.u 5 1).testBit 0 }
              { pt with catalogue := pt.catalogue.set (pt.catalogue.findIdx fun x => x.state == .free) g })))
      ∧ (k.phase = .ready ∨ k.phase = .refWait → c.u 4 1 = 1 →
        (pt.genUsed c.gen k.ring k.idx = true → exec (.snapDiscard p) s = .next waiting)
        ∧ (pt.genUsed c.gen k.ring k.idx = false → exec (.snapDiscard p) s = .next (gen (fun _ => Generation.free) (ended Result.empty)))))
    ∧ (k.hdr.opcode = 0x0802 → k.phase = .ready →
      let n := (k.work.headD 0).toNat
      let a := c.shift (c.addr 0)
      let res := Result.of [] n (min (c.extentLen / 4096) 0xFFFFFFFF) 0
      (c.writesSchedule = true → exec (.snapWrite p) s =
        .next (ended (Result.of [] n (min (((c.genEntry.bind fun g => g.extents[n]?).map (·.len)).getD 0 / 4096) 0xFFFFFFFF) 0)))
      ∧ (c.writesSchedule = false → let w := { WorkOut.of res with reads := [(a, c.extentLen)] }
          Claims.Reached s k w → ∃ b, Claims.Works s b p w (done w) ∧ exec (.snapWrite p) s = .next (b.modPart p.part fun pt =>
            (pt.modExtent c.gen n fun e => { e with data := s.sparse a c.extentLen, poisonUnits := s.badUnits a c.extentLen }).modGen c.gen
              fun g => { g with poisoned := g.poisoned || !(s.badUnits a c.extentLen).isEmpty })))
    ∧ (k.hdr.opcode = 0x0805 → k.phase = .ready →
      let w := c.restoreWork pt (c.restoreApplied pt).2
      (c.restoreWaits = true → exec (.restoreGen p) s = .next waiting)
      ∧ (c.restoreWaits = false →
        (c.restorePlans = [] → Claims.Reached s k w → ∃ t, exec (.restoreGen p) s = .next t ∧ Claims.Works s t p w (done w))
        ∧ (c.restorePlans ≠ [] → exec (.restoreGen p) s = .next ((s.modPart p.part fun _ => (c.restoreApplied pt).1).finish p.part k w))))
    ∧ (k.hdr.opcode = 0x0804 → k.phase = .ready → ∀ g, c.genEntry = some g →
      (g.noParity = true →
        (s.freeUnits p.part = 0 → exec (.snapCommit p) s = .next (ended { Result.of [ERR_DESCRIPTOR] 0 0 0 with field := 0xFF }))
        ∧ (s.freeUnits p.part ≠ 0 → exec (.snapCommit p) s =
            .next (gen (fun g => { g.close c.ghash with state := .committed, ghash := c.ghash }) (ended Result.empty))))
      ∧ (g.noParity = false → ∀ r, k.remote = some r → runs r (State.advance (advanceFuel r.keys.length) p) (.snapCommit p)))
    ∧ ∀ r, k.remote = some r →
      let others := r.keys.length - 1
      let units := fun (u : Nat) => s.xorBuffer (r.bufferAt others (u % 2) 0) others
      let buffer := fun (u : Nat) => { WorkOut.of k.res with reads := [(r.bufferAt others (u % 2) 0, others * unitBytes)] }
      (k.hdr.opcode = 0x0803 →
        (k.phase = .ready → runs { r with vec := [0] } (fun b =>
            let b1 := gen (fun g => g.close r.ghash) b
            let units := (((b1.part p.part).generation c.gen).map (·.units)).getD 0
            (b1.controlAll p.part p c.ctag 1 (0, units, 0, 0) (r.others.map fun x => (x, 0))).parityAdvance (advanceFuel (8 * r.keys.length)) p)
          (.snapParity p))
        ∧ (k.phase = .running → ∀ unit,
          let all := r.others.map fun x => (x, unit % 256)
          let mine := unit = r.round ∧ (unit : Int) < r.vec.headD 0 ∧ (∀ t ∈ all, t ∈ r.done)
          (mine → Claims.Reached s k (buffer unit) → ∃ b,
            Claims.Works s b p (buffer unit) (Claims.running s k (buffer unit)
              { r with round := unit + 1, done := r.done.filter fun t => !all.contains t })
            ∧ exec (.parityUnitXor p unit) s = .next ((gen (fun g => { g with
                parity := g.parity ++ [(unit, units unit)], poisoned := g.poisoned || (units unit).2 }) b).parityAdvance
                  (advanceFuel (8 * r.keys.length)) p))
          ∧ (¬mine → exec (.parityUnitXor p unit) s = .next s)))
      ∧ (k.hdr.opcode = 0x0806 →
        (k.phase = .ready → runs r (fun b => (if c.isSpare then b.controlAll p.part p c.ctag 1 (0, 0, 0, 0) [(c.coordinator, 0)] else b).rebuildAdvance
            (advanceFuel (8 * r.keys.length)) p) (.rebuild p))
        ∧ (k.phase = .running → ∀ stripe,
          let others := c.ranks - 1
          let a := r.bufferAt others (stripe % 2) 0
          let u := s.xorBuffer a others
          let w := { WorkOut.of k.res with reads := [(a, others * unitBytes)] }
          let all := c.survivors.map fun x => (x, stripe % 256)
          let mine := c.isSpare = true ∧ r.chosen = some r.rank ∧ stripe = r.round ∧ (stripe : Int) < r.vec[1]?.getD 0 ∧ (∀ t ∈ all, t ∈ r.done)
          (mine → Claims.Reached s k w → ∃ b,
            Claims.Works s b p w (Claims.running s k w { r with round := stripe + 1, done := r.done.filter fun t => !all.contains t })
            ∧ exec (.rebuildStripe p stripe) s = .next ((gen (fun g =>
                let g1 := { g with poisoned := g.poisoned || u.2 }
                if stripe % c.ranks = c.lostRank then { g1 with parity := g1.parity ++ [(stripe / c.ranks, u)] }
                else { g1 with rebuilt := g1.rebuilt ++ [(unitInStripe c.ranks c.lostRank stripe, u)] }) b).rebuildAdvance
                  (advanceFuel (8 * c.ranks)) p))
          ∧ (¬mine → exec (.rebuildStripe p stripe) s = .next s)))

/-- KEY_EXCHANGE with OP PORT and CLEAR_PORT, and the bounce queues' SEND and inbound records (R430, R436, R437); the end of a SEND at a source
that cannot be read is the model's choice (log entry 30). -/
def Obligations.KeysAndBounce : Prop :=
  (∀ (p : PacketRef) (s : State) (k : Packet) (c : Ctx), Claims.Ready s p 0x0B02 k c →
    let k1 := { k with phase := .running }
    (∀ r, k.remote = some r → c.keyOp = 2 →
      let sent := (s.setPacket p.part k1).keyControl c r 1 0 (globalAddr s.endpoint r.landing) (s.serial % 2 ^ 64) (s.serial / 2 ^ 64 % 2 ^ 64) c.keyPort
      exec (.keyExchangePort p) s = .next (if sent.2 = true then sent.1.keyAdvance 8 p else sent.1.endPacket p.part k1 ERR_PEER_UNREACHABLE))
    ∧ (c.keyOp = 4 →
      ((s.port c.keyPort).state = .down → s.engineDown k = false → exec (.clearPort p) s =
        .next ((s.modPort c.keyPort fun x => { x with keys := none, switching := none }).setPacket p.part
          { k with phase := .finished, res := Claims.result s k (WorkOut.of Result.empty) }))
      ∧ ((s.port c.keyPort).state ≠ .down → exec (.clearPort p) s = .next ((s.setPacket p.part k1).switchPort c.keyPort none))))
  ∧ (∀ (p : PacketRef) (s : State) (k : Packet) (c : Ctx), s.packet p = some k → s.ctx p.part k = some c → k.hdr.opcode = 0x0B03 → s.fatal = false →
    (k.phase = .ready → c.bounceOp = 2 →
      let begun := s.setPacket p.part { k with phase := .running, work := [0] }
      exec (.bounceSend p) s = .next (State.sendRecords sendFuel p begun) ∧ exec (.bounceSendRoom p) begun = exec (.bounceSend p) s)
    ∧ (k.phase = .running →
      let off := (k.work.headD 0).toNat
      let q := (s.part p.part).queue c.bounceQueue
      let n := min 4032 (c.sendLen - off)
      let a := c.shift (c.addr 0x18) + off
      let codes := s.accessCodes .controller [(a, n)] []
      let s1 := s.readEffects a n (statusOf codes) k.ring
      let clear := q.room = true ∧ q.waiting = []
      (c.sendLen ≤ off → exec (.bounceSendRoom p) s = .next (s.setPacket p.part { k with phase := .finished }))
      ∧ (off < c.sendLen → ¬clear → exec (.bounceSendRoom p) s = .next s)
      ∧ (off < c.sendLen → clear → codes ≠ [] → exec (.bounceSendRoom p) s =
          .next (s1.setPacket p.part { k with phase := .finished, res := { k.res with codes := k.res.codes ++ codes } }))
      ∧ (off < c.sendLen → clear → codes = [] → exec (.bounceSendRoom p) s =
          .next (State.sendRecords (sendFuel - 1) p
            ((s1.bouncePut p.part c.bounceQueue ⟨0, c.addr 0x18 + off, 0, c.u 0x24 4, s1.read a n, none⟩).setPacket p.part
              { k with work := [((off + n : Nat) : Int)], res := { k.res with count0 := k.res.count0 + 1 } })))))
  ∧ ∀ (part queue : Nat) (record : List Byte) (s : State),
    let b := (s.part part).queue queue
    let h := (s.part part).host
    let bytes := padTo 4096 record
    let f := fun (off w : Nat) => fieldAt bytes off w
    let asked := s.isPart part = true ∧ b.bound = true ∧ b.stopped = false ∧ b.inCons ≠ b.inProd ∧ s.fatal = false
    let reason := s.bounceRefusal part queue bytes
    let taken := s.modQueue part queue fun x => { x with inSeq := x.inSeq + 1, inCons := (x.inCons + 1) % 2 ^ 32 }
    (¬asked → exec (.bounceRecord part queue record) s = .next s)
    ∧ (asked → reason ≠ 0 → exec (.bounceRecord part queue record) s =
        .next ((s.modQueue part queue fun b => { b with stopped := true }).bouncePut part queue ⟨2, f 0 8, 0, reason, [], none⟩))
    ∧ (asked → reason = 0 →
      (f 0x14 1 = 0 → ∃ data, gcmOpen h.keyIn (bounceNonce h.salt queue (f 0 8)) (bytes.take 32) ((bytes.drop 32).take (f 0x10 4)) ((bytes.drop 0xFF0).take 16) = some data
        ∧ ∃ t, exec (.bounceRecord part queue record) s = .next t
          ∧ (if s.reachable (f 8 8) (f 0x10 4) = true then Safety.OnlyData taken t
              ∧ (s.faults = [] → t.mem = Safety.written s.mem [⟨f 8 8, data, false⟩]) else t = taken))
      ∧ (f 0x14 1 ≠ 0 → exec (.bounceRecord part queue record) s =
          .next ((taken.modQueue part queue fun x => { x with named := setIns x.named (f 0x16 2) }).modRing part (f 0x16 2) fun r =>
            { r with tail := f 8 4, stopped := false })))

/-- BAR2_ACCESS, APERTURE_ACCESS, BRIDGE_READ_TIMEOUT, MSIX_UNMASK, PCIE_HOT_RESET and PCIE_LINK_UP (R320 to R324, R431, R457); BAR2 accesses
that are no whole quadword are the model's (log entry 37). -/
def Obligations.BridgeAccesses : Prop :=
  (∀ (fn off size : Nat) (write : Option Word) (s : State),
    let g := off / 0x40000
    let q := off / 0x10000 % 4
    let o := off % 0x10000
    let dst := s.board.group[g]?.getD 0
    let go := fun (u : State) => exec (.bar2Access fn off size write) s = .next u
    let msg := fun (addr : Nat) (data : List Byte) => ({ s with nextMsgId := (s.nextMsgId + 1) % 2 ^ 32, bridgeHeld := s.bridgeHeld ++
      [⟨2 ^ 32 + s.nextMsgId, s.mclk, fn, g, ⟨M_REG, 0, dst, s.endpoint, 0, 0, addr, if write.isSome then 8 else 0, 0, data⟩⟩] } : State).releaseHeld
    (s.pathUp (.bar0 fn) = false ∨ s.isPart fn = false ∨ 0x800000 ≤ off → go s)
    ∧ (s.pathUp (.bar0 fn) = true → s.isPart fn = true → off < 0x800000 →
      (s.board.group.length ≤ g ∨ s.lowQ q ≠ fn →
        go (if write.isSome then s else s.emit (.readData (.reg fn) (List.replicate size 0))))
      ∧ (g < s.board.group.length → s.lowQ q = fn →
        (dst = s.endpoint ∨ size ≠ 8 ∨ o % 8 ≠ 0 → go (match write with
          | some v => s.regWrite (.reg fn) q o size v
          | none => (s.regRead (.reg fn) q o size).1.emit (.readData (.reg fn) (s.regRead (.reg fn) q o size).2)))
        ∧ (dst ≠ s.endpoint → size = 8 → o % 8 = 0 →
            let addr := globalAddr dst (0x0F0000000000 + q * 65536 + o)
            go (match write with
              | some v => msg addr (toLe 8 v.toNat)
              | none => msg addr [])))))
  ∧ (∀ (fn off : Nat) (op : ApertureOp) (s : State), s.pathUp (.bar0 fn) = true → s.isPart fn = true → off < 2 ^ 36 →
    let ga := s.configItem fn 0xD0000 + off
    let a := ga % 2 ^ 49
    let dst := ga / 2 ^ 49
    let g := s.board.group.idxOf dst
    let len := match op with | .write d => d.length | .read n => n
    let refused := fun (member : Nat) =>
      let t := (s.log fn (mkEvent 0x4E member 4)).bridgeEvent fn
      exec (.apertureAccess fn off op) s = .next (match op with | .write _ => t | .read _ => t.emit (.completerAbort fn))
    let most := match op with | .write _ => 512 | .read _ => 4096
    (most < len → exec (.apertureAccess fn off op) s = .next s)
    ∧ (len ≤ most → dst ∉ s.board.group → refused 0xFFFF)
    ∧ (len ≤ most → dst ∈ s.board.group →
      (dst = s.endpoint → (s.servesThere fn dst a = true ↔ s.ownerOf a = some fn))
      ∧ (s.servesThere fn dst a = false → refused g)
      ∧ (s.servesThere fn dst a = true → dst ≠ s.endpoint → exec (.apertureAccess fn off op) s = .next (match op with
        | .read n => ({ s with nextMsgId := (s.nextMsgId + 1) % 2 ^ 32, bridgeHeld := s.bridgeHeld ++
            [⟨2 ^ 32 + s.nextMsgId, s.mclk, fn, g, ⟨M_READ_REQ, 0, dst, s.endpoint, 0, 0, ga, n, 0, []⟩⟩] } : State).releaseHeld
        | .write d =>
          let x := s.send fn none dst M_WRITE 0 ga d.length 0 d
          match x.2 with
          | some (id, i) => { x.1 with bridgeReqs := x.1.bridgeReqs ++ [⟨id, fn, g, i, true, true, 0, s.mclk⟩] }
          | none => x.1))
      ∧ (s.ownerOf a = some fn → dst = s.endpoint →
        let mine := s.inMemory fn a len = true ∧ s.hostMayReach fn a len = true
        let up := s.reachable a len = true ∧ s.quarterOff fn = false
        (¬mine → refused g)
        ∧ (mine → ¬up → exec (.apertureAccess fn off op) s = .next (match op with | .write _ => s | .read _ => s.emit (.completerAbort fn)))
        ∧ (mine → up → ∃ t, exec (.apertureAccess fn off op) s = .next t ∧ (match op with
          | .write d => Safety.OnlyData s t ∧ (s.faults = [] → t.mem = Safety.written s.mem [⟨a, d, false⟩])
          | .read n => s.faults = [] → t = s.emit (if s.poisonMapOf a n = 0 then .readData (.reg fn) (s.read a n)
              else .readPoisoned (.reg fn) (s.read a n) (s.poisonMapOf a n)))))))
  ∧ (∀ (id : Nat) (s : State),
    let ends := fun (u : State) (fn member bytes : Nat) =>
      exec (.bridgeReadTimeout id) s = .next (((u.emit (.readData (.reg fn) (List.replicate bytes 0xFF))).log fn (mkEvent 0x4F member 0)).bridgeEvent fn)
    let sent := s.bridgeReqs.find? fun r => r.msgId == id && !r.aperture && !r.isWrite
    let held := s.bridgeHeld.find? fun h => h.id == id && h.msg.mtype == M_REG && h.msg.data.isEmpty
    (∀ q, sent = some q →
      (s.mclk < q.time + 500000 → exec (.bridgeReadTimeout id) s = .next s)
      ∧ (q.time + 500000 ≤ s.mclk → ends { s with bridgeReqs := s.bridgeReqs.filter fun r => r != q } q.fn q.member q.bytes))
    ∧ (∀ h, sent = none → held = some h →
      (s.mclk < h.time + 500000 → exec (.bridgeReadTimeout id) s = .next s)
      ∧ (h.time + 500000 ≤ s.mclk → ends { s with bridgeHeld := s.bridgeHeld.filter fun x => x != h } h.fn h.member 8))
    ∧ (sent = none → held = none → exec (.bridgeReadTimeout id) s = .next s))
  ∧ (∀ (fn vector : Nat) (s : State),
    let e := s.msixEntry fn vector
    let u := { s with msixTable := Tbl.set (0, 0, true) s.msixTable (fn * 64 + vector) (e.1, e.2.1, false) }
    let reached := s.pathUp (.bar0 fn) = true ∧ s.isPart fn = true ∧ vector < 64
    (¬reached → exec (.msixUnmask fn vector) s = .next s)
    ∧ (reached → (fn, vector) ∉ s.msixPending → exec (.msixUnmask fn vector) s = .next u)
    ∧ (reached → (fn, vector) ∈ s.msixPending → exec (.msixUnmask fn vector) s = .next { u with
        msixPending := s.msixPending.filter (· ≠ (fn, vector)), out := s.out ++ [.msix fn vector e.1 e.2.1] }))
  ∧ ∀ s : State,
    (s.mainUp = true ∧ s.board.xLanug = false → exec .pcieHotReset s =
      .next (s.partList.foldl State.destroyHostKeys
        { s with msixTable := [], msixPending := [], pcieSpeed := 0, pcieWidth := 0, bridgeReqs := [], bridgeHeld := [] }))
    ∧ (s.mainUp = false ∨ s.board.xLanug = true → exec .pcieHotReset s = .next s)
    ∧ ∀ speed width,
      let trains := s.mainUp = true ∧ s.board.xLanug = false ∧ 40 ∉ s.clocksLost ∧ s.tripped = false ∧ 1 ≤ speed ∧ speed ≤ 6
        ∧ (width = 1 ∨ width = 4 ∨ width = 8 ∨ width = 16)
      (trains → exec (.pcieLinkUp speed width) s = .next { s with pcieSpeed := speed, pcieWidth := width })
      ∧ (¬trains → exec (.pcieLinkUp speed width) s = .next s)

/-! Addresses (R247 to R250). -/

/-- The ranges and sets of a partition, and the decoding of its addresses, one to one (R247; the places by R248, R249 and R250). -/
def Obligations.AddressesDecode : Prop :=
  ∀ (s : State) (p0 : Nat), s.quartersPer ∈ [1, 2, 4] → s.isPart p0 = true →
    let q := s.quartersPer
    let hbm := fun (a : Nat) => p0 * 0x1800000000 ≤ a ∧ a < (p0 + q) * 0x1800000000
    let sump := fun (a : Nat) => 0x010000000000 + p0 * 0x8000000000 ≤ a ∧ a < 0x010000000000 + (p0 + q) * 0x8000000000
    let slices := fun (a : Nat) => 0x080000000000 + 64 * p0 * 0x300000 ≤ a ∧ a < 0x080000000000 + 64 * (p0 + q) * 0x300000
    (∀ a, s.ownerOf a = some p0 ↔ hbm a ∨ sump a ∨ slices a)
    ∧ (∀ a, hbm a → ∃ off, s.localOf a = some (.hbm, 2 * p0 + (a - p0 * 0x1800000000) / 4096 % (2 * q), off) ∧ off < 0xC00000000
        ∧ s.addrOf .hbm (2 * p0 + (a - p0 * 0x1800000000) / 4096 % (2 * q)) off = a)
    ∧ (∀ a, sump a → ∃ off, s.localOf a = some (.sump, 2 * p0 + (a - 0x010000000000 - p0 * 0x8000000000) / 4096 % (2 * q), off)
        ∧ off < 0x4000000000 ∧ s.addrOf .sump (2 * p0 + (a - 0x010000000000 - p0 * 0x8000000000) / 4096 % (2 * q)) off = a)
    ∧ (∀ n, 64 * p0 ≤ n → n < 64 * (p0 + q) → ∀ i, i < 0x300000 →
        s.addrOf .scratchpad n i = 0x080000000000 + n * 0x300000 + i ∧ s.localOf (0x080000000000 + n * 0x300000 + i) = some (.scratchpad, n, i))
    ∧ (∀ u off, 2 * p0 ≤ u → u < 2 * p0 + 2 * q →
        (off < 0xC00000000 → hbm (s.addrOf .hbm u off) ∧ s.localOf (s.addrOf .hbm u off) = some (.hbm, u, off))
        ∧ (off < 0x4000000000 → sump (s.addrOf .sump u off) ∧ s.localOf (s.addrOf .sump u off) = some (.sump, u, off)))
end

