-- ==== Sys2Proof/Laws/Data.lean ====
section
/-! SUPPORT. What an access to memory may change (Safety.OnlyData): one lemma for each operation on stored data. -/

namespace Sys2Proof.Machine

open Safety (OnlyData)

theorem map_modify_eq {α β : Type} {f : α → β} {g : α → α} (h : ∀ x, f (g x) = f x) (l : List α) (i : Nat) :
    (l.modify i g).map f = l.map f := by
  induction l generalizing i with
  | nil => simp
  | cons x l ih => cases i with
    | zero => simp [h]
    | succ i => simp [ih]

theorem only_windows {s : State} {w : List Window} (h : w.map Safety.sansSummary = s.windows.map Safety.sansSummary) :
    OnlyData s { s with windows := w } := by
  simp only [OnlyData, Safety.sansData, h]

theorem only_parts {s : State} {p : List Part} (h : p.map Safety.sansLog = s.parts.map Safety.sansLog) :
    OnlyData s { s with parts := p } := by
  simp only [OnlyData, Safety.sansData, h]

theorem only_foldl {α : Type} {s0 s : State} {f : State → α → State} (hf : ∀ t x, OnlyData s0 t → OnlyData s0 (f t x))
    (h : OnlyData s0 s) (l : List α) : OnlyData s0 (l.foldl f s) := by
  induction l generalizing s with
  | nil => exact h
  | cons x l ih => exact ih (hf s x h)

theorem only_update {s0 t : State} {m : List Host.Cell} {po : List Nat} {fs : List SymFault} {me : List MergeEntry} {tr : List Tracker}
    {re : List Remap} {fu : List (MemKind × Nat × Nat)} (h : OnlyData s0 t) :
    OnlyData s0 { t with mem := m, poison := po, faults := fs, merge := me, trackers := tr, remaps := re, fuseScheduled := fu } := h

theorem State.setSummary_only {s0 : State} (s : State) (p bit : Nat) (hk : OnlyData s0 s) : OnlyData s0 (s.setSummary p bit) := by
  unfold State.setSummary
  refine only_foldl (fun t q ht => ?_) hk _
  exact Eq.trans (only_windows (map_modify_eq (g := fun w : Window => w.setSummary bit) (fun _ => rfl) _ _)) ht

theorem sansLog_append (pt : Part) (r : LogRecord) : Safety.sansLog (pt.append r) = Safety.sansLog pt := by
  unfold Part.append
  dsimp only
  split <;> rfl

theorem State.log_only {s0 : State} (s : State) (p : Nat) (r : LogRecord) (hk : OnlyData s0 s) : OnlyData s0 (s.log p r) := by
  have h1 : ∀ r', OnlyData s0 (s.modPart p (·.append r')) := fun r' =>
    Eq.trans (only_parts (map_modify_eq (g := fun pt : Part => pt.append r') (fun pt => sansLog_append pt r') _ _)) hk
  unfold State.log
  dsimp only
  repeat' first
    | with_reducible assumption
    | with_reducible apply State.setSummary_only
    | exact h1 _
    | split

theorem State.logQuarter_only {s0 : State} (s : State) (q : Nat) (r : LogRecord) (hk : OnlyData s0 s) : OnlyData s0 (State.logQuarter s q r) := by
  unfold State.logQuarter
  try dsimp only
  repeat' first
    | with_reducible assumption
    | with_reducible apply State.log_only

theorem State.memEvent_only {s0 : State} (s : State) (ev a position status ring : Nat) (hk : OnlyData s0 s) : OnlyData s0 (State.memEvent s ev a position status ring) := by
  unfold State.memEvent
  try dsimp only
  repeat' first
    | with_reducible assumption
    | with_reducible apply State.log_only
    | split

theorem State.putVisible_only {s0 : State} (s : State) (a : Nat) (bs : List Byte) (hk : OnlyData s0 s) : OnlyData s0 (s.putVisible a bs) := hk

theorem State.addPoison_only {s0 : State} (s : State) (u : Nat) (hk : OnlyData s0 s) : OnlyData s0 (State.addPoison s u) := by
  unfold State.addPoison
  try dsimp only
  repeat' first
    | with_reducible assumption
    | split
    | with_reducible apply only_update

theorem State.cleanUnit_only {s0 : State} (s : State) (u : Nat) (hk : OnlyData s0 s) : OnlyData s0 (State.cleanUnit s u) := by
  unfold State.cleanUnit
  try dsimp only
  repeat' first
    | with_reducible assumption
    | split
    | with_reducible apply only_update

theorem State.writeBack_only {s0 : State} (s : State) (cw : Nat) (hk : OnlyData s0 s) : OnlyData s0 (s.writeBack cw) := hk

theorem State.moveCw_only {s0 : State} (s : State) (cw : Nat) (hk : OnlyData s0 s) : OnlyData s0 (State.moveCw s cw) := by
  unfold State.moveCw
  split
  · exact State.memEvent_only _ _ _ _ _ _ (State.addPoison_only _ _ (State.writeBack_only _ _ hk))
  · exact State.writeBack_only _ _ hk
  · exact hk

theorem State.moveCws_only {s0 : State} (l : List Nat) (s : State) (hk : OnlyData s0 s) : OnlyData s0 (l.foldl State.moveCw s) := by
  induction l generalizing s with
  | nil => exact hk
  | cons cw l ih => exact ih _ (State.moveCw_only s cw hk)

theorem State.remapGranule_only {s0 : State} (s : State) (a : Nat) (k : MemKind) (u granule : Nat) (persist : Bool) (hk : OnlyData s0 s) : OnlyData s0 (State.remapGranule s a k u granule persist) := by
  have hm : OnlyData s0 (if s.faults.isEmpty then s else (granuleCodewords (a / 64 * 64)).foldl State.moveCw s) := by
    split
    · exact hk
    · exact State.moveCws_only _ _ hk
  unfold State.remapGranule
  dsimp only
  repeat' first
    | exact hm

theorem State.scheduleFuse_only {s0 : State} (s : State) (k : MemKind) (u granule device : Nat) (hk : OnlyData s0 s) : OnlyData s0 (State.scheduleFuse s k u granule device) := by
  unfold State.scheduleFuse
  try dsimp only
  repeat' first
    | with_reducible assumption
    | split
    | with_reducible apply only_update

theorem State.repair_only {s0 : State} (s : State) (a : Nat) (device : Nat) (hk : OnlyData s0 s) : OnlyData s0 (State.repair s a device) := by
  unfold State.repair
  try dsimp only
  repeat' first
    | with_reducible assumption
    | with_reducible apply State.memEvent_only
    | with_reducible apply State.remapGranule_only
    | with_reducible apply State.scheduleFuse_only
    | split

theorem State.countCorrected_only {s0 : State} (s : State) (a : Nat) (device : Nat) (hk : OnlyData s0 s) : OnlyData s0 (State.countCorrected s a device) := by
  unfold State.countCorrected
  try dsimp only
  repeat' first
    | with_reducible assumption
    | with_reducible apply State.repair_only
    | split
    | with_reducible apply only_update

/-- What the decoding of a codeword may put in place of stored data. -/
theorem State.corrected_only {s0 : State} (s : State) (cw sym pat status ring : Nat) (hk : OnlyData s0 s) : OnlyData s0 (s.corrected cw sym pat status ring) :=
  State.countCorrected_only _ _ _ (State.memEvent_only _ _ _ _ _ _ hk)

theorem only_faults {s0 t : State} {fs : List SymFault} (h : OnlyData s0 t) : OnlyData s0 { t with faults := fs } := h

theorem State.decodeStore_only {s0 : State} (s : State) (cw status ring : Nat) (rmw packet : Bool) (hk : OnlyData s0 s) : OnlyData s0 (s.decodeStore cw status ring rmw packet) := by
  have hr : OnlyData s0 (if rmw then s.putVisible cw ((List.range (codewordBytes cw)).map fun i => s.asRead (cw + i)) else s.writeBack cw) := by
    split <;> exact hk
  unfold State.decodeStore
  dsimp only
  split
  · exact hk
  · exact State.corrected_only _ _ _ _ _ _ (only_faults hk)
  · exact State.corrected_only _ _ _ _ _ _ (only_faults (State.writeBack_only _ _ hk))
  · exact State.repair_only _ _ _ (State.memEvent_only _ _ _ _ _ _ (State.addPoison_only _ _ (only_faults hr)))
  · split
    · exact State.memEvent_only _ _ _ _ _ _ hk
    · exact hk

theorem only_merge {s0 t : State} {me : List MergeEntry} (h : OnlyData s0 t) : OnlyData s0 { t with merge := me } := h

theorem State.drain_only {s0 : State} (s : State) (g : Nat) (hk : OnlyData s0 s) : OnlyData s0 (State.drain s g) := by
  unfold State.drain
  split
  · exact hk
  · refine only_merge ?_
    split
    · exact only_foldl (fun t u ht => State.cleanUnit_only t u ht) hk _
    · split
      · exact hk
      · exact only_foldl (fun t u ht => State.decodeStore_only t _ _ _ _ _ ht) hk _

theorem State.mergeNarrow_only {s0 : State} (s : State) (a : Nat) (bs : List Byte) (hk : OnlyData s0 s) : OnlyData s0 (s.mergeNarrow a bs) := by
  unfold State.mergeNarrow
  dsimp only
  split
  · have h1 : ∀ me, OnlyData s0 { s.putVisible a bs with merge := me } := fun me => only_merge (State.putVisible_only _ _ _ hk)
    split
    · exact State.drain_only _ _ (h1 _)
    · exact h1 _
  · refine only_merge (State.putVisible_only _ _ _ ?_)
    split
    · exact hk
    · split
      · exact hk
      · exact State.drain_only _ _ hk

theorem State.readCw_only {s0 : State} (s : State) (cw status ring : Nat) (packet : Bool) (hk : OnlyData s0 s) : OnlyData s0 (s.readCw cw status ring packet) := by
  have hd := State.decodeStore_only s cw status ring false packet hk
  have hc : OnlyData s0 (if inSump cw then (s.decodeStore cw status ring false packet).mergeNarrow cw ((s.decodeStore cw status ring false packet).read cw 4)
      else (s.decodeStore cw status ring false packet).drain (cw / 64 * 64)) := by
    split
    · exact State.mergeNarrow_only _ _ _ hd
    · exact State.drain_only _ _ hd
  unfold State.readCw
  dsimp only
  split
  · exact hc
  · exact hc
  · exact hd

theorem State.readEffects_only {s0 : State} (s : State) (a len status ring : Nat) (hk : OnlyData s0 s) : OnlyData s0 (State.readEffects s a len status ring) := by
  unfold State.readEffects
  dsimp only
  split
  · exact hk
  · refine only_foldl (fun t u ht => State.memEvent_only t _ _ _ _ _ ht) ?_ _
    split
    · exact hk
    · exact only_foldl (fun t u ht => State.readCw_only t _ _ _ _ ht) hk _

theorem State.storePiece_only {s0 : State} (s : State) (a : Nat) (bs : List Byte) (poison : Bool) (hk : OnlyData s0 s) : OnlyData s0 (State.storePiece s a bs poison) := by
  have hd := State.drain_only s (a / 64 * 64) hk
  have hm : ∀ {c : Prop} [Decidable c] {t : State} (b : Nat) (xs : List Byte), OnlyData s0 t → OnlyData s0 (if c then t.mergeNarrow b xs else t) := by
    intro c _ t b xs ht
    split
    · exact State.mergeNarrow_only _ _ _ ht
    · exact ht
  unfold State.storePiece
  dsimp only
  generalize (if inSump a = true then 64 else 16) = w
  split
  · exact hk
  · split
    · exact only_foldl (fun t u ht => State.addPoison_only t u ht) (State.putVisible_only _ _ _ hd) _
    · split
      · exact hm _ _ (only_foldl (fun t u ht => State.cleanUnit_only t u ht) (State.putVisible_only _ _ _ (hm _ _ hd)) _)
      · exact State.mergeNarrow_only _ _ _ hk

theorem State.store_only {s0 : State} (s : State) (w : Write) (hk : OnlyData s0 s) : OnlyData s0 (State.store s w) :=
  only_foldl (fun t _ ht => State.storePiece_only t _ _ _ ht) hk _

theorem State.storeAll_only {s0 : State} (s : State) (ws : List Write) (hk : OnlyData s0 s) : OnlyData s0 (State.storeAll s ws) :=
  only_foldl (fun t _ ht => State.store_only t _ ht) hk _

end Sys2Proof.Machine
end

