-- ==== Sys2Proof/Laws/Table.lean ====
section
/-! SUPPORT. The laws of sparse tables: what a read gives after a write, and that every operation keeps the canonical form. -/

namespace Sys2Proof

variable {α : Type} [DecidableEq α]

/-- Every key of a table lies above `k`. -/
def Tbl.above (t : Tbl α) (k : Nat) : Prop := ∀ e ∈ t, k < e.1

omit [DecidableEq α] in
theorem Tbl.above_cons {e : Nat × α} {t : Tbl α} {k : Nat} : Tbl.above (e :: t) k ↔ k < e.1 ∧ Tbl.above t k := by
  simp [Tbl.above]

/-- The canonical form, entry by entry. -/
theorem Tbl.ok_cons {d : α} {k : Nat} {v : α} {t : Tbl α} :
    Tbl.ok d ((k, v) :: t) = true ↔ v ≠ d ∧ Tbl.above t k ∧ Tbl.ok d t = true := by
  induction t generalizing k v with
  | nil => simp [Tbl.ok, Tbl.above]
  | cons e t ih =>
    obtain ⟨k', w⟩ := e
    rw [Tbl.ok]
    simp only [Bool.and_eq_true, decide_eq_true_eq, Tbl.above_cons]
    constructor
    · rintro ⟨⟨hv, hk⟩, ht⟩
      obtain ⟨_, ha, _⟩ := ih.mp ht
      exact ⟨hv, ⟨hk, fun e he => lt_trans hk (ha e he)⟩, ht⟩
    · rintro ⟨hv, ⟨hk, _⟩, ht⟩
      exact ⟨⟨hv, hk⟩, ht⟩

omit [DecidableEq α] in
theorem Tbl.get_above {d : α} {t : Tbl α} {k : Nat} (h : Tbl.above t k) : Tbl.get d t k = d := by
  cases t with
  | nil => rfl
  | cons e t =>
    have hk := (Tbl.above_cons.mp h).1
    simp [Tbl.get, Nat.ne_of_lt hk, hk]

omit [DecidableEq α] in
theorem Tbl.above_erase {t : Tbl α} {k j : Nat} (h : Tbl.above t j) : Tbl.above (t.erase k) j := by
  induction t with
  | nil => exact h
  | cons e t ih =>
    have h' := Tbl.above_cons.mp h
    simp only [Tbl.erase]
    split
    · exact h'.2
    · split
      · exact h
      · exact Tbl.above_cons.mpr ⟨h'.1, ih h'.2⟩

omit [DecidableEq α] in
theorem Tbl.above_put {t : Tbl α} {k j : Nat} {v : α} (h : Tbl.above t j) (hk : j < k) : Tbl.above (t.put k v) j := by
  induction t with
  | nil => simpa [Tbl.put, Tbl.above] using hk
  | cons e t ih =>
    have h' := Tbl.above_cons.mp h
    simp only [Tbl.put]
    split
    · exact Tbl.above_cons.mpr ⟨hk, h'.2⟩
    · split
      · exact Tbl.above_cons.mpr ⟨hk, h⟩
      · exact Tbl.above_cons.mpr ⟨h'.1, ih h'.2⟩

theorem Tbl.ok_erase {d : α} {t : Tbl α} {k : Nat} (h : Tbl.ok d t = true) : Tbl.ok d (t.erase k) = true := by
  induction t with
  | nil => exact h
  | cons e t ih =>
    have h' := Tbl.ok_cons.mp h
    simp only [Tbl.erase]
    split
    · exact h'.2.2
    · split
      · exact h
      · exact Tbl.ok_cons.mpr ⟨h'.1, Tbl.above_erase h'.2.1, ih h'.2.2⟩

theorem Tbl.ok_put {d : α} {t : Tbl α} {k : Nat} {v : α} (h : Tbl.ok d t = true) (hv : v ≠ d) : Tbl.ok d (t.put k v) = true := by
  induction t with
  | nil => simpa [Tbl.put, Tbl.ok] using hv
  | cons e t ih =>
    have h' := Tbl.ok_cons.mp h
    simp only [Tbl.put]
    split
    · rename_i hk; exact Tbl.ok_cons.mpr ⟨hv, hk ▸ h'.2.1, h'.2.2⟩
    · split
      · rename_i hk
        refine Tbl.ok_cons.mpr ⟨hv, Tbl.above_cons.mpr ⟨hk, fun e he => lt_trans hk (h'.2.1 e he)⟩, h⟩
      · exact Tbl.ok_cons.mpr ⟨h'.1, Tbl.above_put h'.2.1 (by omega), ih h'.2.2⟩

/-- A write keeps the canonical form. -/
theorem Tbl.ok_set {d : α} {t : Tbl α} {k : Nat} {v : α} (h : Tbl.ok d t = true) : Tbl.ok d (Tbl.set d t k v) = true := by
  unfold Tbl.set
  split
  · exact Tbl.ok_erase h
  · exact Tbl.ok_put h ‹_›

/-- A table with entries left out keeps the canonical form. -/
theorem Tbl.ok_filter {d : α} {t : Tbl α} {f : Nat × α → Bool} (h : Tbl.ok d t = true) : Tbl.ok d (List.filter f t) = true := by
  induction t with
  | nil => exact h
  | cons e t ih =>
    have h' := Tbl.ok_cons.mp h
    simp only [List.filter]
    split
    · exact Tbl.ok_cons.mpr ⟨h'.1, fun e he => h'.2.1 e (List.mem_of_mem_filter he), ih h'.2.2⟩
    · exact ih h'.2.2

omit [DecidableEq α] in
theorem Tbl.get_put {d : α} {t : Tbl α} {k j : Nat} {v : α} : Tbl.get d (t.put k v) j = if j = k then v else Tbl.get d t j := by
  induction t with
  | nil => simp only [Tbl.put, Tbl.get]; split <;> simp
  | cons e t ih =>
    obtain ⟨k', w⟩ := e
    simp only [Tbl.put]
    split
    · rename_i hk; subst hk; simp only [Tbl.get]; split <;> simp_all
    · split
      · simp only [Tbl.get]
        split
        · simp
        · split
          · have : j < k' := by omega
            simp [Nat.ne_of_lt this, this]
          · rfl
      · simp only [Tbl.get, ih]
        split
        · rename_i hj; have : j ≠ k := by omega
          simp [this]
        · split
          · rename_i hj; have : j ≠ k := by omega
            simp [this]
          · rfl

theorem Tbl.get_erase {d : α} {t : Tbl α} {k j : Nat} (h : Tbl.ok d t = true) :
    Tbl.get d (t.erase k) j = if j = k then d else Tbl.get d t j := by
  induction t with
  | nil => simp [Tbl.erase, Tbl.get]
  | cons e t ih =>
    obtain ⟨k', w⟩ := e
    have h' := Tbl.ok_cons.mp h
    simp only [Tbl.erase]
    split
    · rename_i hk; subst hk
      simp only [Tbl.get]
      split
      · rename_i hj; subst hj; exact Tbl.get_above h'.2.1
      · split
        · exact Tbl.get_above (fun e he => lt_trans ‹_› (h'.2.1 e he))
        · rfl
    · rename_i hne
      split
      · rename_i hlt
        by_cases hj : j = k
        · subst hj; simp [Tbl.get, hne, hlt]
        · simp [hj]
      · simp only [Tbl.get, ih h'.2.2]
        by_cases hj : j = k
        · subst hj; rename_i hlt; simp [hne, hlt]
        · simp [hj]

/-- A read gives the last value written to its key, and a write leaves every other key alone. -/
theorem Tbl.get_set {d : α} {t : Tbl α} {k j : Nat} {v : α} (h : Tbl.ok d t = true) :
    Tbl.get d (Tbl.set d t k v) j = if j = k then v else Tbl.get d t j := by
  unfold Tbl.set
  split
  · rename_i hv; rw [Tbl.get_erase h, hv]
  · exact Tbl.get_put

omit [DecidableEq α] in
/-- What a table holds once a range of keys is left out. -/
theorem Tbl.get_filter [DecidableEq α] {d : α} {t : Tbl α} {f : Nat → Bool} {j : Nat} (h : Tbl.ok d t = true) :
    Tbl.get d (List.filter (fun e => f e.1) t) j = if f j then Tbl.get d t j else d := by
  induction t with
  | nil => simp [Tbl.get]
  | cons e t ih =>
    obtain ⟨k', w⟩ := e
    have h' := Tbl.ok_cons.mp h
    simp only [List.filter]
    split
    · rename_i hf
      simp only [Tbl.get, ih h'.2.2]
      split
      · rename_i hj; subst hj; simp [hf]
      · split
        · simp
        · rfl
    · rename_i hf
      rw [ih h'.2.2]
      simp only [Tbl.get]
      by_cases hj : j = k'
      · subst hj; simp [hf]
      · by_cases hlt : j < k'
        · simp [hj, hlt, Tbl.get_above (d := d) (k := j) (fun e he => lt_trans hlt (h'.2.1 e he))]
        · simp [hj, hlt]

end Sys2Proof
end

