-- ==== Sys2Proof/Laws/Kept.lean ====
section
/-! SUPPORT. What every operation of the machine leaves alone: the queue and the identity, and the invariant of Safety.Inv. One lemma for
each operation, in the order of their definitions, each in the form "if so far everything is kept, then after this operation too". -/

namespace Sys2Proof.Machine

/-- Between two states the queue and the identity stay, and the invariant goes from one to the other. -/
structure Kept (s t : State) : Prop where
  queue : t.pending = s.pending
  identity : Safety.identity t = Safety.identity s
  inv : Safety.Inv s → Safety.Inv t

theorem Kept.refl (s : State) : Kept s s := ⟨rfl, rfl, id⟩

theorem Kept.trans {s t u : State} (h : Kept s t) (g : Kept t u) : Kept s u :=
  ⟨g.queue.trans h.queue, g.identity.trans h.identity, fun i => g.inv (h.inv i)⟩

/-- A state that agrees in all of this with one that is kept. -/
theorem Kept.same {s t u : State} (h : Kept s t) (hq : u.pending = t.pending) (hi : Safety.identity u = Safety.identity t)
    (hm : u.mem = t.mem) (hl : u.quartersPer = t.quartersPer) (hp : u.parts.length = t.parts.length)
    (hw : u.windows.length = t.windows.length) (ho : u.ports.length = t.ports.length) (hh : u.halves.length = t.halves.length) :
    Kept s u :=
  ⟨hq.trans h.queue, hi.trans h.identity, fun i =>
    have j := h.inv i
    ⟨hm ▸ j.memory, hl ▸ j.layout, hp ▸ j.parts, hw ▸ j.windows, ho ▸ j.ports, hh ▸ j.halves⟩⟩

theorem kept_foldl {α : Type} {s0 s : State} {f : State → α → State} (hf : ∀ t x, Kept s0 t → Kept s0 (f t x)) (h : Kept s0 s)
    (l : List α) : Kept s0 (l.foldl f s) := by
  induction l generalizing s with
  | nil => exact h
  | cons x l ih => exact ih (hf s x h)

theorem kept_foldl_fst {α β : Type} {s0 : State} {a : State × β} {f : State × β → α → State × β}
    (hf : ∀ b x, Kept s0 b.1 → Kept s0 (f b x).1) (h : Kept s0 a.1) (l : List α) : Kept s0 (l.foldl f a).1 := by
  induction l generalizing a with
  | nil => exact h
  | cons x l ih => exact ih (hf a x h)

theorem kept_getD {s0 s : State} {o : Option State} (ho : ∀ t, o = some t → Kept s0 t) (h : Kept s0 s) : Kept s0 (o.getD s) := by
  cases o with
  | none => exact h
  | some t => exact ho t rfl

/-- Bytes stored one after the other keep the canonical form. -/
theorem ok_putBytes {m : Tbl Byte} {a : Nat} (bs : List Byte) (h : Tbl.ok 0 m = true) : Tbl.ok 0 (putBytes m a bs) = true := by
  induction bs generalizing m a with
  | nil => exact h
  | cons b bs ih => exact ih (Tbl.ok_set h)

/-- A state with other fields changed. -/
theorem Kept.update {s t : State}
    {poison0 : List Nat} {faults0 : List SymFault} {merge0 : List MergeEntry} {scrubSettings0 : List (List ScrubSetting)}
    {scrubbers0 : List Scrubber} {trackers0 : List Tracker} {remaps0 : List Remap} {fuseScheduled0 : List (MemKind × Nat × Nat)}
    {fuseDone0 : List (MemKind × Nat × Nat)} {spares0 : List Nat} {reserve0 : List Nat} {retired0 : List Nat} {retiredSlices0 :
    List Nat} {busy0 : Tbl Nat} {stall0 : Tbl Nat} {banks0 : Tbl (List AccBank)} {riddles0 : Tbl (List RiddleEntry)} {residues0 :
    Tbl Nat} {retiring0 : List Nat} {faultyArrays0 : List Nat} {gatedBenches0 : List Nat} {stacksOff0 : List Nat} {dimms0 : List
    (Option Dimm)} {channels0 : List Nat} {chanReason0 : List (Nat × Nat)} {sumpRate0 : Nat} {sumpCapacity0 : Nat} {fabric0 : List
    FabLink} {crossingsRetired0 : List Nat} {halvesDown0 : List Nat} {clocksLost0 : List Nat} {sensors0 : Sensors} {slowPower0 :
    List Word} {overTicks0 : Nat} {mclk0 : Nat} {vin0 : Bool} {pwrEn0 : Bool} {pwrGood0 : Bool} {aonUp0 : Bool} {mainUp0 : Bool}
    {perstLow0 : Bool} {bootStage0 : Nat} {bootHeld0 : Bool} {ready0 : Bool} {bootMs0 : Nat} {boot0 : Option BootEnv} {bootModule0
    : Option (List Nat)} {configDefault0 : Bool} {board0 : BoardConfig} {flashImage0 : List Byte} {cfg0 : CfgWrite} {geoPins0 :
    Nat} {geoId0 : Nat} {smbusTarget0 : Option (Nat × Nat)} {fatal0 : Bool} {tripped0 : Bool} {converterFault0 : Bool}
    {debugUnlocked0 : Bool} {jtagOpen0 : Bool} {challenge0 : Option (List Byte)} {lastRefused0 : Option Nat} {refclk0 : Bool}
    {pcieSpeed0 : Nat} {pcieWidth0 : Nat} {msixTable0 : Tbl (Word × BitVec 32 × Bool)} {msixPending0 : List (Nat × Nat)}
    {bridgeReqs0 : List BridgeReq} {bridgeHeld0 : List BridgeHeld} {nextMsgId0 : Nat} {change0 : Option LayoutChange}
    {changeStart0 : Nat} {romMeasure0 : List Byte} {draws0 : Nat} {out0 : List Out}
    (h : Kept s t) :
    Kept s
      { pending := t.pending, quartersPer := t.quartersPer, parts := t.parts, windows := t.windows, mem := t.mem, poison :=
        poison0, faults := faults0, merge := merge0, scrubSettings := scrubSettings0, scrubbers := scrubbers0, trackers :=
        trackers0, remaps := remaps0, fuseScheduled := fuseScheduled0, fuseDone := fuseDone0, spares := spares0, reserve :=
        reserve0, retired := retired0, retiredSlices := retiredSlices0, busy := busy0, stall := stall0, banks := banks0, riddles
        := riddles0, residues := residues0, retiring := retiring0, faultyArrays := faultyArrays0, gatedBenches := gatedBenches0,
        stacksOff := stacksOff0, dimms := dimms0, channels := channels0, chanReason := chanReason0, sumpRate := sumpRate0,
        sumpCapacity := sumpCapacity0, fabric := fabric0, crossingsRetired := crossingsRetired0, halvesDown := halvesDown0, ports
        := t.ports, clocksLost := clocksLost0, halves := t.halves, sensors := sensors0, slowPower := slowPower0, overTicks :=
        overTicks0, mclk := mclk0, vin := vin0, pwrEn := pwrEn0, pwrGood := pwrGood0, aonUp := aonUp0, mainUp := mainUp0, perstLow
        := perstLow0, bootStage := bootStage0, bootHeld := bootHeld0, ready := ready0, bootMs := bootMs0, boot := boot0,
        bootModule := bootModule0, configDefault := configDefault0, board := board0, flashImage := flashImage0, cfg := cfg0,
        geoPins := geoPins0, geoId := geoId0, smbusTarget := smbusTarget0, fatal := fatal0, tripped := tripped0, converterFault :=
        converterFault0, debugUnlocked := debugUnlocked0, jtagOpen := jtagOpen0, challenge := challenge0, lastRefused :=
        lastRefused0, refclk := refclk0, pcieSpeed := pcieSpeed0, pcieWidth := pcieWidth0, msixTable := msixTable0, msixPending :=
        msixPending0, bridgeReqs := bridgeReqs0, bridgeHeld := bridgeHeld0, nextMsgId := nextMsgId0, change := change0,
        changeStart := changeStart0, serial := t.serial, stepping := t.stepping, romMeasure := romMeasure0, romDigest :=
        t.romDigest, boardKeyDigest := t.boardKeyDigest, identityKey := t.identityKey, identityPub := t.identityPub, certificate
        := t.certificate, rootKeyDigest := t.rootKeyDigest, debugKeyDigest := t.debugKeyDigest, draws := draws0, out := out0 } :=
  Kept.same h rfl rfl rfl rfl rfl rfl rfl rfl

theorem State.modPart_kept {s0 : State} (s : State) (p : Nat) (f : Part → Part) (h : Kept s0 s) : Kept s0 (s.modPart p f) :=
  Kept.same h rfl rfl rfl rfl (by simp [State.modPart]) rfl rfl rfl

theorem State.modRing_kept {s0 : State} (s : State) (p r : Nat) (f : Ring → Ring) (h : Kept s0 s) : Kept s0 (State.modRing s p r f) := by
  unfold State.modRing
  try dsimp only
  repeat' first
    | with_reducible assumption
    | with_reducible apply State.modPart_kept

theorem State.modWindow_kept {s0 : State} (s : State) (w : Nat) (f : Window → Window) (h : Kept s0 s) : Kept s0 (s.modWindow w f) :=
  Kept.same h rfl rfl rfl rfl rfl (by simp [State.modWindow]) rfl rfl

theorem State.setSummary_kept {s0 : State} (s : State) (p bit : Nat) (h : Kept s0 s) : Kept s0 (State.setSummary s p bit) := by
  unfold State.setSummary
  try dsimp only
  repeat' first
    | with_reducible assumption
    | with_reducible apply State.modWindow_kept
    | (with_reducible refine kept_foldl ?_ ?_ _; intro _ _ _)

theorem State.setDeviceSummary_kept {s0 : State} (s : State) (bit : Nat) (h : Kept s0 s) : Kept s0 (State.setDeviceSummary s bit) := by
  unfold State.setDeviceSummary
  try dsimp only
  repeat' first
    | with_reducible assumption
    | with_reducible apply State.modWindow_kept

theorem State.emit_kept {s0 : State} (s : State) (o : Out) (h : Kept s0 s) : Kept s0 (State.emit s o) := by
  unfold State.emit
  try dsimp only
  repeat' first
    | with_reducible assumption
    | split
    | with_reducible apply Kept.update

theorem State.log_kept {s0 : State} (s : State) (p : Nat) (r : LogRecord) (h : Kept s0 s) : Kept s0 (State.log s p r) := by
  unfold State.log
  try dsimp only
  repeat' first
    | with_reducible assumption
    | with_reducible apply State.modPart_kept
    | with_reducible apply State.setSummary_kept
    | split

theorem State.logAll_kept {s0 : State} (s : State) (r : LogRecord) (h : Kept s0 s) : Kept s0 (State.logAll s r) := by
  unfold State.logAll
  try dsimp only
  repeat' first
    | with_reducible assumption
    | with_reducible apply State.log_kept
    | (with_reducible refine kept_foldl ?_ ?_ _; intro _ _ _)

theorem State.logQuarter_kept {s0 : State} (s : State) (q : Nat) (r : LogRecord) (h : Kept s0 s) : Kept s0 (State.logQuarter s q r) := by
  unfold State.logQuarter
  try dsimp only
  repeat' first
    | with_reducible assumption
    | with_reducible apply State.log_kept

theorem State.memEvent_kept {s0 : State} (s : State) (ev a position status ring : Nat) (h : Kept s0 s) : Kept s0 (State.memEvent s ev a position status ring) := by
  unfold State.memEvent
  try dsimp only
  repeat' first
    | with_reducible assumption
    | with_reducible apply State.log_kept
    | split

theorem State.putVisible_kept {s0 : State} (s : State) (a : Nat) (bs : List Byte) (h : Kept s0 s) : Kept s0 (s.putVisible a bs) :=
  ⟨h.queue, h.identity, fun hi => { h.inv hi with memory := ok_putBytes bs (h.inv hi).memory }⟩

theorem State.addPoison_kept {s0 : State} (s : State) (u : Nat) (h : Kept s0 s) : Kept s0 (State.addPoison s u) := by
  unfold State.addPoison
  try dsimp only
  repeat' first
    | with_reducible assumption
    | split
    | with_reducible apply Kept.update

theorem State.cleanUnit_kept {s0 : State} (s : State) (u : Nat) (h : Kept s0 s) : Kept s0 (State.cleanUnit s u) := by
  unfold State.cleanUnit
  try dsimp only
  repeat' first
    | with_reducible assumption
    | split
    | with_reducible apply Kept.update

theorem State.writeBack_kept {s0 : State} (s : State) (cw : Nat) (hk : Kept s0 s) : Kept s0 (State.writeBack s cw) := by
  unfold State.writeBack
  try dsimp only
  repeat' first
    | with_reducible assumption
    | with_reducible apply State.putVisible_kept

theorem State.moveCw_kept {s0 : State} (s : State) (cw : Nat) (h : Kept s0 s) : Kept s0 (State.moveCw s cw) := by
  unfold State.moveCw
  split
  · exact State.memEvent_kept _ _ _ _ _ _ (State.addPoison_kept _ _ (State.writeBack_kept _ _ h))
  · exact State.writeBack_kept _ _ h
  · exact h

theorem State.moveCws_kept {s0 : State} (l : List Nat) (s : State) (h : Kept s0 s) : Kept s0 (l.foldl State.moveCw s) := by
  induction l generalizing s with
  | nil => exact h
  | cons cw l ih => exact ih _ (State.moveCw_kept s cw h)

theorem State.remapGranule_kept {s0 : State} (s : State) (a : Nat) (k : MemKind) (u granule : Nat) (persist : Bool) (h : Kept s0 s) : Kept s0 (State.remapGranule s a k u granule persist) := by
  have hm : Kept s0 (if s.faults.isEmpty then s else (granuleCodewords (a / 64 * 64)).foldl State.moveCw s) := by
    split
    · exact h
    · exact State.moveCws_kept _ _ h
  unfold State.remapGranule
  dsimp only
  repeat' first
    | exact hm
    | with_reducible apply Kept.update

theorem State.unmapGranule_kept {s0 : State} (s : State) (r : Remap) (hk : Kept s0 s) : Kept s0 (State.unmapGranule s r) := by
  unfold State.unmapGranule
  try dsimp only
  repeat' first
    | with_reducible assumption
    | with_reducible apply State.putVisible_kept
    | split
    | with_reducible apply Kept.update

theorem State.scheduleFuse_kept {s0 : State} (s : State) (k : MemKind) (u granule device : Nat) (h : Kept s0 s) : Kept s0 (State.scheduleFuse s k u granule device) := by
  unfold State.scheduleFuse
  try dsimp only
  repeat' first
    | with_reducible assumption
    | split
    | with_reducible apply Kept.update

theorem State.repair_kept {s0 : State} (s : State) (a : Nat) (device : Nat) (h : Kept s0 s) : Kept s0 (State.repair s a device) := by
  unfold State.repair
  try dsimp only
  repeat' first
    | with_reducible assumption
    | with_reducible apply State.memEvent_kept
    | with_reducible apply State.remapGranule_kept
    | with_reducible apply State.scheduleFuse_kept
    | split

theorem State.countCorrected_kept {s0 : State} (s : State) (a : Nat) (device : Nat) (h : Kept s0 s) : Kept s0 (State.countCorrected s a device) := by
  unfold State.countCorrected
  try dsimp only
  repeat' first
    | with_reducible assumption
    | with_reducible apply State.repair_kept
    | split
    | with_reducible apply Kept.update

theorem State.corrected_kept {s0 : State} (s : State) (cw sym pat status ring : Nat) (hk : Kept s0 s) : Kept s0 (State.corrected s cw sym pat status ring) := by
  unfold State.corrected
  try dsimp only
  repeat' first
    | with_reducible assumption
    | with_reducible apply State.memEvent_kept
    | with_reducible apply State.countCorrected_kept

theorem State.decodeStore_kept {s0 : State} (s : State) (cw status ring : Nat) (rmw packet : Bool) (hk : Kept s0 s) : Kept s0 (State.decodeStore s cw status ring rmw packet) := by
  unfold State.decodeStore
  try dsimp only
  repeat' first
    | with_reducible assumption
    | with_reducible apply State.memEvent_kept
    | with_reducible apply State.putVisible_kept
    | with_reducible apply State.addPoison_kept
    | with_reducible apply State.writeBack_kept
    | with_reducible apply State.repair_kept
    | with_reducible apply State.corrected_kept
    | split
    | with_reducible apply Kept.update

theorem State.drain_kept {s0 : State} (s : State) (g : Nat) (hk : Kept s0 s) : Kept s0 (State.drain s g) := by
  unfold State.drain
  try dsimp only
  repeat' first
    | with_reducible assumption
    | with_reducible apply State.cleanUnit_kept
    | with_reducible apply State.decodeStore_kept
    | (with_reducible refine kept_foldl ?_ ?_ _; intro _ _ _)
    | split
    | with_reducible apply Kept.update

theorem State.mergeNarrow_kept {s0 : State} (s : State) (a : Nat) (bs : List Byte) (hk : Kept s0 s) : Kept s0 (State.mergeNarrow s a bs) := by
  unfold State.mergeNarrow
  try dsimp only
  repeat' first
    | with_reducible assumption
    | with_reducible apply State.putVisible_kept
    | with_reducible apply State.drain_kept
    | split
    | with_reducible apply Kept.update

theorem State.readCw_kept {s0 : State} (s : State) (cw status ring : Nat) (packet : Bool) (hk : Kept s0 s) : Kept s0 (State.readCw s cw status ring packet) := by
  unfold State.readCw
  try dsimp only
  repeat' first
    | with_reducible assumption
    | with_reducible apply State.corrected_kept
    | with_reducible apply State.decodeStore_kept
    | with_reducible apply State.drain_kept
    | with_reducible apply State.mergeNarrow_kept
    | split

theorem State.readEffects_kept {s0 : State} (s : State) (a len status ring : Nat) (hk : Kept s0 s) : Kept s0 (State.readEffects s a len status ring) := by
  unfold State.readEffects
  try dsimp only
  repeat' first
    | with_reducible assumption
    | with_reducible apply State.memEvent_kept
    | with_reducible apply State.readCw_kept
    | (with_reducible refine kept_foldl ?_ ?_ _; intro _ _ _)
    | split

theorem State.storePiece_kept {s0 : State} (s : State) (a : Nat) (bs : List Byte) (poison : Bool) (hk : Kept s0 s) : Kept s0 (State.storePiece s a bs poison) := by
  unfold State.storePiece
  try dsimp only
  repeat' first
    | with_reducible assumption
    | with_reducible apply State.putVisible_kept
    | with_reducible apply State.addPoison_kept
    | with_reducible apply State.cleanUnit_kept
    | with_reducible apply State.drain_kept
    | with_reducible apply State.mergeNarrow_kept
    | (with_reducible refine kept_foldl ?_ ?_ _; intro _ _ _)
    | split

theorem State.store_kept {s0 : State} (s : State) (w : Write) (h : Kept s0 s) : Kept s0 (State.store s w) := by
  unfold State.store
  try dsimp only
  repeat' first
    | with_reducible assumption
    | with_reducible apply State.storePiece_kept
    | (with_reducible refine kept_foldl ?_ ?_ _; intro _ _ _)

theorem State.storeAll_kept {s0 : State} (s : State) (ws : List Write) (h : Kept s0 s) : Kept s0 (State.storeAll s ws) := by
  unfold State.storeAll
  try dsimp only
  repeat' first
    | with_reducible assumption
    | with_reducible apply State.store_kept
    | (with_reducible refine kept_foldl ?_ ?_ _; intro _ _ _)

theorem State.zeroRange_kept {s0 : State} (s : State) (lo hi : Nat) (h : Kept s0 s) : Kept s0 (s.zeroRange lo hi) :=
  ⟨h.queue, h.identity, fun hv => { h.inv hv with memory := Tbl.ok_filter (h.inv hv).memory }⟩

theorem State.setPacket_kept {s0 : State} (s : State) (part : Nat) (k : Packet) (h : Kept s0 s) : Kept s0 (State.setPacket s part k) := by
  unfold State.setPacket
  try dsimp only
  repeat' first
    | with_reducible assumption
    | with_reducible apply State.modPart_kept

theorem State.addBusy_kept {s0 : State} (s : State) (bs : List (Nat × Nat)) (h : Kept s0 s) : Kept s0 (State.addBusy s bs) := by
  unfold State.addBusy
  try dsimp only
  repeat' first
    | with_reducible assumption
    | split
    | with_reducible apply Kept.update

theorem State.keepArrays_kept {s0 : State} (s : State) (bs : List (Nat × List AccBank)) (rs : List (Nat × List RiddleEntry)) (hk : Kept s0 s) : Kept s0 (State.keepArrays s bs rs) := by
  unfold State.keepArrays
  try dsimp only
  repeat' first
    | with_reducible assumption
    | split
    | with_reducible apply Kept.update

theorem State.mismatch_kept {s0 : State} (s : State) (ring a : Nat) (h : Kept s0 s) : Kept s0 (State.mismatch s ring a) := by
  unfold State.mismatch
  try dsimp only
  repeat' first
    | with_reducible assumption
    | with_reducible apply State.logQuarter_kept
    | split
    | with_reducible apply Kept.update

theorem State.workEffects_kept {s0 : State} (s : State) (k : Packet) (status : Nat) (up : Bool) (w : WorkOut) (hk : Kept s0 s) : Kept s0 (State.workEffects s k status up w) := by
  unfold State.workEffects
  try dsimp only
  repeat' first
    | with_reducible assumption
    | with_reducible apply State.readEffects_kept
    | with_reducible apply State.storeAll_kept
    | with_reducible apply State.addBusy_kept
    | with_reducible apply State.keepArrays_kept
    | with_reducible apply State.mismatch_kept
    | (with_reducible refine kept_foldl ?_ ?_ _; intro _ _ _)
    | split

theorem State.finish_kept {s0 : State} (s : State) (part : Nat) (k : Packet) (w : WorkOut) (h : Kept s0 s) : Kept s0 (State.finish s part k w) := by
  unfold State.finish
  try dsimp only
  repeat' first
    | with_reducible assumption
    | with_reducible apply State.setPacket_kept
    | with_reducible apply State.workEffects_kept

theorem runOpcode_kept {s0 : State} (code : Nat) (variant : Ctx → Bool) (work : Ctx → WorkOut) (p : PacketRef) (s : State) (h : Kept s0 s) : Kept s0 (runOpcode code variant work p s) := by
  unfold runOpcode
  try dsimp only
  repeat' first
    | with_reducible assumption
    | with_reducible apply State.finish_kept
    | split

theorem runThen_kept {s0 : State} (code : Nat) (variant : Ctx → Bool) (work : Ctx → WorkOut) (eff : Ctx → State → State)
    (p : PacketRef) (s : State) (he : ∀ c t, Kept s0 t → Kept s0 (eff c t)) (h : Kept s0 s) :
    Kept s0 (runThen code variant work eff p s) := by
  unfold runThen
  try dsimp only
  repeat' first
    | assumption
    | with_reducible apply State.finish_kept
    | with_reducible apply he
    | split

end Sys2Proof.Machine
end

