-- ==== Sys2Proof/Laws/KeptPorts.lean ====
section
/-! SUPPORT. What the operations of these files leave alone (see Laws/Kept.lean): Numerics, Items, Ports, Setup, Remote, Security, Records. -/

namespace Sys2Proof.Machine

theorem Ctx.watchReadClear_kept {s0 : State} (c : Ctx) (s : State) (h : Kept s0 s) : Kept s0 (Ctx.watchReadClear c s) := by
  unfold Ctx.watchReadClear
  try dsimp only
  repeat' first
    | with_reducible assumption
    | with_reducible apply State.modPart_kept
    | split

theorem State.updateSetPoints_kept {s0 : State} (s : State) (h : Kept s0 s) : Kept s0 (State.updateSetPoints s) :=
  Kept.same h rfl rfl rfl rfl rfl rfl rfl (by simp [State.updateSetPoints])

theorem State.configPut_kept {s0 : State} (s : State) (p item v : Nat) (h : Kept s0 s) : Kept s0 (State.configPut s p item v) := by
  unfold State.configPut
  try dsimp only
  repeat' first
    | with_reducible assumption
    | with_reducible apply State.modPart_kept
    | with_reducible apply State.updateSetPoints_kept
    | split

theorem State.putVersions_kept {s0 : State} (s : State) (p item : Nat) (vals : List Nat) (h : Kept s0 s) : Kept s0 (State.putVersions s p item vals) := by
  unfold State.putVersions
  try dsimp only
  repeat' first
    | with_reducible assumption
    | with_reducible apply State.modPart_kept

theorem State.configPutAll_kept {s0 : State} (s : State) (p item : Nat) (vals : List Nat) (h : Kept s0 s) : Kept s0 (State.configPutAll s p item vals) := by
  unfold State.configPutAll
  try dsimp only
  repeat' first
    | with_reducible assumption
    | with_reducible apply State.configPut_kept
    | with_reducible apply State.putVersions_kept
    | (with_reducible refine kept_foldl ?_ ?_ _; intro _ _ _)
    | split

theorem State.modPort_kept {s0 : State} (s : State) (i : Nat) (f : Port → Port) (h : Kept s0 s) : Kept s0 (s.modPort i f) :=
  Kept.same h rfl rfl rfl rfl rfl rfl (by simp [State.modPort]) rfl

theorem State.beginRetrain_kept {s0 : State} (s : State) (i : Nat) (h : Kept s0 s) : Kept s0 (State.beginRetrain s i) := by
  unfold State.beginRetrain
  try dsimp only
  repeat' first
    | with_reducible assumption
    | with_reducible apply State.modPort_kept

theorem State.pumpPort_kept {s0 : State} (s : State) (i : Nat) (h : Kept s0 s) : Kept s0 (State.pumpPort s i) := by
  unfold State.pumpPort
  try dsimp only
  repeat' first
    | with_reducible assumption
    | with_reducible apply State.emit_kept
    | with_reducible apply State.modPort_kept
    | (with_reducible refine kept_foldl ?_ ?_ _; intro _ _ _)

theorem State.idlePort_kept {s0 : State} (s : State) (i : Nat) (hk : Kept s0 s) : Kept s0 (State.idlePort s i) := by
  unfold State.idlePort
  try dsimp only
  repeat' first
    | with_reducible assumption
    | with_reducible apply State.emit_kept
    | with_reducible apply State.modPort_kept
    | split

theorem State.portSend_kept {s0 : State} (s : State) (i : Nat) (owner : Option PacketRef) (m : Msg) (h : Kept s0 s) : Kept s0 (State.portSend s i owner m) := by
  unfold State.portSend
  try dsimp only
  repeat' first
    | with_reducible assumption
    | with_reducible apply State.emit_kept
    | with_reducible apply State.modPort_kept
    | with_reducible apply State.pumpPort_kept

theorem State.send_kept {s0 : State} (s : State) (p : Nat) (owner : Option PacketRef) (dst mtype mflags addr len poison : Nat) (data : List Byte) (h : Kept s0 s) : Kept s0 (State.send s p owner dst mtype mflags addr len poison data).1 := by
  unfold State.send
  try dsimp only
  repeat' first
    | with_reducible assumption
    | with_reducible apply State.portSend_kept
    | split
    | with_reducible apply Kept.update

theorem State.send_kept' {s0 t : State} {s : State} {p : Nat} {owner : Option PacketRef} {dst mtype mflags addr len poison : Nat} {data : List Byte} {x : Option (Nat × Nat)} (heq0 : (State.send s p owner dst mtype mflags addr len poison data) = (t, x)) (h : Kept s0 s) : Kept s0 t := by
  have h1 := State.send_kept s p owner dst mtype mflags addr len poison data h
  rwa [heq0] at h1

theorem State.respond_kept {s0 : State} (s : State) (p : Nat) (m : Msg) (mtype poison : Nat) (data : List Byte) (h : Kept s0 s) : Kept s0 (State.respond s p m mtype poison data) := by
  unfold State.respond
  try dsimp only
  repeat' first
    | with_reducible assumption
    | with_reducible apply State.portSend_kept
    | split

theorem State.sendControl_kept {s0 : State} (s : State) (p : Nat) (owner : Option PacketRef) (dst : Nat) (c : Control) (h : Kept s0 s) : Kept s0 (State.sendControl s p owner dst c).1 := by
  unfold State.sendControl
  try dsimp only
  repeat' first
    | with_reducible assumption
    | with_reducible apply State.portSend_kept
    | with_reducible apply State.send_kept
    | with_reducible refine State.send_kept' (by assumption) ?_
    | split
    | with_reducible apply Kept.update

theorem State.sendControl_kept' {s0 t : State} {s : State} {p : Nat} {owner : Option PacketRef} {dst : Nat} {c : Control} {x : Bool} (heq0 : (State.sendControl s p owner dst c) = (t, x)) (h : Kept s0 s) : Kept s0 t := by
  have h1 := State.sendControl_kept s p owner dst c h
  rwa [heq0] at h1

theorem Ctx.configSetEff_kept {s0 : State} (c : Ctx) (s : State) (h : Kept s0 s) : Kept s0 (Ctx.configSetEff c s) := by
  unfold Ctx.configSetEff
  try dsimp only
  repeat' first
    | with_reducible assumption
    | with_reducible apply State.setPacket_kept
    | with_reducible apply State.configPutAll_kept
    | split

theorem ringBindStep_kept {s0 : State} (unbind : Bool) (p : PacketRef) (s : State) (h : Kept s0 s) : Kept s0 (ringBindStep unbind p s) := by
  unfold ringBindStep
  try dsimp only
  repeat' first
    | with_reducible assumption
    | with_reducible apply State.modRing_kept
    | with_reducible apply State.setPacket_kept
    | with_reducible apply State.finish_kept
    | split

theorem State.lateness_kept {s0 : State} (s : State) (p ep us : Nat) (h : Kept s0 s) : Kept s0 (State.lateness s p ep us) := by
  unfold State.lateness
  try dsimp only
  repeat' first
    | with_reducible assumption
    | with_reducible apply State.modPart_kept
    | with_reducible apply State.log_kept
    | split

theorem State.endPacket_kept {s0 : State} (s : State) (p : Nat) (k : Packet) (code : Nat) (h : Kept s0 s) : Kept s0 (State.endPacket s p k code) := by
  unfold State.endPacket
  try dsimp only
  repeat' first
    | with_reducible assumption
    | with_reducible apply State.setPacket_kept

theorem State.controlTo_kept {s0 : State} (s : State) (p : Nat) (k : Packet) (r : Remote) (ctag rank kind round a0 a1 a2 a3 : Nat) (h : Kept s0 s) : Kept s0 (State.controlTo s p k r ctag rank kind round a0 a1 a2 a3).1 := by
  unfold State.controlTo
  try dsimp only
  repeat' first
    | with_reducible assumption
    | with_reducible apply State.sendControl_kept

theorem State.controlTo_kept' {s0 t : State} {s : State} {p : Nat} {k : Packet} {r : Remote} {ctag rank kind round a0 a1 a2 a3 : Nat} {x : Bool} (heq0 : (State.controlTo s p k r ctag rank kind round a0 a1 a2 a3) = (t, x)) (h : Kept s0 s) : Kept s0 t := by
  have h1 := State.controlTo_kept s p k r ctag rank kind round a0 a1 a2 a3 h
  rwa [heq0] at h1

theorem State.sendWrites_kept {s0 : State} (s : State) (p : Nat) (ref : PacketRef) (dst rank : Nat) (ws : List Write) (h : Kept s0 s) : Kept s0 (State.sendWrites s p ref dst rank ws).1 := by
  unfold State.sendWrites
  try dsimp only
  repeat' first
    | with_reducible assumption
    | with_reducible apply State.send_kept
    | with_reducible refine State.send_kept' (by assumption) ?_
    | (with_reducible refine kept_foldl_fst ?_ ?_ _; intro _ _ _)
    | split

theorem State.sendWrites_kept' {s0 t : State} {s : State} {p : Nat} {ref : PacketRef} {dst rank : Nat} {ws : List Write} {x : List (Nat × Nat × Nat) × Bool} (heq0 : (State.sendWrites s p ref dst rank ws) = (t, x)) (h : Kept s0 s) : Kept s0 t := by
  have h1 := State.sendWrites_kept s p ref dst rank ws h
  rwa [heq0] at h1

theorem State.begin_kept {s0 : State} (s : State) (p : Nat) (k : Packet) (w : WorkOut) (r : Remote) (h : Kept s0 s) : Kept s0 (State.begin s p k w r) := by
  unfold State.begin
  try dsimp only
  repeat' first
    | with_reducible assumption
    | with_reducible apply State.setPacket_kept
    | with_reducible apply State.workEffects_kept

theorem State.setRemote_kept {s0 : State} (s : State) (p : Nat) (k : Packet) (r : Remote) (h : Kept s0 s) : Kept s0 (State.setRemote s p k r) := by
  unfold State.setRemote
  try dsimp only
  repeat' first
    | with_reducible assumption
    | with_reducible apply State.setPacket_kept

theorem State.controlAll_kept {s0 : State} (s : State) (p : Nat) (ref : PacketRef) (ctag kind : Nat) (args : Nat × Nat × Nat × Nat)
    (ts : List (Nat × Nat)) (h : Kept s0 s) : Kept s0 (State.controlAll s p ref ctag kind args ts) := by
  unfold State.controlAll
  try dsimp only
  repeat' first
    | with_reducible assumption
    | with_reducible apply State.endPacket_kept
    | with_reducible apply State.controlTo_kept
    | with_reducible refine State.controlTo_kept' (by assumption) ?_
    | (with_reducible refine kept_foldl ?_ ?_ _; intro _ _ _)
    | split

theorem State.drew_kept {s0 : State} (s : State) (n : Nat) (h : Kept s0 s) : Kept s0 (State.drew s n) := by
  unfold State.drew
  try dsimp only
  repeat' first
    | with_reducible assumption
    | split
    | with_reducible apply Kept.update

theorem State.sendOn_kept {s0 : State} (s : State) (p : Nat) (ref : PacketRef) (port dst mtype addr : Nat) (data : List Byte) (h : Kept s0 s) : Kept s0 (State.sendOn s p ref port dst mtype addr data).1 := by
  unfold State.sendOn
  try dsimp only
  repeat' first
    | with_reducible assumption
    | with_reducible apply State.portSend_kept
    | split
    | with_reducible apply Kept.update

theorem State.sendOn_kept' {s0 t : State} {s : State} {p : Nat} {ref : PacketRef} {port dst mtype addr : Nat} {data : List Byte} {x : Option Nat} (heq0 : (State.sendOn s p ref port dst mtype addr data) = (t, x)) (h : Kept s0 s) : Kept s0 t := by
  have h1 := State.sendOn_kept s p ref port dst mtype addr data h
  rwa [heq0] at h1

theorem State.keyControl_kept {s0 : State} (s : State) (c : Ctx) (r : Remote) (kind round a0 a1 a2 a3 : Nat) (h : Kept s0 s) : Kept s0 (State.keyControl s c r kind round a0 a1 a2 a3).1 := by
  unfold State.keyControl
  try dsimp only
  repeat' first
    | with_reducible assumption
    | with_reducible apply State.sendOn_kept

theorem State.keyControl_kept' {s0 t : State} {s : State} {c : Ctx} {r : Remote} {kind round a0 a1 a2 a3 : Nat} {x : Bool} (heq0 : (State.keyControl s c r kind round a0 a1 a2 a3) = (t, x)) (h : Kept s0 s) : Kept s0 t := by
  have h1 := State.keyControl_kept s c r kind round a0 a1 a2 a3 h
  rwa [heq0] at h1

theorem State.keyTransfer_kept {s0 : State} (s : State) (c : Ctx) (r : Remote) (a : Nat) (data : List Byte) (h : Kept s0 s) : Kept s0 (State.keyTransfer s c r a data).1 := by
  unfold State.keyTransfer
  try dsimp only
  repeat' first
    | with_reducible assumption
    | with_reducible apply State.sendOn_kept
    | with_reducible refine State.sendOn_kept' (by assumption) ?_
    | (with_reducible refine kept_foldl_fst ?_ ?_ _; intro _ _ _)
    | split

theorem State.keyTransfer_kept' {s0 t : State} {s : State} {c : Ctx} {r : Remote} {a : Nat} {data : List Byte} {x : List (Nat × Nat × Nat) × Bool} (heq0 : (State.keyTransfer s c r a data) = (t, x)) (h : Kept s0 s) : Kept s0 t := by
  have h1 := State.keyTransfer_kept s c r a data h
  rwa [heq0] at h1

theorem State.settle_kept {s0 : State} (s : State) (i : Nat) (h : Kept s0 s) : Kept s0 (State.settle s i) := by
  unfold State.settle
  try dsimp only
  repeat' first
    | with_reducible assumption
    | with_reducible apply State.beginRetrain_kept
    | split

theorem State.switchPort_kept {s0 : State} (s : State) (i : Nat) (keys : Option PortKeys) (h : Kept s0 s) : Kept s0 (State.switchPort s i keys) := by
  unfold State.switchPort
  try dsimp only
  repeat' first
    | with_reducible assumption
    | with_reducible apply State.modPort_kept
    | with_reducible apply State.settle_kept

theorem State.keyFail_kept {s0 : State} (s : State) (c : Ctx) (k : Packet) (r : Remote) (h : Kept s0 s) : Kept s0 (State.keyFail s c k r) := by
  unfold State.keyFail
  try dsimp only
  repeat' first
    | with_reducible assumption
    | with_reducible apply State.endPacket_kept
    | with_reducible apply State.keyControl_kept

theorem State.keyNext_kept' {s0 t : State} {s : State} {p : Nat} {k : Packet} {c : Ctx} {r : Remote} (e : (State.keyNext s p k c r) = some t) (h : Kept s0 s) : Kept s0 t := by
  unfold State.keyNext at e
  try dsimp only at e
  repeat' split at e
  all_goals first
    | (exfalso; simp at e; done)
    | skip
  all_goals simp only [Option.some.injEq, Prod.mk.injEq] at e
  all_goals first
    | (obtain ⟨rfl, _⟩ := e)
  repeat' first
    | with_reducible assumption
    | with_reducible apply State.endPacket_kept
    | with_reducible apply State.setRemote_kept
    | with_reducible apply State.drew_kept
    | with_reducible apply State.keyControl_kept
    | with_reducible refine State.keyControl_kept' (by assumption) ?_
    | with_reducible apply State.keyTransfer_kept
    | with_reducible refine State.keyTransfer_kept' (by assumption) ?_
    | with_reducible apply State.switchPort_kept
    | with_reducible apply State.keyFail_kept

theorem State.keyAdvance_kept {s0 : State} (n : Nat) (ref : PacketRef) (s : State) (h : Kept s0 s) : Kept s0 (State.keyAdvance n ref s) := by
  induction n generalizing s with
  | zero => exact h
  | succ n ih =>
    unfold State.keyAdvance
    try dsimp only
    repeat' first
      | with_reducible assumption
      | with_reducible apply ih
      | with_reducible refine State.keyNext_kept' (by assumption) ?_
      | split

theorem State.portSwitched_kept {s0 : State} (s : State) (i : Nat) (ok : Bool) (h : Kept s0 s) : Kept s0 (State.portSwitched s i ok) := by
  unfold State.portSwitched
  try dsimp only
  repeat' first
    | with_reducible assumption
    | with_reducible apply State.finish_kept
    | with_reducible apply State.endPacket_kept
    | (with_reducible refine kept_foldl ?_ ?_ _; intro _ _ _)
    | split

theorem State.raiseMsix_kept {s0 : State} (s : State) (fn vector : Nat) (h : Kept s0 s) : Kept s0 (State.raiseMsix s fn vector) := by
  unfold State.raiseMsix
  try dsimp only
  repeat' first
    | with_reducible assumption
    | with_reducible apply State.emit_kept
    | split
    | with_reducible apply Kept.update

theorem State.notify_kept {s0 : State} (s : State) (p ring : Nat) (h : Kept s0 s) : Kept s0 (State.notify s p ring) := by
  unfold State.notify
  try dsimp only
  repeat' first
    | with_reducible assumption
    | with_reducible apply State.sendControl_kept
    | with_reducible refine State.sendControl_kept' (by assumption) ?_
    | with_reducible apply State.raiseMsix_kept
    | split

theorem State.modQueue_kept {s0 : State} (s : State) (p q : Nat) (f : BounceQueue → BounceQueue) (h : Kept s0 s) : Kept s0 (State.modQueue s p q f) := by
  unfold State.modQueue
  try dsimp only
  repeat' first
    | with_reducible assumption
    | with_reducible apply State.modPart_kept

theorem State.bounceWrite_kept {s0 : State} (s : State) (p q : Nat) (o : BounceOut) (h : Kept s0 s) : Kept s0 (State.bounceWrite s p q o) := by
  unfold State.bounceWrite
  try dsimp only
  repeat' first
    | with_reducible assumption
    | with_reducible apply State.modRing_kept
    | with_reducible apply State.emit_kept
    | with_reducible apply State.modQueue_kept
    | split

theorem State.bouncePump_kept {s0 : State} (n : Nat) (p q : Nat) (s : State) (h : Kept s0 s) : Kept s0 (State.bouncePump n p q s) := by
  induction n generalizing s with
  | zero => exact h
  | succ n ih =>
    unfold State.bouncePump
    try dsimp only
    repeat' first
      | with_reducible assumption
      | with_reducible apply ih
      | with_reducible apply State.modQueue_kept
      | with_reducible apply State.bounceWrite_kept
      | split

theorem State.bouncePut_kept {s0 : State} (s : State) (p q : Nat) (o : BounceOut) (h : Kept s0 s) : Kept s0 (State.bouncePut s p q o) := by
  unfold State.bouncePut
  try dsimp only
  repeat' first
    | with_reducible assumption
    | with_reducible apply State.modQueue_kept
    | with_reducible apply State.bouncePump_kept

theorem State.bounceCompletion_kept {s0 : State} (s : State) (p ring addr : Nat) (record : List Byte) (h : Kept s0 s) : Kept s0 (State.bounceCompletion s p ring addr record) := by
  unfold State.bounceCompletion
  try dsimp only
  repeat' first
    | with_reducible assumption
    | with_reducible apply State.bouncePut_kept
    | (with_reducible refine kept_foldl ?_ ?_ _; intro _ _ _)

theorem State.writeRecord_kept {s0 : State} (s : State) (p : Nat) (k : Packet) (b : Binding) (h : Kept s0 s) : Kept s0 (State.writeRecord s p k b) := by
  unfold State.writeRecord
  try dsimp only
  repeat' first
    | with_reducible assumption
    | with_reducible apply State.modRing_kept
    | with_reducible apply State.store_kept
    | with_reducible apply State.bounceCompletion_kept
    | split

theorem State.leave_kept {s0 : State} (s : State) (p : Nat) (k : Packet) (h : Kept s0 s) : Kept s0 (State.leave s p k) := by
  unfold State.leave
  try dsimp only
  repeat' first
    | with_reducible assumption
    | with_reducible apply State.modPart_kept
    | with_reducible apply State.notify_kept
    | split

theorem State.flushRing_kept {s0 : State} (n : Nat) (p ring : Nat) (s : State) (h : Kept s0 s) : Kept s0 (State.flushRing n p ring s) := by
  induction n generalizing s with
  | zero => exact h
  | succ n ih =>
    unfold State.flushRing
    try dsimp only
    repeat' first
      | with_reducible assumption
      | with_reducible apply ih
      | with_reducible apply State.writeRecord_kept
      | with_reducible apply State.leave_kept
      | split

theorem State.flush_kept {s0 : State} (s : State) (p ring : Nat) (h : Kept s0 s) : Kept s0 (State.flush s p ring) := by
  unfold State.flush
  try dsimp only
  repeat' first
    | with_reducible assumption
    | with_reducible apply State.flushRing_kept

theorem State.flushAll_kept {s0 : State} (s : State) (p : Nat) (h : Kept s0 s) : Kept s0 (State.flushAll s p) := by
  unfold State.flushAll
  try dsimp only
  repeat' first
    | with_reducible assumption
    | with_reducible apply State.flush_kept
    | (with_reducible refine kept_foldl ?_ ?_ _; intro _ _ _)

theorem State.record_kept {s0 : State} (s : State) (p : Nat) (k : Packet) (h : Kept s0 s) : Kept s0 (State.record s p k) := by
  unfold State.record
  try dsimp only
  repeat' first
    | with_reducible assumption
    | with_reducible apply State.modPart_kept
    | with_reducible apply State.leave_kept
    | with_reducible apply State.flush_kept
    | split

theorem State.markRing_kept {s0 : State} (s : State) (map w k : Nat) (h : Kept s0 s) : Kept s0 (State.markRing s map w k) := by
  unfold State.markRing
  try dsimp only
  repeat' first
    | with_reducible assumption
    | with_reducible apply State.modWindow_kept

theorem State.stopRing_kept {s0 : State} (s : State) (map p ring : Nat) (h : Kept s0 s) : Kept s0 (State.stopRing s map p ring) := by
  unfold State.stopRing
  try dsimp only
  repeat' first
    | with_reducible assumption
    | with_reducible apply State.modRing_kept
    | with_reducible apply State.markRing_kept

end Sys2Proof.Machine
end

