-- ==== Sys2Proof/Laws/KeptExchanges.lean ====
section
/-! SUPPORT. What the operations of these files leave alone (see Laws/Kept.lean): Exchange, Atomics, Experts, Placement, Collectives, Snapshots, Peers. -/

namespace Sys2Proof.Machine

theorem State.sendExchange_kept {s0 : State} (s : State) (p : Nat) (ref : PacketRef) (ep member : Nat) (m : ExchangeMsg) (h : Kept s0 s) : Kept s0 (State.sendExchange s p ref ep member m).1 := by
  unfold State.sendExchange
  try dsimp only
  repeat' first
    | with_reducible assumption
    | with_reducible apply State.send_kept
    | with_reducible refine State.send_kept' (by assumption) ?_
    | (with_reducible refine kept_foldl_fst ?_ ?_ _; intro _ _ _)
    | split

theorem State.sendExchange_kept' {s0 t : State} {s : State} {p : Nat} {ref : PacketRef} {ep member : Nat} {m : ExchangeMsg} {x : List (Nat × Nat × Nat) × Bool} (heq0 : (State.sendExchange s p ref ep member m) = (t, x)) (h : Kept s0 s) : Kept s0 t := by
  have h1 := State.sendExchange_kept s p ref ep member m h
  rwa [heq0] at h1

theorem State.keepLocal_kept {s0 : State} (s : State) (p : Nat) (m : ExchangeMsg) (h : Kept s0 s) : Kept s0 (State.keepLocal s p m) := by
  unfold State.keepLocal
  try dsimp only
  repeat' first
    | with_reducible assumption
    | with_reducible apply State.modPart_kept

theorem State.dropExchange_kept {s0 : State} (s : State) (p : Nat) (k : XKey) (h : Kept s0 s) : Kept s0 (State.dropExchange s p k) := by
  unfold State.dropExchange
  try dsimp only
  repeat' first
    | with_reducible assumption
    | with_reducible apply State.modPart_kept

theorem State.countDrops_kept {s0 : State} (s : State) (p n : Nat) (hk : Kept s0 s) : Kept s0 (State.countDrops s p n) := by
  unfold State.countDrops
  try dsimp only
  repeat' first
    | with_reducible assumption
    | with_reducible apply State.modPart_kept

theorem State.sendMembers_kept {s0 : State} (s : State) (p : Nat) (ref : PacketRef) (r : Remote) (ms : List (Nat × ExchangeMsg)) (h : Kept s0 s) : Kept s0 (State.sendMembers s p ref r ms).1 := by
  unfold State.sendMembers
  try dsimp only
  repeat' first
    | with_reducible assumption
    | with_reducible apply State.sendExchange_kept
    | with_reducible refine State.sendExchange_kept' (by assumption) ?_
    | with_reducible apply State.keepLocal_kept
    | (with_reducible refine kept_foldl_fst ?_ ?_ _; intro _ _ _)
    | split

theorem State.sendMembers_kept' {s0 t : State} {s : State} {p : Nat} {ref : PacketRef} {r : Remote} {ms : List (Nat × ExchangeMsg)} {x : Remote} (heq0 : (State.sendMembers s p ref r ms) = (t, x)) (h : Kept s0 s) : Kept s0 t := by
  have h1 := State.sendMembers_kept s p ref r ms h
  rwa [heq0] at h1

theorem State.atomicElt_kept {s0 : State} (s : State) (kind a y : Nat) (poison : Bool) (hk : Kept s0 s) : Kept s0 (State.atomicElt s kind a y poison).1 := by
  unfold State.atomicElt
  try dsimp only
  repeat' first
    | with_reducible assumption
    | with_reducible apply State.drain_kept
    | with_reducible apply State.readCw_kept
    | with_reducible apply State.store_kept
    | (with_reducible refine kept_foldl ?_ ?_ _; intro _ _ _)
    | split

theorem State.atomicElt_kept' {s0 t : State} {s : State} {kind a y : Nat} {poison : Bool} {x : Nat × Bool} (heq0 : (State.atomicElt s kind a y poison) = (t, x)) (hk : Kept s0 s) : Kept s0 t := by
  have h1 := State.atomicElt_kept s kind a y poison hk
  rwa [heq0] at h1

theorem State.addQuads_kept {s0 : State} (s : State) (a : Nat) (ys : List Nat) (h : Kept s0 s) : Kept s0 (State.addQuads s a ys) := by
  unfold State.addQuads
  try dsimp only
  repeat' first
    | with_reducible assumption
    | with_reducible apply State.atomicElt_kept
    | with_reducible refine State.atomicElt_kept' (by assumption) ?_
    | (with_reducible refine kept_foldl ?_ ?_ _; intro _ _ _)

theorem State.routeNext_kept' {s0 t : State} {s : State} {p : Nat} {k : Packet} {c : Ctx} {r : Remote} (e : (State.routeNext s p k c r) = some t) (h : Kept s0 s) : Kept s0 t := by
  unfold State.routeNext at e
  try dsimp only at e
  repeat' split at e
  all_goals first
    | (exfalso; simp at e; done)
    | skip
  all_goals simp only [Option.some.injEq, Prod.mk.injEq] at e
  all_goals first
    | (obtain ⟨rfl, _⟩ := e)
  repeat' first
    | with_reducible assumption
    | with_reducible apply State.setPacket_kept
    | with_reducible apply State.endPacket_kept
    | with_reducible apply State.dropExchange_kept

theorem State.landStore_kept {s0 : State} (s : State) (p : Nat) (k : Packet) (r : Remote) (field : Nat) (c : Ctx) (st : StoreOut) (h : Kept s0 s) : Kept s0 (State.landStore s p k r field c st) := by
  unfold State.landStore
  try dsimp only
  repeat' first
    | with_reducible assumption
    | with_reducible apply State.begin_kept

theorem State.compact_kept {s0 : State} (s : State) (p : Nat) (k : Packet) (c : Ctx) (r : Remote) (codes : List Nat) (hk : Kept s0 s) : Kept s0 (State.compact s p k c r codes) := by
  unfold State.compact
  try dsimp only
  repeat' first
    | with_reducible assumption
    | with_reducible apply State.finish_kept
    | with_reducible apply State.dropExchange_kept
    | with_reducible apply State.countDrops_kept

theorem State.combineEnd_kept {s0 : State} (s : State) (p : Nat) (k : Packet) (c : Ctx) (r : Remote) (codes : List Nat) (hk : Kept s0 s) : Kept s0 (State.combineEnd s p k c r codes) := by
  unfold State.combineEnd
  try dsimp only
  repeat' first
    | with_reducible assumption
    | with_reducible apply State.finish_kept
    | with_reducible apply State.dropExchange_kept
    | with_reducible apply State.countDrops_kept
    | with_reducible apply State.landStore_kept
    | split

theorem State.combineNext_kept' {s0 t : State} {s : State} {p : Nat} {k : Packet} {c : Ctx} {r : Remote} (e : (State.combineNext s p k c r) = some t) (h : Kept s0 s) : Kept s0 t := by
  unfold State.combineNext at e
  try dsimp only at e
  repeat' split at e
  all_goals first
    | (exfalso; simp at e; done)
    | skip
  all_goals simp only [Option.some.injEq, Prod.mk.injEq] at e
  all_goals first
    | (obtain ⟨rfl, _⟩ := e)
  repeat' first
    | with_reducible assumption
    | with_reducible apply State.combineEnd_kept

theorem State.combineBwdEnd_kept {s0 : State} (s : State) (p : Nat) (k : Packet) (c : Ctx) (r : Remote) (codes : List Nat) (hk : Kept s0 s) : Kept s0 (State.combineBwdEnd s p k c r codes) := by
  unfold State.combineBwdEnd
  try dsimp only
  repeat' first
    | with_reducible assumption
    | with_reducible apply State.finish_kept
    | with_reducible apply State.dropExchange_kept
    | with_reducible apply State.countDrops_kept

theorem State.combineBwdNext_kept' {s0 t : State} {s : State} {p : Nat} {k : Packet} {c : Ctx} {r : Remote} (e : (State.combineBwdNext s p k c r) = some t) (h : Kept s0 s) : Kept s0 t := by
  unfold State.combineBwdNext at e
  try dsimp only at e
  repeat' split at e
  all_goals first
    | (exfalso; simp at e; done)
    | skip
  all_goals simp only [Option.some.injEq, Prod.mk.injEq] at e
  all_goals first
    | (obtain ⟨rfl, _⟩ := e)
  repeat' first
    | with_reducible assumption
    | with_reducible apply State.combineBwdEnd_kept

theorem State.placeNext_kept' {s0 t : State} {s : State} {p : Nat} {k : Packet} {c : Ctx} {r : Remote} (e : (State.placeNext s p k c r) = some t) (h : Kept s0 s) : Kept s0 t := by
  unfold State.placeNext at e
  try dsimp only at e
  repeat' split at e
  all_goals first
    | (exfalso; simp at e; done)
    | skip
  all_goals simp only [Option.some.injEq, Prod.mk.injEq] at e
  all_goals first
    | (obtain ⟨rfl, _⟩ := e)
  repeat' first
    | with_reducible assumption
    | with_reducible apply State.finish_kept
    | with_reducible apply State.endPacket_kept
    | with_reducible apply State.begin_kept
    | with_reducible apply State.setRemote_kept
    | with_reducible apply State.dropExchange_kept
    | with_reducible apply State.sendMembers_kept

theorem State.placeAdvance_kept {s0 : State} (n : Nat) (ref : PacketRef) (s : State) (h : Kept s0 s) : Kept s0 (State.placeAdvance n ref s) := by
  induction n generalizing s with
  | zero => exact h
  | succ n ih =>
    unfold State.placeAdvance
    try dsimp only
    repeat' first
      | with_reducible assumption
      | with_reducible apply ih
      | with_reducible refine State.placeNext_kept' (by assumption) ?_
      | split

theorem State.placeStart_kept {s0 : State} (s : State) (p : PacketRef) (k : Packet) (c : Ctx) (r : Remote) (what : Nat) (data : Payload) (h : Kept s0 s) : Kept s0 (State.placeStart s p k c r what data) := by
  unfold State.placeStart
  try dsimp only
  repeat' first
    | with_reducible assumption
    | with_reducible apply State.begin_kept
    | with_reducible apply State.setRemote_kept
    | with_reducible apply State.sendMembers_kept
    | with_reducible refine State.sendMembers_kept' (by assumption) ?_
    | with_reducible apply State.placeAdvance_kept
    | split

theorem State.takeLayerCounts_kept {s0 : State} (s : State) (p layer : Nat) (h : Kept s0 s) : Kept s0 (State.takeLayerCounts s p layer).1 := by
  unfold State.takeLayerCounts
  try dsimp only
  repeat' first
    | with_reducible assumption
    | with_reducible apply State.modPart_kept
    | split

theorem State.takeLayerCounts_kept' {s0 t : State} {s : State} {p layer : Nat} {x : List Int} (heq0 : (State.takeLayerCounts s p layer) = (t, x)) (h : Kept s0 s) : Kept s0 t := by
  have h1 := State.takeLayerCounts_kept s p layer h
  rwa [heq0] at h1

theorem State.endRunning_kept {s0 : State} (s : State) (p : Nat) (k : Packet) (w : WorkOut) (h : Kept s0 s) : Kept s0 (State.endRunning s p k w) := by
  unfold State.endRunning
  try dsimp only
  repeat' first
    | with_reducible assumption
    | with_reducible apply State.finish_kept

theorem State.sendTransfer_kept {s0 : State} (s : State) (p : Nat) (k : Packet) (r : Remote) (t : Nat × Nat) (m : ReadyMark) (h : Kept s0 s) : Kept s0 (State.sendTransfer s p k r t m) := by
  unfold State.sendTransfer
  try dsimp only
  repeat' first
    | with_reducible assumption
    | with_reducible apply State.endPacket_kept
    | with_reducible apply State.sendWrites_kept
    | with_reducible refine State.sendWrites_kept' (by assumption) ?_
    | with_reducible apply State.setRemote_kept
    | split

theorem State.sendMark_kept {s0 : State} (s : State) (p : Nat) (c : Ctx) (k : Packet) (r : Remote) (kind : Nat) (t : Nat × Nat) (h : Kept s0 s) : Kept s0 (State.sendMark s p c k r kind t) := by
  unfold State.sendMark
  try dsimp only
  repeat' first
    | with_reducible assumption
    | with_reducible apply State.endPacket_kept
    | with_reducible apply State.controlTo_kept
    | with_reducible refine State.controlTo_kept' (by assumption) ?_
    | with_reducible apply State.setRemote_kept
    | split

theorem State.collectiveNext_kept' {s0 t : State} {s : State} {p : Nat} {k : Packet} {c : Ctx} {r : Remote} (e : (State.collectiveNext s p k c r) = some t) (h : Kept s0 s) : Kept s0 t := by
  unfold State.collectiveNext at e
  try dsimp only at e
  repeat' split at e
  all_goals first
    | (exfalso; simp at e; done)
    | skip
  all_goals simp only [Option.some.injEq, Prod.mk.injEq] at e
  all_goals first
    | (obtain ⟨rfl, _⟩ := e)
  repeat' first
    | with_reducible assumption
    | with_reducible apply State.modPart_kept
    | with_reducible apply State.endPacket_kept
    | with_reducible apply State.begin_kept
    | with_reducible apply State.setRemote_kept
    | with_reducible apply State.endRunning_kept
    | with_reducible apply State.sendTransfer_kept
    | with_reducible apply State.sendMark_kept

theorem State.advance_kept {s0 : State} (n : Nat) (ref : PacketRef) (s : State) (h : Kept s0 s) : Kept s0 (State.advance n ref s) := by
  induction n generalizing s with
  | zero => exact h
  | succ n ih =>
    unfold State.advance
    try dsimp only
    repeat' first
      | with_reducible assumption
      | with_reducible apply ih
      | with_reducible refine State.collectiveNext_kept' (by assumption) ?_
      | split

theorem startRemote_kept {s0 : State} (code : Nat) (own : Ctx → Remote → WorkOut × Remote) (args : Ctx → Remote → Nat × Nat × Nat × Nat) (p : PacketRef)
    (s : State) (h : Kept s0 s) : Kept s0 (startRemote code own args p s) := by
  unfold startRemote
  try dsimp only
  repeat' first
    | with_reducible assumption
    | with_reducible apply State.begin_kept
    | with_reducible apply State.controlAll_kept
    | with_reducible apply State.advance_kept
    | split

theorem epochSetStep_kept {s0 : State} (mode : Nat) (p : PacketRef) (s : State) (h : Kept s0 s) : Kept s0 (epochSetStep mode p s) := by
  unfold epochSetStep
  try dsimp only
  repeat' first
    | with_reducible assumption
    | with_reducible apply runOpcode_kept

theorem State.landDone_kept {s0 : State} (s : State) (p : PacketRef) (rank round : Nat) (h : Kept s0 s) : Kept s0 (State.landDone s p rank round) := by
  unfold State.landDone
  try dsimp only
  repeat' first
    | with_reducible assumption
    | with_reducible apply State.begin_kept
    | with_reducible apply State.setRemote_kept
    | split

theorem Ctx.snapAdmit_kept {s0 : State} (c : Ctx) (s : State) (h : Kept s0 s) : Kept s0 (Ctx.snapAdmit c s).1 := by
  unfold Ctx.snapAdmit
  try dsimp only
  repeat' first
    | with_reducible assumption
    | with_reducible apply State.modPart_kept
    | split

theorem Ctx.snapAdmit_kept' {s0 t : State} {c : Ctx} {s : State} {x : List Int} (heq0 : (Ctx.snapAdmit c s) = (t, x)) (h : Kept s0 s) : Kept s0 t := by
  have h1 := Ctx.snapAdmit_kept c s h
  rwa [heq0] at h1

theorem State.sendBuffer_kept {s0 : State} (s : State) (p : Nat) (k : Packet) (r : Remote) (m : ReadyMark) (round : Nat) (w : Write) (h : Kept s0 s) : Kept s0 (State.sendBuffer s p k r m round w) := by
  unfold State.sendBuffer
  try dsimp only
  repeat' first
    | with_reducible assumption
    | with_reducible apply State.endPacket_kept
    | with_reducible apply State.sendWrites_kept
    | with_reducible refine State.sendWrites_kept' (by assumption) ?_
    | with_reducible apply State.setRemote_kept
    | split

theorem State.sendUnit_kept {s0 : State} (s : State) (p : Nat) (k : Packet) (r : Remote) (m : ReadyMark) (place round : Nat) (u : StoredUnit) (h : Kept s0 s) : Kept s0 (State.sendUnit s p k r m place round u) := by
  unfold State.sendUnit
  try dsimp only
  repeat' first
    | with_reducible assumption
    | with_reducible apply State.sendBuffer_kept

theorem State.parityNext_kept' {s0 t : State} {s : State} {p : Nat} {k : Packet} {c : Ctx} {r : Remote} (e : (State.parityNext s p k c r) = some t) (h : Kept s0 s) : Kept s0 t := by
  unfold State.parityNext at e
  try dsimp only at e
  repeat' split at e
  all_goals first
    | (exfalso; simp at e; done)
    | skip
  all_goals simp only [Option.some.injEq, Prod.mk.injEq] at e
  all_goals first
    | (obtain ⟨rfl, _⟩ := e)
  repeat' first
    | with_reducible assumption
    | with_reducible apply State.modPart_kept
    | with_reducible apply State.setPacket_kept
    | with_reducible apply State.endPacket_kept
    | with_reducible apply State.setRemote_kept
    | with_reducible apply State.controlAll_kept
    | with_reducible apply State.endRunning_kept
    | with_reducible apply State.sendMark_kept
    | with_reducible apply State.sendUnit_kept

theorem State.parityAdvance_kept {s0 : State} (n : Nat) (ref : PacketRef) (s : State) (h : Kept s0 s) : Kept s0 (State.parityAdvance n ref s) := by
  induction n generalizing s with
  | zero => exact h
  | succ n ih =>
    unfold State.parityAdvance
    try dsimp only
    repeat' first
      | with_reducible assumption
      | with_reducible apply ih
      | with_reducible refine State.parityNext_kept' (by assumption) ?_
      | split

theorem State.rebuildNext_kept' {s0 t : State} {s : State} {p : Nat} {k : Packet} {c : Ctx} {r : Remote} (e : (State.rebuildNext s p k c r) = some t) (h : Kept s0 s) : Kept s0 t := by
  unfold State.rebuildNext at e
  try dsimp only at e
  repeat' split at e
  all_goals first
    | (exfalso; simp at e; done)
    | skip
  all_goals simp only [Option.some.injEq, Prod.mk.injEq] at e
  all_goals first
    | (obtain ⟨rfl, _⟩ := e)
  repeat' first
    | with_reducible assumption
    | with_reducible apply State.modPart_kept
    | with_reducible apply State.endPacket_kept
    | with_reducible apply State.setRemote_kept
    | with_reducible apply State.controlAll_kept
    | with_reducible apply State.endRunning_kept
    | with_reducible apply State.sendMark_kept
    | with_reducible apply State.sendUnit_kept

theorem State.rebuildAdvance_kept {s0 : State} (n : Nat) (ref : PacketRef) (s : State) (h : Kept s0 s) : Kept s0 (State.rebuildAdvance n ref s) := by
  induction n generalizing s with
  | zero => exact h
  | succ n ih =>
    unfold State.rebuildAdvance
    try dsimp only
    repeat' first
      | with_reducible assumption
      | with_reducible apply ih
      | with_reducible refine State.rebuildNext_kept' (by assumption) ?_
      | split

theorem State.goOn_kept {s0 : State} (s : State) (ref : PacketRef) (h : Kept s0 s) : Kept s0 (State.goOn s ref) := by
  unfold State.goOn
  try dsimp only
  repeat' first
    | with_reducible assumption
    | with_reducible apply State.keyAdvance_kept
    | with_reducible apply State.routeNext_kept
    | with_reducible refine State.routeNext_kept' (by assumption) ?_
    | with_reducible apply State.combineNext_kept
    | with_reducible refine State.combineNext_kept' (by assumption) ?_
    | with_reducible apply State.combineBwdNext_kept
    | with_reducible refine State.combineBwdNext_kept' (by assumption) ?_
    | with_reducible apply State.placeAdvance_kept
    | with_reducible apply State.advance_kept
    | with_reducible apply State.parityAdvance_kept
    | with_reducible apply State.rebuildAdvance_kept
    | (with_reducible refine kept_getD ?_ ?_; intro _ _)
    | split

theorem State.endFailed_kept {s0 : State} (s : State) (p : Nat) (k : Packet) (code : Nat) (h : Kept s0 s) : Kept s0 (State.endFailed s p k code) := by
  unfold State.endFailed
  try dsimp only
  repeat' first
    | with_reducible assumption
    | with_reducible apply State.modPart_kept
    | with_reducible apply State.endPacket_kept
    | with_reducible apply State.dropExchange_kept
    | with_reducible apply State.compact_kept
    | with_reducible apply State.combineEnd_kept
    | with_reducible apply State.combineBwdEnd_kept
    | split

theorem State.rebuildLost_kept {s0 : State} (s : State) (p : Nat) (k : Packet) (c : Ctx) (r : Remote) (rank : Nat) (h : Kept s0 s) : Kept s0 (State.rebuildLost s p k c r rank) := by
  unfold State.rebuildLost
  try dsimp only
  repeat' first
    | with_reducible assumption
    | with_reducible apply State.setRemote_kept
    | with_reducible apply State.rebuildAdvance_kept
    | with_reducible apply State.endFailed_kept
    | split

theorem State.endLost_kept {s0 : State} (s : State) (p ep : Nat) (k : Packet) (hk : Kept s0 s) : Kept s0 (State.endLost s p ep k) := by
  unfold State.endLost
  try dsimp only
  repeat' first
    | with_reducible assumption
    | with_reducible apply State.setRemote_kept
    | with_reducible apply State.compact_kept
    | with_reducible apply State.combineEnd_kept
    | with_reducible apply State.combineBwdEnd_kept
    | with_reducible apply State.endFailed_kept
    | with_reducible apply State.rebuildLost_kept
    | split

theorem State.loseEndpoint_kept {s0 : State} (s : State) (p ep : Nat) (hk : Kept s0 s) : Kept s0 (State.loseEndpoint s p ep) := by
  unfold State.loseEndpoint
  try dsimp only
  repeat' first
    | with_reducible assumption
    | with_reducible apply State.modPart_kept
    | with_reducible apply State.endLost_kept
    | (with_reducible refine kept_foldl ?_ ?_ _; intro _ _ _)
    | split

theorem State.endAwaiting_kept {s0 : State} (s : State) (p code : Nat) (h : Kept s0 s) : Kept s0 (State.endAwaiting s p code).1 := by
  unfold State.endAwaiting
  try dsimp only
  repeat' first
    | with_reducible assumption
    | with_reducible apply State.endFailed_kept
    | (with_reducible refine kept_foldl ?_ ?_ _; intro _ _ _)
    | split

theorem State.endAwaiting_kept' {s0 t : State} {s : State} {p code : Nat} {x : Nat} (heq0 : (State.endAwaiting s p code) = (t, x)) (h : Kept s0 s) : Kept s0 t := by
  have h1 := State.endAwaiting_kept s p code h
  rwa [heq0] at h1

end Sys2Proof.Machine
end

