-- ==== Sys2Proof/Laws/KeptCompletion.lean ====
section
/-! SUPPORT. What the operations of these files leave alone (see Laws/Kept.lean): Maintenance, Complete, Bounce, Resets, Partition, Products, Sddmm, Update. -/

namespace Sys2Proof.Machine

theorem Ctx.keepDemux_kept {s0 : State} (c : Ctx) (s : State) (hk : Kept s0 s) : Kept s0 (Ctx.keepDemux c s) := by
  unfold Ctx.keepDemux
  try dsimp only
  repeat' first
    | with_reducible assumption
    | with_reducible apply State.modPart_kept

theorem Ctx.scrubEff_kept {s0 : State} (c : Ctx) (s : State) (h : Kept s0 s) : Kept s0 (Ctx.scrubEff c s) := by
  unfold Ctx.scrubEff
  try dsimp only
  repeat' first
    | with_reducible assumption
    | split
    | with_reducible apply Kept.update

theorem Ctx.remapNow_kept {s0 : State} (c : Ctx) (s : State) (h : Kept s0 s) : Kept s0 (Ctx.remapNow c s) := by
  unfold Ctx.remapNow
  try dsimp only
  repeat' first
    | with_reducible assumption
    | with_reducible apply State.memEvent_kept
    | with_reducible apply State.remapGranule_kept
    | split

theorem State.remapRefused_kept {s0 : State} (s : State) (a ring : Nat) (h : Kept s0 s) : Kept s0 (State.remapRefused s a ring) := by
  unfold State.remapRefused
  try dsimp only
  repeat' first
    | with_reducible assumption
    | with_reducible apply State.memEvent_kept

theorem State.retireArray_kept {s0 : State} (s : State) (a ring : Nat) (h : Kept s0 s) : Kept s0 (State.retireArray s a ring) := by
  unfold State.retireArray
  try dsimp only
  repeat' first
    | with_reducible assumption
    | with_reducible apply State.modPart_kept
    | with_reducible apply State.logQuarter_kept
    | split
    | with_reducible apply Kept.update

theorem State.retireSlice_kept {s0 : State} (s : State) (u ring : Nat) (h : Kept s0 s) : Kept s0 (State.retireSlice s u ring) := by
  unfold State.retireSlice
  try dsimp only
  repeat' first
    | with_reducible assumption
    | with_reducible apply State.logQuarter_kept
    | with_reducible apply State.retireArray_kept
    | split
    | with_reducible apply Kept.update

theorem State.reinstateArray_kept {s0 : State} (s : State) (a ring : Nat) (h : Kept s0 s) : Kept s0 (State.reinstateArray s a ring) := by
  unfold State.reinstateArray
  try dsimp only
  repeat' first
    | with_reducible assumption
    | with_reducible apply State.logQuarter_kept
    | split
    | with_reducible apply Kept.update

theorem State.reinstateSlice_kept {s0 : State} (s : State) (u : Nat) (h : Kept s0 s) : Kept s0 (State.reinstateSlice s u) := by
  unfold State.reinstateSlice
  try dsimp only
  repeat' first
    | with_reducible assumption
    | split
    | with_reducible apply Kept.update

theorem State.retireEffect_kept {s0 : State} (s : State) (e : Effect) (ring : Nat) (h : Kept s0 s) : Kept s0 (State.retireEffect s e ring).1 := by
  unfold State.retireEffect
  try dsimp only
  repeat' first
    | with_reducible assumption
    | with_reducible apply State.retireArray_kept
    | with_reducible apply State.retireSlice_kept
    | with_reducible apply State.reinstateArray_kept
    | with_reducible apply State.reinstateSlice_kept
    | split

theorem State.retireEffect_kept' {s0 t : State} {s : State} {e : Effect} {ring : Nat} {x : Nat × Nat × Nat} (heq0 : (State.retireEffect s e ring) = (t, x)) (h : Kept s0 s) : Kept s0 t := by
  have h1 := State.retireEffect_kept s e ring h
  rwa [heq0] at h1

theorem State.putMirror_kept {s0 : State} (s : State) (p obj : Nat) (h : Kept s0 s) : Kept s0 (State.putMirror s p obj) := by
  unfold State.putMirror
  try dsimp only
  repeat' first
    | with_reducible assumption
    | with_reducible apply State.store_kept
    | split

theorem State.modObj_kept {s0 : State} (s : State) (p obj : Nat) (f : PlaceObj → PlaceObj) (h : Kept s0 s) : Kept s0 (State.modObj s p obj f) := by
  unfold State.modObj
  try dsimp only
  repeat' first
    | with_reducible assumption
    | with_reducible apply State.modPart_kept

theorem State.setEpoch_kept {s0 : State} (s : State) (p epoch : Nat) (members : List Nat) (join : Bool) (hk : Kept s0 s) : Kept s0 (State.setEpoch s p epoch members join).1 := by
  unfold State.setEpoch
  try dsimp only
  repeat' first
    | with_reducible assumption
    | with_reducible apply State.modPart_kept
    | with_reducible apply State.endAwaiting_kept

theorem State.setEpoch_kept' {s0 t : State} {s : State} {p epoch : Nat} {members : List Nat} {join : Bool} {x : Nat} (heq0 : (State.setEpoch s p epoch members join) = (t, x)) (hk : Kept s0 s) : Kept s0 t := by
  have h1 := State.setEpoch_kept s p epoch members join hk
  rwa [heq0] at h1

theorem State.requestPState_kept {s0 : State} (s : State) (p v : Nat) (h : Kept s0 s) : Kept s0 (State.requestPState s p v) := by
  unfold State.requestPState
  try dsimp only
  repeat' first
    | with_reducible assumption
    | with_reducible apply State.modPart_kept

theorem State.applyEffect_kept {s0 : State} (p : Nat) (k : Packet) (acc : State × Result) (e : Effect) (h : Kept s0 acc.1) : Kept s0 (State.applyEffect p k acc e).1 := by
  unfold State.applyEffect
  dsimp only
  repeat' first
    | with_reducible assumption
    | with_reducible apply State.modPart_kept
    | with_reducible apply State.modRing_kept
    | with_reducible apply State.retireEffect_kept
    | with_reducible apply State.modObj_kept
    | with_reducible apply State.putMirror_kept
    | with_reducible apply State.setEpoch_kept
    | with_reducible apply State.requestPState_kept
    | split

theorem State.release_kept {s0 : State} (s : State) (p : Nat) (k : Packet) (h : Kept s0 s) : Kept s0 (State.release s p k) := by
  unfold State.release
  try dsimp only
  repeat' first
    | with_reducible assumption
    | with_reducible apply State.modPart_kept

theorem State.makeVisible_kept {s0 : State} (s : State) (p : Nat) (k : Packet) (h : Kept s0 s) : Kept s0 (State.makeVisible s p k).1 := by
  unfold State.makeVisible
  dsimp only
  refine kept_foldl_fst (fun b x hb => State.applyEffect_kept p _ b x hb) ?_ _
  refine State.modPart_kept _ _ _ (State.modPart_kept _ _ _ ?_)
  split
  · exact State.storeAll_kept _ _ h
  · exact h

theorem State.makeVisible_kept' {s0 t : State} {s : State} {p : Nat} {k x : Packet} (heq0 : State.makeVisible s p k = (t, x))
    (h : Kept s0 s) : Kept s0 t := by
  have h1 := State.makeVisible_kept s p k h
  rwa [heq0] at h1

theorem State.complete_kept {s0 : State} (s : State) (p : Nat) (k : Packet) (h : Kept s0 s) : Kept s0 (State.complete s p k) := by
  unfold State.complete
  try dsimp only
  repeat' first
    | with_reducible assumption
    | with_reducible apply State.record_kept
    | with_reducible apply State.stopRing_kept
    | with_reducible apply State.release_kept
    | with_reducible apply State.makeVisible_kept
    | with_reducible refine State.makeVisible_kept' (by assumption) ?_
    | split

theorem State.abort_kept {s0 : State} (s : State) (p : Nat) (k : Packet) (h : Kept s0 s) : Kept s0 (State.abort s p k) := by
  unfold State.abort
  try dsimp only
  repeat' first
    | with_reducible assumption
    | with_reducible apply State.modPart_kept
    | with_reducible apply State.setPacket_kept
    | split

theorem State.abortWhere_kept {s0 : State} (s : State) (p : Nat) (f : Packet → Bool) (h : Kept s0 s) : Kept s0 (State.abortWhere s p f) := by
  unfold State.abortWhere
  try dsimp only
  repeat' first
    | with_reducible assumption
    | with_reducible apply State.abort_kept
    | (with_reducible refine kept_foldl ?_ ?_ _; intro _ _ _)

theorem State.completeAborted_kept {s0 : State} (s : State) (p : Nat) (h : Kept s0 s) : Kept s0 (State.completeAborted s p) := by
  unfold State.completeAborted
  try dsimp only
  repeat' first
    | with_reducible assumption
    | with_reducible apply State.complete_kept
    | (with_reducible refine kept_foldl ?_ ?_ _; intro _ _ _)

theorem Ctx.bindQueue_kept {s0 : State} (c : Ctx) (s : State) (h : Kept s0 s) : Kept s0 (Ctx.bindQueue c s) := by
  unfold Ctx.bindQueue
  try dsimp only
  repeat' first
    | with_reducible assumption
    | with_reducible apply State.modQueue_kept

theorem State.sendRecords_kept {s0 : State} (n : Nat) (ref : PacketRef) (s : State) (h : Kept s0 s) : Kept s0 (State.sendRecords n ref s) := by
  induction n generalizing s with
  | zero => exact h
  | succ n ih =>
    unfold State.sendRecords
    try dsimp only
    repeat' first
      | with_reducible assumption
      | with_reducible apply ih
      | with_reducible apply State.setPacket_kept
      | with_reducible apply State.readEffects_kept
      | with_reducible apply State.bouncePut_kept
      | split

theorem State.bounceDoorbell_kept {s0 : State} (s : State) (p ring q : Nat) (data : Word) (h : Kept s0 s) : Kept s0 (State.bounceDoorbell s p ring q data) := by
  unfold State.bounceDoorbell
  try dsimp only
  repeat' first
    | with_reducible assumption
    | with_reducible apply State.emit_kept
    | with_reducible apply State.modQueue_kept
    | with_reducible apply State.bouncePump_kept
    | with_reducible apply State.flushAll_kept
    | with_reducible apply State.markRing_kept
    | split

theorem State.bounceAccept_kept {s0 : State} (s : State) (p q : Nat) (b : List Byte) (h : Kept s0 s) : Kept s0 (State.bounceAccept s p q b) := by
  unfold State.bounceAccept
  try dsimp only
  repeat' first
    | with_reducible assumption
    | with_reducible apply State.modRing_kept
    | with_reducible apply State.store_kept
    | with_reducible apply State.modQueue_kept
    | split

theorem State.bindBootstrap_kept {s0 : State} (s : State) (p first : Nat) (h : Kept s0 s) : Kept s0 (State.bindBootstrap s p first) := by
  unfold State.bindBootstrap
  try dsimp only
  repeat' first
    | with_reducible assumption
    | with_reducible apply State.modRing_kept
    | with_reducible apply State.modWindow_kept
    | with_reducible apply State.log_kept
    | with_reducible apply State.zeroRange_kept
    | (with_reducible refine kept_foldl ?_ ?_ _; intro _ _ _)
    | split

theorem State.destroyPortKeys_kept {s0 : State} (s : State) (i : Nat) (h : Kept s0 s) : Kept s0 (State.destroyPortKeys s i) := by
  unfold State.destroyPortKeys
  try dsimp only
  repeat' first
    | with_reducible assumption
    | with_reducible apply State.modPort_kept
    | with_reducible apply State.beginRetrain_kept
    | split

theorem State.destroyHostKeys_kept {s0 : State} (s : State) (p : Nat) (h : Kept s0 s) : Kept s0 (State.destroyHostKeys s p) := by
  unfold State.destroyHostKeys
  try dsimp only
  repeat' first
    | with_reducible assumption
    | with_reducible apply State.modPart_kept

theorem State.destroyKeys_kept {s0 : State} (s : State) (p : Nat) (h : Kept s0 s) : Kept s0 (State.destroyKeys s p) := by
  unfold State.destroyKeys
  try dsimp only
  repeat' first
    | with_reducible assumption
    | with_reducible apply State.destroyPortKeys_kept
    | with_reducible apply State.destroyHostKeys_kept
    | (with_reducible refine kept_foldl ?_ ?_ _; intro _ _ _)

theorem State.drainPart_kept {s0 : State} (s : State) (p : Nat) (h : Kept s0 s) : Kept s0 (State.drainPart s p) := by
  unfold State.drainPart
  try dsimp only
  repeat' first
    | with_reducible assumption
    | with_reducible apply State.drain_kept
    | (with_reducible refine kept_foldl ?_ ?_ _; intro _ _ _)

theorem State.dropRequests_kept {s0 : State} (s : State) (p : Nat) (h : Kept s0 s) : Kept s0 (State.dropRequests s p) := by
  unfold State.dropRequests
  try dsimp only
  repeat' first
    | with_reducible assumption
    | split
    | with_reducible apply Kept.update

theorem State.closePart_kept {s0 : State} (s : State) (p : Nat) (h : Kept s0 s) : Kept s0 (State.closePart s p) := by
  unfold State.closePart
  try dsimp only
  repeat' first
    | with_reducible assumption
    | with_reducible apply State.modPart_kept
    | with_reducible apply State.abortWhere_kept
    | with_reducible apply State.completeAborted_kept
    | with_reducible apply State.drainPart_kept
    | with_reducible apply State.dropRequests_kept

theorem State.clearPart_kept {s0 : State} (s : State) (p : Nat) (h : Kept s0 s) : Kept s0 (State.clearPart s p) := by
  unfold State.clearPart
  try dsimp only
  repeat' first
    | with_reducible assumption
    | with_reducible apply State.modPart_kept
    | with_reducible apply State.updateSetPoints_kept
    | with_reducible apply State.destroyKeys_kept

theorem State.freeUncommitted_kept {s0 : State} (s : State) (p : Nat) (h : Kept s0 s) : Kept s0 (State.freeUncommitted s p) := by
  unfold State.freeUncommitted
  try dsimp only
  repeat' first
    | with_reducible assumption
    | with_reducible apply State.modPart_kept
    | with_reducible apply State.log_kept
    | (with_reducible refine kept_foldl ?_ ?_ _; intro _ _ _)

theorem State.openPart_kept {s0 : State} (s : State) (p first : Nat) (h : Kept s0 s) : Kept s0 (State.openPart s p first) := by
  unfold State.openPart
  try dsimp only
  repeat' first
    | with_reducible assumption
    | with_reducible apply State.modPart_kept
    | with_reducible apply State.bindBootstrap_kept

theorem State.wake_kept {s0 : State} (s : State) (p : Nat) (h : Kept s0 s) : Kept s0 (State.wake s p) := by
  unfold State.wake
  try dsimp only
  repeat' first
    | with_reducible assumption
    | with_reducible apply State.modPart_kept
    | split

theorem State.streamReset_kept {s0 : State} (s : State) (p : Nat) (cls : StreamClass) (h : Kept s0 s) : Kept s0 (State.streamReset s p cls) := by
  unfold State.streamReset
  try dsimp only
  repeat' first
    | with_reducible assumption
    | with_reducible apply State.modRing_kept
    | with_reducible apply State.abortWhere_kept
    | with_reducible apply State.completeAborted_kept
    | with_reducible apply State.destroyKeys_kept
    | with_reducible apply State.wake_kept
    | (with_reducible refine kept_foldl ?_ ?_ _; intro _ _ _)

theorem State.partitionReset_kept {s0 : State} (s : State) (p : Nat) (h : Kept s0 s) : Kept s0 (State.partitionReset s p) := by
  unfold State.partitionReset
  try dsimp only
  repeat' first
    | with_reducible assumption
    | with_reducible apply State.modWindow_kept
    | with_reducible apply State.closePart_kept
    | with_reducible apply State.clearPart_kept
    | with_reducible apply State.freeUncommitted_kept
    | with_reducible apply State.openPart_kept
    | (with_reducible refine kept_foldl ?_ ?_ _; intro _ _ _)

theorem State.abortGranted_kept {s0 : State} (s : State) (p : Nat) (rs : List Resource) (h : Kept s0 s) : Kept s0 (State.abortGranted s p rs) := by
  unfold State.abortGranted
  try dsimp only
  repeat' first
    | with_reducible assumption
    | with_reducible apply State.modPart_kept
    | with_reducible apply State.abortWhere_kept
    | with_reducible apply State.completeAborted_kept

theorem State.failThrough_kept {s0 : State} (s : State) (i code : Nat) (h : Kept s0 s) : Kept s0 (State.failThrough s i code) := by
  unfold State.failThrough
  try dsimp only
  repeat' first
    | with_reducible assumption
    | with_reducible apply State.modPort_kept
    | with_reducible apply State.endFailed_kept
    | (with_reducible refine kept_foldl ?_ ?_ _; intro _ _ _)
    | split

theorem State.endpointReset_kept {s0 : State} (s : State) (h : Kept s0 s) : Kept s0 (State.endpointReset s) := by
  unfold State.endpointReset
  try dsimp only
  repeat' first
    | with_reducible assumption
    | with_reducible apply State.destroyHostKeys_kept
    | (with_reducible refine kept_foldl ?_ ?_ _; intro _ _ _)
    | split
    | with_reducible apply Kept.update

theorem State.portReset_kept {s0 : State} (s : State) (i : Nat) (h : Kept s0 s) : Kept s0 (State.portReset s i) := by
  unfold State.portReset
  try dsimp only
  repeat' first
    | with_reducible assumption
    | with_reducible apply State.modPort_kept
    | with_reducible apply State.beginRetrain_kept
    | with_reducible apply State.failThrough_kept
    | split

theorem State.unitReset_kept {s0 : State} (s : State) (p v : Nat) (h : Kept s0 s) : Kept s0 (State.unitReset s p v) := by
  unfold State.unitReset
  try dsimp only
  repeat' first
    | with_reducible assumption
    | with_reducible apply State.abortGranted_kept
    | with_reducible apply State.endpointReset_kept
    | with_reducible apply State.portReset_kept
    | split

theorem State.zeroQuarter_kept {s0 : State} (s : State) (q : Nat) (h : Kept s0 s) : Kept s0 (State.zeroQuarter s q) := by
  unfold State.zeroQuarter
  try dsimp only
  repeat' first
    | with_reducible assumption
    | with_reducible apply State.zeroRange_kept

theorem State.scrubPart_kept {s0 : State} (s : State) (erase : Bool) (p : Nat) (h : Kept s0 s) : Kept s0 (State.scrubPart s erase p) := by
  unfold State.scrubPart
  try dsimp only
  repeat' first
    | with_reducible assumption
    | with_reducible apply State.modPart_kept
    | with_reducible apply State.closePart_kept
    | with_reducible apply State.clearPart_kept
    | with_reducible apply State.zeroQuarter_kept
    | (with_reducible refine kept_foldl ?_ ?_ _; intro _ _ _)
    | split

theorem layoutQuarters_legal (n : Nat) : layoutQuarters n = 4 ∨ layoutQuarters n = 2 ∨ layoutQuarters n = 1 := by
  unfold layoutQuarters
  split <;> simp

theorem State.formParts_kept {s0 : State} (s : State) (c : LayoutChange) (ms : Nat) (h : Kept s0 s) : Kept s0 (State.formParts s c ms) := by
  unfold State.formParts
  dsimp only
  refine State.updateSetPoints_kept _ (kept_foldl ?_ ?_ _)
  · intro t x ht
    repeat' first
      | with_reducible assumption
      | with_reducible apply State.modPart_kept
      | with_reducible apply State.store_kept
      | with_reducible apply State.bindBootstrap_kept
      | split
  · exact ⟨h.queue, h.identity, fun i =>
      have j := h.inv i
      ⟨j.memory, layoutQuarters_legal _, by simp [j.parts], j.windows, j.ports, j.halves⟩⟩

theorem runProduct_kept {s0 : State} (code : Nat) (job : Ctx → Job) (p : PacketRef) (s : State) (h : Kept s0 s) : Kept s0 (runProduct code job p s) := by
  unfold runProduct
  try dsimp only
  repeat' first
    | with_reducible assumption
    | with_reducible apply State.setPacket_kept
    | with_reducible apply State.finish_kept
    | split

theorem combineStep_kept {s0 : State} (p : PacketRef) (tile : Nat) (s : State) (h : Kept s0 s) : Kept s0 (combineStep p tile s) := by
  unfold combineStep
  try dsimp only
  repeat' first
    | with_reducible assumption
    | with_reducible apply State.storeAll_kept
    | with_reducible apply State.setPacket_kept
    | split

theorem turnReady_kept {s0 : State} (code : Nat) (p : PacketRef) (s : State) (h : Kept s0 s) : Kept s0 (turnReady code p s) := by
  unfold turnReady
  try dsimp only
  repeat' first
    | with_reducible assumption
    | with_reducible apply State.setPacket_kept
    | split

end Sys2Proof.Machine
end

