-- ==== Sys2Proof/Laws/KeptFabric.lean ====
section
/-! SUPPORT. What the operations of Fabric leave alone (see Laws/Kept.lean): flits move in the fabric's links alone, and a message that is lost ends
its packet. -/

namespace Sys2Proof.Machine

variable {s0 : State}

/-- Links replaced. -/
theorem Kept.links {s : State} (h : Kept s0 s) (fs : List FabLink) : Kept s0 { s with fabric := fs } := Kept.same h rfl rfl rfl rfl rfl rfl rfl rfl

theorem State.setLink_kept (s : State) (x : FabLink) (h : Kept s0 s) : Kept s0 (s.setLink x) := h.links _

theorem State.stopPacket_kept (s : State) (p : Nat) (k : Packet) (h : Kept s0 s) : Kept s0 (s.stopPacket p k) := by
  unfold State.stopPacket
  split
  · exact State.endFailed_kept _ _ _ _ h
  · split
    · exact State.endPacket_kept _ _ _ _ h
    · exact h

theorem State.loseMessage_kept (s : State) (m : FabricMsg) (h : Kept s0 s) : Kept s0 (s.loseMessage m) := by
  have h1 := State.emit_kept s (.fabricFailed m.id) h
  unfold State.loseMessage
  dsimp only
  split
  · exact h
  · split
    · exact h1
    · split
      · exact State.stopPacket_kept _ _ _ h1
      · exact h1

theorem State.dropMessages_kept (s : State) (gone : FabricMsg → Bool) (h : Kept s0 s) : Kept s0 (s.dropMessages gone) := h.links _

theorem State.loseMessages_kept (ms : List FabricMsg) (s : State) (h : Kept s0 s) : Kept s0 (ms.foldl State.loseMessage s) :=
  kept_foldl (fun t m ht => State.loseMessage_kept t m ht) h ms

theorem State.settleRoutes_kept (s : State) (h : Kept s0 s) : Kept s0 s.settleRoutes := State.loseMessages_kept _ _ (State.dropMessages_kept _ _ h)

theorem State.turnBack_kept (s : State) (p : Nat) (toWest : Bool) (h : Kept s0 s) : Kept s0 (s.turnBack p toWest) := (h.links _).links _

theorem State.moveOut_kept (fuel : Nat) (l : FabricLink) (v : Nat) (out : FabricLink) (s : State) (h : Kept s0 s) :
    Kept s0 (State.moveOut fuel l v out s) := by
  induction fuel generalizing s with
  | zero => exact h
  | succ n ih =>
    unfold State.moveOut
    dsimp only
    split
    · exact h
    · split
      · exact ih _ ((h.links _).links _)
      · exact h

theorem State.grantOutput_kept (s : State) (half : Nat) (out : FabricLink) (h : Kept s0 s) : Kept s0 (s.grantOutput half out) := by
  unfold State.grantOutput
  dsimp only
  split
  · exact h
  · split
    · exact State.moveOut_kept _ _ _ _ _ (h.links _)
    · exact h.links _

theorem State.routerEdge_kept (s : State) (half : Nat) (h : Kept s0 s) : Kept s0 (s.routerEdge half) :=
  kept_foldl (fun t out ht => State.grantOutput_kept t half out ht) h _

theorem State.deliver_kept (s : State) (x : FabLink) (m : FabricMsg) (h : Kept s0 s) : Kept s0 (s.deliver x m) := State.emit_kept _ _ (h.links _)

theorem State.grantMemory_kept (s : State) (l : FabricLink) (u : FabUnit) (ch : Nat) (h : Kept s0 s) : Kept s0 (s.grantMemory l u ch) := by
  unfold State.grantMemory
  dsimp only
  split
  · exact h
  · split
    · exact h
    · split
      · exact State.deliver_kept _ _ _ h
      · exact h.links _

theorem State.unitEdge_kept (s : State) (c : Nat) (h : Kept s0 s) : Kept s0 (s.unitEdge c) := by
  refine kept_foldl (fun t x ht => ?_) h _
  split
  · split
    · exact ht
    · split
      · exact ht
      · refine kept_foldl (fun t ch ht => State.grantMemory_kept t _ _ ch ht) ?_ _
        exact kept_foldl (fun t m ht => State.deliver_kept t _ m ht) ht _
  · exact ht

theorem State.clockEdge_kept (s : State) (c : Nat) (h : Kept s0 s) : Kept s0 (s.clockEdge c) := by
  unfold State.clockEdge
  dsimp only
  refine State.unitEdge_kept _ _ ?_
  split
  · exact State.routerEdge_kept _ _ (h.links _)
  · exact h.links _

theorem State.moveFlits_kept (s : State) (h : Kept s0 s) : Kept s0 s.moveFlits := by
  unfold State.moveFlits
  split
  · exact h
  · refine kept_foldl (fun t i ht => ?_) h _
    refine kept_foldl (fun t c ht => ?_) ht _
    split
    · exact State.clockEdge_kept _ _ ht
    · exact ht

theorem State.clearCrossings_kept (s : State) (h : Kept s0 s) : Kept s0 s.clearCrossings := h.links _

theorem State.drainCrossings_kept (s : State) (h : Kept s0 s) : Kept s0 s.drainCrossings := h.links _

/-- Links replaced, and the set of halves that are down. -/
theorem Kept.halvesDown {s : State} (h : Kept s0 s) (hs : List Nat) (fs : List FabLink) : Kept s0 { s with halvesDown := hs, fabric := fs } :=
  Kept.same h rfl rfl rfl rfl rfl rfl rfl rfl

theorem State.dropHalf_kept (s : State) (half : Nat) (h : Kept s0 s) : Kept s0 (s.dropHalf half) := by
  unfold State.dropHalf
  dsimp only
  exact State.loseMessages_kept _ _ (Kept.halvesDown (State.clearCrossings_kept _ (State.dropMessages_kept _ _ h)) _ _)

end Sys2Proof.Machine
end

