-- ==== Sys2Proof/Laws/KeptModule.lean ====
section
/-! SUPPORT. What the operations of these files leave alone (see Laws/Kept.lean): Admit, Links, Boot, Rings, Messages, Integrity, Slow, Registers, Bridge, Idle, Power, Sideband. -/

namespace Sys2Proof.Machine

theorem State.takeEarly_kept {s0 : State} (s : State) (p : Nat) (c : Ctx) (r : Remote) (hk : Kept s0 s) : Kept s0 (State.takeEarly s p c r).1 := by
  unfold State.takeEarly
  try dsimp only
  repeat' first
    | with_reducible assumption
    | with_reducible apply State.modPart_kept
    | with_reducible apply State.lateness_kept
    | (with_reducible refine kept_foldl ?_ ?_ _; intro _ _ _)

theorem State.takeEarly_kept' {s0 t : State} {s : State} {p : Nat} {c : Ctx} {r : Remote} {x : Remote} (heq0 : (State.takeEarly s p c r) = (t, x)) (hk : Kept s0 s) : Kept s0 t := by
  have h1 := State.takeEarly_kept s p c r hk
  rwa [heq0] at h1

theorem State.wakeBenches_kept {s0 : State} (s : State) (leaves : List Nat) (hk : Kept s0 s) : Kept s0 (State.wakeBenches s leaves) := by
  unfold State.wakeBenches
  try dsimp only
  repeat' first
    | with_reducible assumption
    | split
    | with_reducible apply Kept.update

theorem State.place_kept {s0 : State} (s : State) (p : Nat) (k : Packet) (op : OpSpec) (c : Ctx) (hk : Kept s0 s) : Kept s0 (State.place s p k op c) := by
  unfold State.place
  try dsimp only
  repeat' first
    | with_reducible assumption
    | with_reducible apply State.modPart_kept
    | with_reducible apply State.setPacket_kept
    | with_reducible apply State.wakeBenches_kept
    | split

theorem State.reservePools_kept {s0 : State} (s : State) (p : Nat) (k : Packet) (op : OpSpec) (c : Ctx) (first : Bool) (hk : Kept s0 s) : Kept s0 (State.reservePools s p k op c first) := by
  unfold State.reservePools
  try dsimp only
  repeat' first
    | with_reducible assumption
    | with_reducible apply State.modPart_kept
    | with_reducible apply State.setPacket_kept
    | with_reducible apply State.place_kept
    | split

theorem State.snapshotReads_kept {s0 : State} (s : State) (ring status : Nat) (reads : List (Nat × Nat)) (hk : Kept s0 s) : Kept s0 (State.snapshotReads s ring status reads) := by
  unfold State.snapshotReads
  try dsimp only
  repeat' first
    | with_reducible assumption
    | with_reducible apply State.readEffects_kept
    | (with_reducible refine kept_foldl ?_ ?_ _; intro _ _ _)

theorem State.begins_kept {s0 : State} (s : State) (p : Nat) (k : Packet) (op : OpSpec) (c : Ctx) (hk : Kept s0 s) : Kept s0 (State.begins s p k op c) := by
  unfold State.begins
  try dsimp only
  repeat' first
    | with_reducible assumption
    | with_reducible apply State.modPart_kept
    | with_reducible apply State.setPacket_kept
    | with_reducible apply State.takeLayerCounts_kept
    | with_reducible refine State.takeLayerCounts_kept' (by assumption) ?_
    | with_reducible apply Ctx.snapAdmit_kept
    | with_reducible refine Ctx.snapAdmit_kept' (by assumption) ?_
    | with_reducible apply State.takeEarly_kept
    | with_reducible refine State.takeEarly_kept' (by assumption) ?_
    | with_reducible apply State.reservePools_kept
    | split

theorem State.takeUp_kept {s0 : State} (s : State) (p : Nat) (k : Packet) (hk : Kept s0 s) : Kept s0 (State.takeUp s p k) := by
  unfold State.takeUp
  try dsimp only
  repeat' first
    | with_reducible assumption
    | with_reducible apply State.setPacket_kept
    | with_reducible apply State.remapRefused_kept
    | with_reducible apply State.snapshotReads_kept
    | with_reducible apply State.begins_kept
    | split

theorem State.retry_kept {s0 : State} (s : State) (p : Nat) (k : Packet) (hk : Kept s0 s) : Kept s0 (State.retry s p k) := by
  unfold State.retry
  try dsimp only
  repeat' first
    | with_reducible assumption
    | with_reducible apply State.reservePools_kept
    | with_reducible apply State.takeUp_kept
    | split

theorem State.retryWhere_kept {s0 : State} (s : State) (p : Nat) (f : Packet → Bool) (hk : Kept s0 s) : Kept s0 (State.retryWhere s p f) := by
  unfold State.retryWhere
  try dsimp only
  repeat' first
    | with_reducible assumption
    | with_reducible apply State.retry_kept
    | (with_reducible refine kept_foldl ?_ ?_ _; intro _ _ _)
    | split

theorem retryHeld_kept {s0 : State} (why : Hold → Bool) (p : PacketRef) (s : State) (hk : Kept s0 s) : Kept s0 (retryHeld why p s) := by
  unfold retryHeld
  try dsimp only
  repeat' first
    | with_reducible assumption
    | with_reducible apply State.retry_kept
    | split

theorem State.bridgeEvent_kept {s0 : State} (s : State) (fn : Nat) (hk : Kept s0 s) : Kept s0 (State.bridgeEvent s fn) := by
  unfold State.bridgeEvent
  try dsimp only
  repeat' first
    | with_reducible assumption
    | with_reducible apply State.raiseMsix_kept
    | split

theorem State.failRequest_kept {s0 : State} (s : State) (r : BridgeReq) (hk : Kept s0 s) : Kept s0 (State.failRequest s r) := by
  unfold State.failRequest
  try dsimp only
  repeat' first
    | with_reducible assumption
    | with_reducible apply State.emit_kept
    | split

theorem State.failHeld_kept {s0 : State} (s : State) (h : BridgeHeld) (hk : Kept s0 s) : Kept s0 (State.failHeld s h) := by
  unfold State.failHeld
  try dsimp only
  repeat' first
    | with_reducible assumption
    | with_reducible apply State.emit_kept
    | split
    | with_reducible apply Kept.update

theorem State.failRequests_kept {s0 : State} (s : State) (i : Nat) (hk : Kept s0 s) : Kept s0 (State.failRequests s i) := by
  unfold State.failRequests
  try dsimp only
  repeat' first
    | with_reducible assumption
    | with_reducible apply State.failRequest_kept
    | with_reducible apply State.failHeld_kept
    | (with_reducible refine kept_foldl ?_ ?_ _; intro _ _ _)
    | split
    | with_reducible apply Kept.update

theorem State.moveUnacked_kept {s0 : State} (s : State) (owner : Option PacketRef) (id i j : Nat) (hk : Kept s0 s) : Kept s0 (State.moveUnacked s owner id i j) := by
  unfold State.moveUnacked
  try dsimp only
  repeat' first
    | with_reducible assumption
    | with_reducible apply State.setPacket_kept
    | split
    | with_reducible apply Kept.update

theorem State.failOwner_kept {s0 : State} (s : State) (owner : Option PacketRef) (code : Nat) (hk : Kept s0 s) : Kept s0 (State.failOwner s owner code) := by
  unfold State.failOwner
  try dsimp only
  repeat' first
    | with_reducible assumption
    | with_reducible apply State.endFailed_kept
    | split

theorem State.moveMessage_kept {s0 : State} (s : State) (i code : Nat) (f : TxMsg) (hk : Kept s0 s) : Kept s0 (State.moveMessage s i code f) := by
  unfold State.moveMessage
  try dsimp only
  repeat' first
    | with_reducible assumption
    | with_reducible apply State.portSend_kept
    | with_reducible apply State.moveUnacked_kept
    | with_reducible apply State.failOwner_kept
    | split

theorem State.portDown_kept {s0 : State} (s : State) (i : Nat) (hk : Kept s0 s) : Kept s0 (State.portDown s i) := by
  unfold State.portDown
  try dsimp only
  repeat' first
    | with_reducible assumption
    | with_reducible apply State.logQuarter_kept
    | with_reducible apply State.modPort_kept
    | with_reducible apply State.portSwitched_kept
    | with_reducible apply State.failThrough_kept
    | with_reducible apply State.bridgeEvent_kept
    | with_reducible apply State.failRequests_kept
    | with_reducible apply State.moveMessage_kept
    | (with_reducible refine kept_foldl ?_ ?_ _; intro _ _ _)

theorem State.replayPort_kept {s0 : State} (s : State) (i : Nat) (hk : Kept s0 s) : Kept s0 (State.replayPort s i) := by
  unfold State.replayPort
  try dsimp only
  repeat' first
    | with_reducible assumption
    | with_reducible apply State.emit_kept
    | with_reducible apply State.modPort_kept
    | with_reducible apply State.pumpPort_kept
    | (with_reducible refine kept_foldl ?_ ?_ _; intro _ _ _)

theorem State.portUp_kept {s0 : State} (s : State) (i : Nat) (lanes : List Nat) (hk : Kept s0 s) : Kept s0 (State.portUp s i lanes) := by
  unfold State.portUp
  try dsimp only
  repeat' first
    | with_reducible assumption
    | with_reducible apply State.logQuarter_kept
    | with_reducible apply State.modPort_kept
    | with_reducible apply State.portSwitched_kept
    | with_reducible apply State.bridgeEvent_kept
    | with_reducible apply State.replayPort_kept
    | split

theorem State.retryRequested_kept {s0 : State} (s : State) (i ack : Nat) (valid : Bool) (hk : Kept s0 s) : Kept s0 (State.retryRequested s i ack valid) := by
  unfold State.retryRequested
  try dsimp only
  repeat' first
    | with_reducible assumption
    | with_reducible apply State.modPort_kept
    | with_reducible apply State.beginRetrain_kept
    | with_reducible apply State.settle_kept
    | with_reducible apply State.replayPort_kept
    | split

theorem State.askReplay_kept {s0 : State} (s : State) (i : Nat) (hk : Kept s0 s) : Kept s0 (State.askReplay s i) := by
  unfold State.askReplay
  try dsimp only
  repeat' first
    | with_reducible assumption
    | with_reducible apply State.emit_kept
    | with_reducible apply State.modPort_kept

theorem State.takeHead_kept {s0 : State} (s : State) (i : Nat) (flit : List Byte) (hk : Kept s0 s) : Kept s0 (State.takeHead s i flit) := by
  unfold State.takeHead
  try dsimp only
  repeat' first
    | with_reducible assumption
    | with_reducible apply State.modPort_kept
    | with_reducible apply State.pumpPort_kept
    | with_reducible apply State.settle_kept

theorem State.acceptFlit_kept {s0 : State} (s : State) (i seq vc : Nat) (payload : List Byte) (hk : Kept s0 s) : Kept s0 (State.acceptFlit s i seq vc payload) := by
  unfold State.acceptFlit
  try dsimp only
  repeat' first
    | with_reducible assumption
    | with_reducible apply State.modPort_kept

theorem State.flitArrives_kept {s0 : State} (s : State) (i : Nat) (codewordOk : Bool) (bytes : List Byte) (hk : Kept s0 s) : Kept s0 (State.flitArrives s i codewordOk bytes) := by
  unfold State.flitArrives
  try dsimp only
  repeat' first
    | with_reducible assumption
    | with_reducible apply State.modPort_kept
    | with_reducible apply State.retryRequested_kept
    | with_reducible apply State.askReplay_kept
    | with_reducible apply State.takeHead_kept
    | with_reducible apply State.acceptFlit_kept
    | split

theorem State.applyFuses_kept {s0 : State} (s : State) (hk : Kept s0 s) : Kept s0 (State.applyFuses s).1 := by
  unfold State.applyFuses
  try dsimp only
  repeat' first
    | with_reducible assumption
    | (with_reducible refine kept_foldl_fst ?_ ?_ _; intro _ _ _)
    | split
    | with_reducible apply Kept.update

theorem State.applyFuses_kept' {s0 t : State} {s : State} {x : List (Nat × MemKind × Nat × Nat)} (heq0 : (State.applyFuses s) = (t, x)) (hk : Kept s0 s) : Kept s0 t := by
  have h1 := State.applyFuses_kept s hk
  rwa [heq0] at h1

theorem State.unpowered_kept {s0 : State} (s : State) (h : Kept s0 s) : Kept s0 (State.unpowered s) :=
  ⟨h.queue, h.identity, fun i =>
    have j := h.inv i
    ⟨rfl, j.layout, by simp [State.unpowered, j.parts], rfl, by simp [State.unpowered], rfl⟩⟩

theorem State.moduleReset_kept {s0 : State} (s : State) (h : Kept s0 s) : Kept s0 (State.moduleReset s) := by
  unfold State.moduleReset
  split
  · exact h
  · exact ⟨h.queue, h.identity, fun i =>
      have j := h.inv i
      ⟨j.memory, j.layout, by simp [j.parts], by simp [j.windows], by simp [j.ports], rfl⟩⟩

theorem State.reloadRemaps_kept {s0 : State} (s : State) (hk : Kept s0 s) : Kept s0 (State.reloadRemaps s).1 := by
  unfold State.reloadRemaps
  try dsimp only
  repeat' first
    | with_reducible assumption
    | with_reducible apply State.unmapGranule_kept
    | (with_reducible refine kept_foldl ?_ ?_ _; intro _ _ _)

theorem State.reloadRemaps_kept' {s0 t : State} {s : State} {x : List Nat} (heq0 : (State.reloadRemaps s) = (t, x)) (hk : Kept s0 s) : Kept s0 t := by
  have h1 := State.reloadRemaps_kept s hk
  rwa [heq0] at h1

theorem State.bootZero_kept {s0 : State} (s : State) (zeroed : List Nat) (hk : Kept s0 s) : Kept s0 (State.bootZero s zeroed) := by
  unfold State.bootZero
  try dsimp only
  repeat' first
    | with_reducible assumption
    | with_reducible apply State.addPoison_kept
    | with_reducible apply State.zeroRange_kept
    | (with_reducible refine kept_foldl ?_ ?_ _; intro _ _ _)

theorem State.bootForm_kept {s0 : State} (s : State) (layout conf : Nat) (h : Kept s0 s) : Kept s0 (State.bootForm s layout conf) :=
  ⟨h.queue, h.identity, fun i =>
    have j := h.inv i
    ⟨j.memory, layoutQuarters_legal _, by simp [State.bootForm, j.parts], j.windows, j.ports, j.halves⟩⟩

theorem State.bootChannels_kept {s0 : State} (s : State) (cold : Bool) (list final : Option (List (Nat × List Byte))) (hk : Kept s0 s) : Kept s0 (State.bootChannels s cold list final) := by
  unfold State.bootChannels
  try dsimp only
  repeat' first
    | with_reducible assumption
    | split
    | with_reducible apply Kept.update

/-- What stage 7 sets beside the partitions. -/
theorem Kept.booted {s0 t : State} {board : BoardConfig} {d : Bool} {ports : List Port} {off : List Nat} {ms : Nat} (hk : Kept s0 t)
    (hp : ports.length = min 20 t.ports.length) :
    Kept s0 { t with board := board, configDefault := d, ports := ports, stacksOff := off, ready := true, bootStage := 7, bootMs := ms,
                     boot := none, bootModule := none } :=
  ⟨hk.queue, hk.identity, fun i =>
    have j := hk.inv i
    ⟨j.memory, j.layout, j.parts, j.windows, by rw [hp, j.ports]; rfl, j.halves⟩⟩

theorem State.bootRun_kept {s0 : State} (s : State) (env : BootEnv) (ms : Nat) (hk : Kept s0 s) : Kept s0 (State.bootRun s env ms) := by
  unfold State.bootRun
  try dsimp only
  repeat' first
    | with_reducible assumption
    | with_reducible apply State.logAll_kept
    | with_reducible apply State.logQuarter_kept
    | with_reducible apply State.memEvent_kept
    | with_reducible apply State.updateSetPoints_kept
    | with_reducible apply State.retireArray_kept
    | with_reducible apply State.retireSlice_kept
    | with_reducible apply State.freeUncommitted_kept
    | with_reducible apply State.openPart_kept
    | with_reducible apply State.applyFuses_kept
    | with_reducible refine State.applyFuses_kept' (by assumption) ?_
    | with_reducible apply State.reloadRemaps_kept
    | with_reducible refine State.reloadRemaps_kept' (by assumption) ?_
    | with_reducible apply State.bootZero_kept
    | with_reducible apply State.bootForm_kept
    | with_reducible apply State.bootChannels_kept
    | (with_reducible refine kept_foldl ?_ ?_ _; intro _ _ _)
    | refine Kept.booted ?_ (by simp)
    | split

theorem State.ringDoorbell_kept {s0 : State} (s : State) (p ring : Nat) (data : Word) (hk : Kept s0 s) : Kept s0 (State.ringDoorbell s p ring data) := by
  unfold State.ringDoorbell
  try dsimp only
  repeat' first
    | with_reducible assumption
    | with_reducible apply State.modRing_kept
    | with_reducible apply State.flush_kept
    | with_reducible apply State.markRing_kept
    | split

theorem State.doorbell_kept {s0 : State} (s : State) (p ring : Nat) (data : Word) (hk : Kept s0 s) : Kept s0 (State.doorbell s p ring data) := by
  unfold State.doorbell
  try dsimp only
  repeat' first
    | with_reducible assumption
    | with_reducible apply State.markRing_kept
    | with_reducible apply State.bounceDoorbell_kept
    | with_reducible apply State.ringDoorbell_kept
    | split

theorem State.doorbellAccess_kept {s0 : State} (s : State) (quarter k : Nat) (data : Word) (hk : Kept s0 s) : Kept s0 (State.doorbellAccess s quarter k data) := by
  unfold State.doorbellAccess
  try dsimp only
  repeat' first
    | with_reducible assumption
    | with_reducible apply State.markRing_kept
    | with_reducible apply State.wake_kept
    | with_reducible apply State.doorbell_kept
    | split

theorem State.bankGrant_kept {s0 : State} (s : State) (p array w : Nat) (hk : Kept s0 s) : Kept s0 (State.bankGrant s p array w) := by
  unfold State.bankGrant
  try dsimp only
  repeat' first
    | with_reducible assumption
    | with_reducible apply State.modPart_kept
    | split
    | with_reducible apply Kept.update

theorem State.dropMsg_kept {s0 : State} (s : State) (i : Nat) (hk : Kept s0 s) : Kept s0 (State.dropMsg s i) := by
  unfold State.dropMsg
  try dsimp only
  repeat' first
    | with_reducible assumption
    | with_reducible apply State.modPort_kept

theorem State.receive_kept {s0 : State} (s : State) (i mtype : Nat) (m : Msg) (f : State → State)
    (hf : ∀ t, Kept s0 t → Kept s0 (f t)) (h : Kept s0 s) : Kept s0 (State.receive s i mtype m f) := by
  unfold State.receive
  dsimp only
  repeat' first
    | with_reducible assumption
    | with_reducible apply State.modPort_kept
    | with_reducible apply State.dropMsg_kept
    | with_reducible apply hf
    | split

theorem State.sendStale_kept {s0 : State} (s : State) (p : Nat) (m : Msg) (hk : Kept s0 s) : Kept s0 (State.sendStale s p m) := by
  unfold State.sendStale
  try dsimp only
  repeat' first
    | with_reducible assumption
    | with_reducible apply State.modPart_kept
    | with_reducible apply State.sendControl_kept
    | with_reducible refine State.sendControl_kept' (by assumption) ?_
    | split

theorem State.checked_kept {s0 : State} (s : State) (i p : Nat) (m : Msg) (exempt : Bool) (f : State → State)
    (hf : ∀ t, Kept s0 t → Kept s0 (f t)) (h : Kept s0 s) : Kept s0 (State.checked s i p m exempt f) := by
  unfold State.checked
  dsimp only
  repeat' first
    | with_reducible assumption
    | with_reducible apply State.modPart_kept
    | with_reducible apply State.dropMsg_kept
    | with_reducible apply State.sendStale_kept
    | with_reducible apply hf
    | split

theorem State.refuseAccess_kept {s0 : State} (s : State) (p : Nat) (m : Msg) (hk : Kept s0 s) : Kept s0 (State.refuseAccess s p m) := by
  unfold State.refuseAccess
  try dsimp only
  repeat' first
    | with_reducible assumption
    | with_reducible apply State.log_kept
    | split

theorem State.exchangeTo_kept {s0 : State} (s : State) (p : Nat) (x : ExchangeMsg) (ref : PacketRef) (hk : Kept s0 s) : Kept s0 (State.exchangeTo s p x ref) := by
  unfold State.exchangeTo
  try dsimp only
  repeat' first
    | with_reducible assumption
    | with_reducible apply State.landStore_kept
    | with_reducible apply State.goOn_kept
    | split

theorem State.exchangeArrived_kept {s0 : State} (s : State) (p : Nat) (x : ExchangeMsg) (hk : Kept s0 s) : Kept s0 (State.exchangeArrived s p x) := by
  unfold State.exchangeArrived
  try dsimp only
  repeat' first
    | with_reducible assumption
    | with_reducible apply State.exchangeTo_kept
    | (with_reducible refine kept_foldl ?_ ?_ _; intro _ _ _)

theorem State.ackWrite_kept {s0 : State} (s : State) (i p : Nat) (m : Msg) (key : Bool) (hk : Kept s0 s) : Kept s0 (State.ackWrite s i p m key) := by
  unfold State.ackWrite
  try dsimp only
  repeat' first
    | with_reducible assumption
    | with_reducible apply State.portSend_kept
    | with_reducible apply State.respond_kept
    | split

theorem State.landWrite_kept {s0 : State} (s : State) (i p : Nat) (m : Msg) (hk : Kept s0 s) : Kept s0 (State.landWrite s i p m) := by
  unfold State.landWrite
  try dsimp only
  repeat' first
    | with_reducible assumption
    | with_reducible apply State.modPart_kept
    | with_reducible apply State.storeAll_kept
    | with_reducible apply State.setPacket_kept
    | with_reducible apply State.refuseAccess_kept
    | with_reducible apply State.exchangeArrived_kept
    | with_reducible apply State.ackWrite_kept
    | split

theorem State.serveRead_kept {s0 : State} (s : State) (p : Nat) (m : Msg) (hk : Kept s0 s) : Kept s0 (State.serveRead s p m) := by
  unfold State.serveRead
  try dsimp only
  repeat' first
    | with_reducible assumption
    | with_reducible apply State.readCw_kept
    | with_reducible apply State.respond_kept
    | with_reducible apply State.refuseAccess_kept
    | (with_reducible refine kept_foldl ?_ ?_ _; intro _ _ _)
    | split

theorem State.sendHeld_kept {s0 : State} (s : State) (h : BridgeHeld) (hk : Kept s0 s) : Kept s0 (State.sendHeld s h) := by
  unfold State.sendHeld
  try dsimp only
  repeat' first
    | with_reducible assumption
    | with_reducible apply State.emit_kept
    | with_reducible apply State.send_kept
    | with_reducible refine State.send_kept' (by assumption) ?_
    | split
    | with_reducible apply Kept.update

theorem State.releaseHeld_kept {s0 : State} (s : State) (hk : Kept s0 s) : Kept s0 (State.releaseHeld s) := by
  unfold State.releaseHeld
  try dsimp only
  repeat' first
    | with_reducible assumption
    | with_reducible apply State.sendHeld_kept
    | (with_reducible refine kept_foldl ?_ ?_ _; intro _ _ _)
    | split
    | with_reducible apply Kept.update

theorem State.hostData_kept {s0 : State} (s : State) (fn : Nat) (bytes : List Byte) (map : Nat) (hk : Kept s0 s) : Kept s0 (State.hostData s fn bytes map) := by
  unfold State.hostData
  try dsimp only
  repeat' first
    | with_reducible assumption
    | with_reducible apply State.emit_kept

theorem State.serveAtomic_kept {s0 : State} (s : State) (p : Nat) (m : Msg) (hk : Kept s0 s) : Kept s0 (State.serveAtomic s p m) := by
  unfold State.serveAtomic
  try dsimp only
  repeat' first
    | with_reducible assumption
    | with_reducible apply State.respond_kept
    | with_reducible apply State.atomicElt_kept
    | with_reducible refine State.atomicElt_kept' (by assumption) ?_
    | with_reducible apply State.refuseAccess_kept
    | (with_reducible refine kept_foldl_fst ?_ ?_ _; intro _ _ _)
    | split

theorem State.keepEarly_kept {s0 : State} (s : State) (p : Nat) (m : Msg) (c : Control) (hk : Kept s0 s) : Kept s0 (State.keepEarly s p m c) := by
  unfold State.keepEarly
  try dsimp only
  repeat' first
    | with_reducible assumption
    | with_reducible apply State.modPart_kept

theorem State.controlArrived_kept {s0 : State} (s : State) (p : Nat) (m : Msg) (c : Control) (hk : Kept s0 s) : Kept s0 (State.controlArrived s p m c) := by
  unfold State.controlArrived
  try dsimp only
  repeat' first
    | with_reducible assumption
    | with_reducible apply State.setPacket_kept
    | with_reducible apply State.lateness_kept
    | with_reducible apply State.landDone_kept
    | with_reducible apply State.goOn_kept
    | with_reducible apply State.keepEarly_kept
    | split

theorem State.control_kept {s0 : State} (s : State) (i kind : Nat) (m : Msg) (f : Control → State → State)
    (hf : ∀ c t, Kept s0 t → Kept s0 (f c t)) (h : Kept s0 s) : Kept s0 (State.control s i kind m f) := by
  unfold State.control
  dsimp only
  split
  · exact h
  · exact State.receive_kept s i _ m _ (hf _) h

theorem State.collective_kept {s0 : State} (s : State) (i kind : Nat) (m : Msg) (h : Kept s0 s) : Kept s0 (State.collective s i kind m) := by
  unfold State.collective
  refine State.control_kept s i kind m _ (fun c t ht => ?_) h
  exact State.checked_kept t i _ m _ _ (fun u hu => State.controlArrived_kept u _ m c hu) ht

theorem State.quarantine_kept {s0 : State} (s : State) (p : Nat) (m : Msg) (c : Control) (hk : Kept s0 s) : Kept s0 (State.quarantine s p m c) := by
  unfold State.quarantine
  try dsimp only
  repeat' first
    | with_reducible assumption
    | with_reducible apply State.modPart_kept
    | with_reducible apply State.setSummary_kept
    | with_reducible apply State.log_kept
    | with_reducible apply State.endAwaiting_kept
    | with_reducible refine State.endAwaiting_kept' (by assumption) ?_
    | split

theorem State.setScrubber_kept {s0 : State} (s : State) (x : Scrubber) (hk : Kept s0 s) : Kept s0 (State.setScrubber s x) := by
  unfold State.setScrubber
  try dsimp only
  repeat' first
    | with_reducible assumption
    | split
    | with_reducible apply Kept.update

theorem State.refreshSlow_kept {s0 : State} (s : State) (h : Kept s0 s) : Kept s0 (State.refreshSlow s) := by
  unfold State.refreshSlow
  repeat' first
    | with_reducible assumption
    | with_reducible apply Kept.update
    | split
    | exact Kept.same h rfl rfl rfl rfl rfl rfl (by simp) rfl

theorem State.badAccess_kept {s0 : State} (s : State) (win : Nat) (path : Path) (write : Bool) (offset : Nat) (hk : Kept s0 s) : Kept s0 (State.badAccess s win path write offset) := by
  unfold State.badAccess
  try dsimp only
  repeat' first
    | with_reducible assumption
    | with_reducible apply State.modWindow_kept

theorem State.readClears_kept {s0 : State} (s : State) (win offset : Nat) (hk : Kept s0 s) : Kept s0 (State.readClears s win offset) := by
  unfold State.readClears
  try dsimp only
  repeat' first
    | with_reducible assumption
    | with_reducible apply State.modWindow_kept
    | with_reducible apply State.modPort_kept
    | split

theorem State.regRead_kept {s0 : State} (s : State) (path : Path) (win offset size : Nat) (hk : Kept s0 s) : Kept s0 (State.regRead s path win offset size).1 := by
  unfold State.regRead
  try dsimp only
  repeat' first
    | with_reducible assumption
    | with_reducible apply State.badAccess_kept
    | with_reducible apply State.readClears_kept
    | split

theorem State.regRead_kept' {s0 t : State} {s : State} {path : Path} {win offset size : Nat} {x : List Byte} (heq0 : (State.regRead s path win offset size) = (t, x)) (hk : Kept s0 s) : Kept s0 t := by
  have h1 := State.regRead_kept s path win offset size hk
  rwa [heq0] at h1

theorem State.askStream_kept' {s0 t : State} {s : State} {p : Nat} {cls : StreamClass} (e : (State.askStream s p cls) = some t) (hk : Kept s0 s) : Kept s0 t := by
  unfold State.askStream at e
  try dsimp only at e
  repeat' split at e
  all_goals first
    | (exfalso; simp at e; done)
    | skip
  all_goals simp only [Option.some.injEq] at e
  all_goals first
    | (obtain ⟨rfl, _⟩ := e)
  repeat' first
    | with_reducible assumption
    | with_reducible apply State.streamReset_kept

theorem State.askPartition_kept' {s0 t : State} {s : State} {p : Nat} (e : (State.askPartition s p) = some t) (hk : Kept s0 s) : Kept s0 t := by
  unfold State.askPartition at e
  try dsimp only at e
  repeat' split at e
  all_goals first
    | (exfalso; simp at e; done)
    | skip
  all_goals simp only [Option.some.injEq] at e
  all_goals first
    | (obtain ⟨rfl, _⟩ := e)
  repeat' first
    | with_reducible assumption
    | with_reducible apply State.partitionReset_kept

theorem State.askModule_kept' {s0 t : State} {s : State} (e : (State.askModule s) = some t) (hk : Kept s0 s) : Kept s0 t := by
  unfold State.askModule at e
  try dsimp only at e
  repeat' split at e
  all_goals first
    | (exfalso; simp at e; done)
    | skip
  all_goals simp only [Option.some.injEq] at e
  all_goals first
    | (obtain ⟨rfl, _⟩ := e)
  repeat' first
    | with_reducible assumption
    | with_reducible apply State.moduleReset_kept

theorem State.resetRequest_kept' {s0 t : State} {s : State} {win v : Nat} (e : State.resetRequest s win v = some t) (h : Kept s0 s) :
    Kept s0 t := by
  unfold State.resetRequest at e
  split at e
  · simp at e
  · split at e
    · simp only [Option.bind_eq_some_iff] at e
      obtain ⟨c, _, e⟩ := e
      exact State.askStream_kept' e h
    · exact State.askPartition_kept' e h
    · exact State.askModule_kept' e h
    · simp at e

theorem State.regPut_kept {s0 : State} (s : State) (path : Path) (win offset : Nat) (v : Word) (hk : Kept s0 s) : Kept s0 (State.regPut s path win offset v) := by
  unfold State.regPut
  try dsimp only
  repeat' first
    | with_reducible assumption
    | with_reducible apply State.modWindow_kept
    | with_reducible apply State.doorbellAccess_kept
    | with_reducible apply State.badAccess_kept
    | with_reducible apply State.resetRequest_kept
    | with_reducible refine State.resetRequest_kept' (by assumption) ?_
    | (with_reducible refine kept_getD ?_ ?_; intro _ _)
    | split

theorem State.regWrite_kept {s0 : State} (s : State) (path : Path) (win offset size : Nat) (v : Word) (hk : Kept s0 s) : Kept s0 (State.regWrite s path win offset size v) := by
  unfold State.regWrite
  try dsimp only
  repeat' first
    | with_reducible assumption
    | with_reducible apply State.badAccess_kept
    | with_reducible apply State.regPut_kept
    | split

theorem State.setMsix_kept {s0 : State} (s : State) (fn vector : Nat) (e : Word × BitVec 32 × Bool) (hk : Kept s0 s) : Kept s0 (State.setMsix s fn vector e) := by
  unfold State.setMsix
  try dsimp only
  repeat' first
    | with_reducible assumption
    | with_reducible apply State.emit_kept
    | split
    | with_reducible apply Kept.update

theorem State.bar0Read_kept {s0 : State} (s : State) (fn unit offset size : Nat) (hk : Kept s0 s) : Kept s0 (State.bar0Read s fn unit offset size).1 := by
  unfold State.bar0Read
  try dsimp only
  repeat' first
    | with_reducible assumption
    | with_reducible apply State.badAccess_kept
    | split

theorem State.bar0Read_kept' {s0 t : State} {s : State} {fn unit offset size : Nat} {x : List Byte} (heq0 : (State.bar0Read s fn unit offset size) = (t, x)) (hk : Kept s0 s) : Kept s0 t := by
  have h1 := State.bar0Read_kept s fn unit offset size hk
  rwa [heq0] at h1

theorem State.bar0Write_kept {s0 : State} (s : State) (fn unit offset size v : Nat) (hk : Kept s0 s) : Kept s0 (State.bar0Write s fn unit offset size v) := by
  unfold State.bar0Write
  try dsimp only
  repeat' first
    | with_reducible assumption
    | with_reducible apply State.badAccess_kept
    | with_reducible apply State.setMsix_kept
    | split

theorem State.answer_kept {s0 : State} (s : State) (path : Path) (r : State × List Byte) (hs : Kept s0 s) (h : Kept s0 r.1) :
    Kept s0 (State.answer s path r) := by
  unfold State.answer
  repeat' first
    | with_reducible assumption
    | with_reducible apply State.emit_kept
    | split

theorem State.readBeyond_kept {s0 : State} (s : State) (path : Path) (win size : Nat) (hk : Kept s0 s) : Kept s0 (State.readBeyond s path win size) := by
  unfold State.readBeyond
  try dsimp only
  repeat' first
    | with_reducible assumption
    | with_reducible apply State.answer_kept
    | split

theorem State.wideItem_kept' {s0 t : State} {s : State} {win item index : Nat} {clear : Bool} {x : Nat × Nat} (e : (State.wideItem s win item index clear) = some (t, x)) (hk : Kept s0 s) : Kept s0 t := by
  unfold State.wideItem at e
  try dsimp only at e
  repeat' split at e
  all_goals first
    | (exfalso; simp at e; done)
    | skip
  all_goals simp only [Option.some.injEq] at e
  all_goals first
    | (obtain ⟨rfl, _⟩ := e)
  repeat' first
    | with_reducible assumption
    | with_reducible apply State.modPart_kept
    | with_reducible apply State.modPort_kept

theorem State.resetBy_kept {s0 : State} (s : State) (path : Path) (win v : Nat) (hk : Kept s0 s) : Kept s0 (State.resetBy s path win v) := by
  unfold State.resetBy
  try dsimp only
  repeat' first
    | with_reducible assumption
    | with_reducible apply State.regWrite_kept
    | split

theorem State.serveReg_kept {s0 : State} (s : State) (m : Msg) (hk : Kept s0 s) : Kept s0 (State.serveReg s m) := by
  unfold State.serveReg
  try dsimp only
  repeat' first
    | with_reducible assumption
    | with_reducible apply State.respond_kept
    | with_reducible apply State.badAccess_kept
    | with_reducible apply State.regRead_kept
    | with_reducible refine State.regRead_kept' (by assumption) ?_
    | with_reducible apply State.regWrite_kept
    | split

theorem State.logRefused_kept {s0 : State} (s : State) (fn member bar : Nat) (hk : Kept s0 s) : Kept s0 (State.logRefused s fn member bar) := by
  unfold State.logRefused
  try dsimp only
  repeat' first
    | with_reducible assumption
    | with_reducible apply State.log_kept
    | with_reducible apply State.bridgeEvent_kept

theorem State.bridgeSend_kept {s0 : State} (s : State) (fn member dst mtype addr len : Nat) (data : List Byte) (hk : Kept s0 s) : Kept s0 (State.bridgeSend s fn member dst mtype addr len data) := by
  unfold State.bridgeSend
  try dsimp only
  repeat' first
    | with_reducible assumption
    | with_reducible apply State.releaseHeld_kept
    | split
    | with_reducible apply Kept.update

theorem State.bar2_kept {s0 : State} (s : State) (fn g q off size : Nat) (write : Option Word) (hk : Kept s0 s) : Kept s0 (State.bar2 s fn g q off size write) := by
  unfold State.bar2
  try dsimp only
  repeat' first
    | with_reducible assumption
    | with_reducible apply State.emit_kept
    | with_reducible apply State.regRead_kept
    | with_reducible refine State.regRead_kept' (by assumption) ?_
    | with_reducible apply State.regWrite_kept
    | with_reducible apply State.bridgeSend_kept
    | split

theorem State.refuseAperture_kept {s0 : State} (s : State) (fn member : Nat) (op : ApertureOp) (hk : Kept s0 s) : Kept s0 (State.refuseAperture s fn member op) := by
  unfold State.refuseAperture
  try dsimp only
  repeat' first
    | with_reducible assumption
    | with_reducible apply State.emit_kept
    | with_reducible apply State.logRefused_kept
    | split

theorem State.apertureHere_kept {s0 : State} (s : State) (fn g a : Nat) (op : ApertureOp) (hk : Kept s0 s) : Kept s0 (State.apertureHere s fn g a op) := by
  unfold State.apertureHere
  try dsimp only
  repeat' first
    | with_reducible assumption
    | with_reducible apply State.emit_kept
    | with_reducible apply State.readCw_kept
    | with_reducible apply State.store_kept
    | with_reducible apply State.hostData_kept
    | with_reducible apply State.refuseAperture_kept
    | (with_reducible refine kept_foldl ?_ ?_ _; intro _ _ _)
    | split

theorem State.apertureThere_kept {s0 : State} (s : State) (fn g dst ga : Nat) (op : ApertureOp) (hk : Kept s0 s) : Kept s0 (State.apertureThere s fn g dst ga op) := by
  unfold State.apertureThere
  try dsimp only
  repeat' first
    | with_reducible assumption
    | with_reducible apply State.send_kept
    | with_reducible refine State.send_kept' (by assumption) ?_
    | with_reducible apply State.bridgeSend_kept
    | split
    | with_reducible apply Kept.update

theorem State.readTimedOut_kept {s0 : State} (s : State) (fn member bytes : Nat) (hk : Kept s0 s) : Kept s0 (State.readTimedOut s fn member bytes) := by
  unfold State.readTimedOut
  try dsimp only
  repeat' first
    | with_reducible assumption
    | with_reducible apply State.emit_kept
    | with_reducible apply State.log_kept
    | with_reducible apply State.bridgeEvent_kept

theorem idle_kept {s0 : State} (s : State) (hk : Kept s0 s) : Kept s0 (idle s) := by
  unfold idle
  try dsimp only
  repeat' first
    | with_reducible assumption
    | with_reducible apply State.idlePort_kept
    | with_reducible apply State.moveFlits_kept
    | with_reducible apply State.refreshSlow_kept
    | (with_reducible refine kept_foldl ?_ ?_ _; intro _ _ _)
    | split
    | with_reducible apply Kept.update

theorem State.modHalf_kept {s0 : State} (s : State) (i : Nat) (f : Half → Half) (h : Kept s0 s) : Kept s0 (s.modHalf i f) :=
  Kept.same h rfl rfl rfl rfl rfl rfl rfl (by simp [State.modHalf])

theorem State.trip_kept {s0 : State} (s : State) (hk : Kept s0 s) : Kept s0 (State.trip s) := by
  unfold State.trip
  try dsimp only
  repeat' first
    | with_reducible assumption
    | with_reducible apply State.portDown_kept
    | with_reducible apply State.dropHalf_kept
    | (with_reducible refine kept_foldl ?_ ?_ _; intro _ _ _)
    | split
    | with_reducible apply Kept.update

theorem State.goFatal_kept {s0 : State} (s : State) (bit : Nat) (hk : Kept s0 s) : Kept s0 (State.goFatal s bit) := by
  unfold State.goFatal
  try dsimp only
  repeat' first
    | with_reducible assumption
    | with_reducible apply State.setDeviceSummary_kept
    | split
    | with_reducible apply Kept.update

theorem State.stopPackets_kept {s0 : State} (s : State) (uses : Packet → Bool) (hk : Kept s0 s) : Kept s0 (State.stopPackets s uses) := by
  unfold State.stopPackets
  try dsimp only
  repeat' first
    | with_reducible assumption
    | with_reducible apply State.stopPacket_kept
    | (with_reducible refine kept_foldl ?_ ?_ _; intro _ _ _)

theorem State.stopClock_kept {s0 : State} (s : State) (clock : Nat) (hk : Kept s0 s) : Kept s0 (State.stopClock s clock) := by
  unfold State.stopClock
  try dsimp only
  repeat' first
    | with_reducible assumption
    | with_reducible apply State.endpointReset_kept
    | with_reducible apply State.dropHalf_kept
    | with_reducible apply State.portDown_kept
    | with_reducible apply State.stopPackets_kept
    | split

theorem State.logClock_kept {s0 : State} (s : State) (clock : Nat) (hk : Kept s0 s) : Kept s0 (State.logClock s clock) := by
  unfold State.logClock
  try dsimp only
  repeat' first
    | with_reducible assumption
    | with_reducible apply State.log_kept
    | with_reducible apply State.logAll_kept
    | with_reducible apply State.logQuarter_kept
    | (with_reducible refine kept_foldl ?_ ?_ _; intro _ _ _)
    | split

theorem State.powerOffHalf_kept {s0 : State} (s : State) (h : Nat) (hk : Kept s0 s) : Kept s0 (State.powerOffHalf s h) := by
  unfold State.powerOffHalf
  try dsimp only
  repeat' first
    | with_reducible assumption
    | with_reducible apply State.clearCrossings_kept
    | with_reducible apply State.drainCrossings_kept
    | split
    | with_reducible apply Kept.update

theorem State.wakeMemory_kept {s0 : State} (s : State) (p : Nat) (hk : Kept s0 s) : Kept s0 (State.wakeMemory s p) := by
  unfold State.wakeMemory
  try dsimp only
  repeat' first
    | with_reducible assumption
    | with_reducible apply State.addPoison_kept
    | with_reducible apply State.zeroRange_kept
    | (with_reducible refine kept_foldl ?_ ?_ _; intro _ _ _)

theorem State.blockWrite_kept {s0 : State} (s : State) (pecOk : Bool) (payload : List Byte) (count : Nat) (f : State → State)
    (hf : ∀ t, Kept s0 t → Kept s0 (f t)) (h : Kept s0 s) : Kept s0 (State.blockWrite s pecOk payload count f) := by
  unfold State.blockWrite
  repeat' first
    | with_reducible assumption
    | with_reducible apply State.emit_kept
    | with_reducible apply hf
    | split

theorem State.smbusRead_kept {s0 : State} (s : State) (hk : Kept s0 s) : Kept s0 (State.smbusRead s).1 := by
  unfold State.smbusRead
  try dsimp only
  repeat' first
    | with_reducible assumption
    | with_reducible apply State.regRead_kept
    | with_reducible refine State.regRead_kept' (by assumption) ?_
    | split

theorem State.smbusRead_kept' {s0 t : State} {s : State} {x : Nat × List Byte} (heq0 : (State.smbusRead s) = (t, x)) (hk : Kept s0 s) : Kept s0 t := by
  have h1 := State.smbusRead_kept s hk
  rwa [heq0] at h1

theorem State.uartRefuse_kept {s0 : State} (s : State) (reason : Nat) (hk : Kept s0 s) : Kept s0 (State.uartRefuse s reason) := by
  unfold State.uartRefuse
  try dsimp only
  repeat' first
    | with_reducible assumption
    | with_reducible apply State.emit_kept

theorem State.unlockScrub_kept {s0 : State} (s : State) (hk : Kept s0 s) : Kept s0 (State.unlockScrub s) := by
  unfold State.unlockScrub
  try dsimp only
  repeat' first
    | with_reducible assumption
    | with_reducible apply State.openPart_kept
    | with_reducible apply State.scrubPart_kept
    | (with_reducible refine kept_foldl ?_ ?_ _; intro _ _ _)

theorem State.unlockAsked_kept {s0 : State} (s : State) (hk : Kept s0 s) : Kept s0 (State.unlockAsked s) := by
  unfold State.unlockAsked
  try dsimp only
  repeat' first
    | with_reducible assumption
    | with_reducible apply State.emit_kept
    | with_reducible apply State.drew_kept
    | with_reducible apply State.uartRefuse_kept
    | split
    | with_reducible apply Kept.update

theorem State.unlockAnswered_kept {s0 : State} (s : State) (sig : List Byte) (hk : Kept s0 s) : Kept s0 (State.unlockAnswered s sig) := by
  unfold State.unlockAnswered
  try dsimp only
  repeat' first
    | with_reducible assumption
    | with_reducible apply State.emit_kept
    | with_reducible apply State.uartRefuse_kept
    | with_reducible apply State.unlockScrub_kept
    | split
    | with_reducible apply Kept.update

theorem State.uartArrives_kept {s0 : State} (s : State) (frame : List Byte) (hk : Kept s0 s) : Kept s0 (State.uartArrives s frame) := by
  unfold State.uartArrives
  try dsimp only
  repeat' first
    | with_reducible assumption
    | with_reducible apply State.uartRefuse_kept
    | with_reducible apply State.unlockAsked_kept
    | with_reducible apply State.unlockAnswered_kept
    | split

end Sys2Proof.Machine
end

