-- ==== Sys2Proof/Laws/KeptCommands.lean ====
section
/-! SUPPORT. What the commands leave alone (see Laws/Kept.lean): one lemma for each meaning. -/

namespace Sys2Proof.Machine

theorem execWatchRead_kept {s t : State} {p : PacketRef} (e : execWatchRead p s = .next t) : Kept s t := by
  have hk := Kept.refl s
  unfold execWatchRead at e
  all_goals simp only [Host.Outcome.next.injEq] at e
  all_goals subst e
  repeat' first
    | with_reducible assumption
    | intro _
    | with_reducible apply runThen_kept
    | with_reducible apply Ctx.watchReadClear_kept

theorem execLayerScaleSet_kept {s t : State} {p : PacketRef} (e : execLayerScaleSet p s = .next t) : Kept s t := by
  have hk := Kept.refl s
  unfold execLayerScaleSet at e
  all_goals simp only [Host.Outcome.next.injEq] at e
  all_goals subst e
  repeat' first
    | with_reducible assumption
    | intro _
    | with_reducible apply runOpcode_kept

theorem execLayerScaleUnbind_kept {s t : State} {p : PacketRef} (e : execLayerScaleUnbind p s = .next t) : Kept s t := by
  have hk := Kept.refl s
  unfold execLayerScaleUnbind at e
  all_goals simp only [Host.Outcome.next.injEq] at e
  all_goals subst e
  repeat' first
    | with_reducible assumption
    | intro _
    | with_reducible apply runOpcode_kept

theorem execEmulateSet_kept {s t : State} {p : PacketRef} (e : execEmulateSet p s = .next t) : Kept s t := by
  have hk := Kept.refl s
  unfold execEmulateSet at e
  all_goals simp only [Host.Outcome.next.injEq] at e
  all_goals subst e
  repeat' first
    | with_reducible assumption
    | intro _
    | with_reducible apply runOpcode_kept

theorem execConfigSet_kept {s t : State} {p : PacketRef} (e : execConfigSet p s = .next t) : Kept s t := by
  have hk := Kept.refl s
  unfold execConfigSet at e
  all_goals simp only [Host.Outcome.next.injEq] at e
  all_goals subst e
  repeat' first
    | with_reducible assumption
    | intro _
    | with_reducible apply runThen_kept
    | with_reducible apply Ctx.configSetEff_kept

theorem execQuiesceRequest_kept {s t : State} {p : PacketRef} (e : execQuiesceRequest p s = .next t) : Kept s t := by
  have hk := Kept.refl s
  unfold execQuiesceRequest at e
  all_goals simp only [Host.Outcome.next.injEq] at e
  all_goals subst e
  repeat' first
    | with_reducible assumption
    | intro _
    | with_reducible apply runThen_kept
    | with_reducible apply Ctx.configSetEff_kept

theorem execStandbyRequest_kept {s t : State} {p : PacketRef} (e : execStandbyRequest p s = .next t) : Kept s t := by
  have hk := Kept.refl s
  unfold execStandbyRequest at e
  all_goals simp only [Host.Outcome.next.injEq] at e
  all_goals subst e
  repeat' first
    | with_reducible assumption
    | intro _
    | with_reducible apply runThen_kept
    | with_reducible apply Ctx.configSetEff_kept

theorem execActiveRequest_kept {s t : State} {p : PacketRef} (e : execActiveRequest p s = .next t) : Kept s t := by
  have hk := Kept.refl s
  unfold execActiveRequest at e
  all_goals simp only [Host.Outcome.next.injEq] at e
  all_goals subst e
  repeat' first
    | with_reducible assumption
    | intro _
    | with_reducible apply runThen_kept
    | with_reducible apply Ctx.configSetEff_kept

theorem execPoolResize_kept {s t : State} {p : PacketRef} (e : execPoolResize p s = .next t) : Kept s t := by
  have hk := Kept.refl s
  unfold execPoolResize at e
  try dsimp only at e
  repeat' split at e
  all_goals simp only [Host.Outcome.next.injEq] at e
  all_goals subst e
  repeat' first
    | with_reducible assumption
    | intro _
    | with_reducible apply State.setPacket_kept
    | with_reducible apply runThen_kept
    | with_reducible apply Ctx.configSetEff_kept

theorem execConfigGet_kept {s t : State} {p : PacketRef} (e : execConfigGet p s = .next t) : Kept s t := by
  have hk := Kept.refl s
  unfold execConfigGet at e
  all_goals simp only [Host.Outcome.next.injEq] at e
  all_goals subst e
  repeat' first
    | with_reducible assumption
    | intro _
    | with_reducible apply runOpcode_kept

theorem execRingBind_kept {s t : State} {p : PacketRef} (e : execRingBind p s = .next t) : Kept s t := by
  have hk := Kept.refl s
  unfold execRingBind at e
  all_goals simp only [Host.Outcome.next.injEq] at e
  all_goals subst e
  repeat' first
    | with_reducible assumption
    | intro _
    | with_reducible apply ringBindStep_kept

theorem execRingUnbind_kept {s t : State} {p : PacketRef} (e : execRingUnbind p s = .next t) : Kept s t := by
  have hk := Kept.refl s
  unfold execRingUnbind at e
  all_goals simp only [Host.Outcome.next.injEq] at e
  all_goals subst e
  repeat' first
    | with_reducible assumption
    | intro _
    | with_reducible apply ringBindStep_kept

theorem execRingRebindApply_kept {s t : State} {p : PacketRef} (e : execRingRebindApply p s = .next t) : Kept s t := by
  have hk := Kept.refl s
  unfold execRingRebindApply at e
  try dsimp only at e
  repeat' split at e
  all_goals simp only [Host.Outcome.next.injEq] at e
  all_goals subst e
  repeat' first
    | with_reducible assumption
    | intro _
    | with_reducible apply State.modRing_kept
    | with_reducible apply State.finish_kept

theorem execGangForm_kept {s t : State} {p : PacketRef} (e : execGangForm p s = .next t) : Kept s t := by
  have hk := Kept.refl s
  unfold execGangForm at e
  all_goals simp only [Host.Outcome.next.injEq] at e
  all_goals subst e
  repeat' first
    | with_reducible assumption
    | intro _
    | with_reducible apply runOpcode_kept

theorem execGangDissolve_kept {s t : State} {p : PacketRef} (e : execGangDissolve p s = .next t) : Kept s t := by
  have hk := Kept.refl s
  unfold execGangDissolve at e
  all_goals simp only [Host.Outcome.next.injEq] at e
  all_goals subst e
  repeat' first
    | with_reducible assumption
    | intro _
    | with_reducible apply runOpcode_kept

theorem execAttest_kept {s t : State} {p : PacketRef} (e : execAttest p s = .next t) : Kept s t := by
  have hk := Kept.refl s
  unfold execAttest at e
  all_goals simp only [Host.Outcome.next.injEq] at e
  all_goals subst e
  repeat' first
    | with_reducible assumption
    | intro _
    | with_reducible apply State.modPart_kept
    | with_reducible apply runThen_kept
    | with_reducible apply State.drew_kept

theorem execHostGen_kept {s t : State} {p : PacketRef} (e : execHostGen p s = .next t) : Kept s t := by
  have hk := Kept.refl s
  unfold execHostGen at e
  all_goals simp only [Host.Outcome.next.injEq] at e
  all_goals subst e
  repeat' first
    | with_reducible assumption
    | intro _
    | with_reducible apply State.modPart_kept
    | with_reducible apply runThen_kept
    | with_reducible apply State.drew_kept

theorem execHostAccept_kept {s t : State} {p : PacketRef} (e : execHostAccept p s = .next t) : Kept s t := by
  have hk := Kept.refl s
  unfold execHostAccept at e
  try dsimp only at e
  all_goals simp only [Host.Outcome.next.injEq] at e
  all_goals subst e
  repeat' first
    | with_reducible assumption
    | intro _
    | with_reducible apply State.modPart_kept
    | with_reducible apply runThen_kept
    | split

theorem execClearHost_kept {s t : State} {p : PacketRef} (e : execClearHost p s = .next t) : Kept s t := by
  have hk := Kept.refl s
  unfold execClearHost at e
  all_goals simp only [Host.Outcome.next.injEq] at e
  all_goals subst e
  repeat' first
    | with_reducible assumption
    | intro _
    | with_reducible apply State.modPart_kept
    | with_reducible apply runThen_kept

theorem execKeyExchangePort_kept {s t : State} {p : PacketRef} (e : execKeyExchangePort p s = .next t) : Kept s t := by
  have hk := Kept.refl s
  unfold execKeyExchangePort at e
  try dsimp only at e
  repeat' split at e
  all_goals simp only [Host.Outcome.next.injEq] at e
  all_goals subst e
  repeat' first
    | with_reducible assumption
    | intro _
    | with_reducible apply State.setPacket_kept
    | with_reducible apply State.endPacket_kept
    | with_reducible apply State.keyControl_kept
    | with_reducible refine State.keyControl_kept' (by assumption) ?_
    | with_reducible apply State.keyAdvance_kept

theorem execClearPort_kept {s t : State} {p : PacketRef} (e : execClearPort p s = .next t) : Kept s t := by
  have hk := Kept.refl s
  unfold execClearPort at e
  try dsimp only at e
  repeat' split at e
  all_goals simp only [Host.Outcome.next.injEq] at e
  all_goals subst e
  repeat' first
    | with_reducible assumption
    | intro _
    | with_reducible apply State.setPacket_kept
    | with_reducible apply State.finish_kept
    | with_reducible apply State.modPort_kept
    | with_reducible apply State.switchPort_kept

theorem execDress_kept {s t : State} {p : PacketRef} (e : execDress p s = .next t) : Kept s t := by
  have hk := Kept.refl s
  unfold execDress at e
  all_goals simp only [Host.Outcome.next.injEq] at e
  all_goals subst e
  repeat' first
    | with_reducible assumption
    | intro _
    | with_reducible apply runOpcode_kept

theorem execCopyTensor_kept {s t : State} {p : PacketRef} (e : execCopyTensor p s = .next t) : Kept s t := by
  have hk := Kept.refl s
  unfold execCopyTensor at e
  all_goals simp only [Host.Outcome.next.injEq] at e
  all_goals subst e
  repeat' first
    | with_reducible assumption
    | intro _
    | with_reducible apply runOpcode_kept

theorem execWindowExpand_kept {s t : State} {p : PacketRef} (e : execWindowExpand p s = .next t) : Kept s t := by
  have hk := Kept.refl s
  unfold execWindowExpand at e
  all_goals simp only [Host.Outcome.next.injEq] at e
  all_goals subst e
  repeat' first
    | with_reducible assumption
    | intro _
    | with_reducible apply runOpcode_kept

theorem execEltwise_kept {s t : State} {p : PacketRef} (e : execEltwise p s = .next t) : Kept s t := by
  have hk := Kept.refl s
  unfold execEltwise at e
  all_goals simp only [Host.Outcome.next.injEq] at e
  all_goals subst e
  repeat' first
    | with_reducible assumption
    | intro _
    | with_reducible apply runOpcode_kept

theorem execReduceDim_kept {s t : State} {p : PacketRef} (e : execReduceDim p s = .next t) : Kept s t := by
  have hk := Kept.refl s
  unfold execReduceDim at e
  all_goals simp only [Host.Outcome.next.injEq] at e
  all_goals subst e
  repeat' first
    | with_reducible assumption
    | intro _
    | with_reducible apply runOpcode_kept

theorem execQuantize_kept {s t : State} {p : PacketRef} (e : execQuantize p s = .next t) : Kept s t := by
  have hk := Kept.refl s
  unfold execQuantize at e
  all_goals simp only [Host.Outcome.next.injEq] at e
  all_goals subst e
  repeat' first
    | with_reducible assumption
    | intro _
    | with_reducible apply runOpcode_kept

theorem execSoftmaxBwd_kept {s t : State} {p : PacketRef} (e : execSoftmaxBwd p s = .next t) : Kept s t := by
  have hk := Kept.refl s
  unfold execSoftmaxBwd at e
  all_goals simp only [Host.Outcome.next.injEq] at e
  all_goals subst e
  repeat' first
    | with_reducible assumption
    | intro _
    | with_reducible apply runOpcode_kept

theorem execNormBwd_kept {s t : State} {p : PacketRef} (e : execNormBwd p s = .next t) : Kept s t := by
  have hk := Kept.refl s
  unfold execNormBwd at e
  all_goals simp only [Host.Outcome.next.injEq] at e
  all_goals subst e
  repeat' first
    | with_reducible assumption
    | intro _
    | with_reducible apply runOpcode_kept

theorem execRoute_kept {s t : State} {p : PacketRef} (e : execRoute p s = .next t) : Kept s t := by
  have hk := Kept.refl s
  unfold execRoute at e
  try dsimp only at e
  repeat' split at e
  all_goals simp only [Host.Outcome.next.injEq] at e
  all_goals subst e
  repeat' first
    | with_reducible assumption
    | intro _
    | with_reducible apply State.setPacket_kept
    | with_reducible apply State.finish_kept
    | with_reducible apply State.begin_kept
    | with_reducible apply State.sendMembers_kept
    | with_reducible refine State.sendMembers_kept' (by assumption) ?_
    | with_reducible apply State.routeNext_kept
    | with_reducible refine State.routeNext_kept' (by assumption) ?_
    | (with_reducible refine kept_getD ?_ ?_; intro _ _)

theorem execDispatchRows_kept {s t : State} {p : PacketRef} (e : execDispatchRows p s = .next t) : Kept s t := by
  have hk := Kept.refl s
  unfold execDispatchRows at e
  try dsimp only at e
  repeat' split at e
  all_goals simp only [Host.Outcome.next.injEq] at e
  all_goals subst e
  repeat' first
    | with_reducible assumption
    | intro _
    | with_reducible apply State.modPart_kept
    | with_reducible apply State.finish_kept
    | with_reducible apply State.begin_kept
    | with_reducible apply State.sendMembers_kept
    | with_reducible refine State.sendMembers_kept' (by assumption) ?_
    | with_reducible apply State.landStore_kept

theorem execDispatchCompact_kept {s t : State} {p : PacketRef} (e : execDispatchCompact p s = .next t) : Kept s t := by
  have hk := Kept.refl s
  unfold execDispatchCompact at e
  try dsimp only at e
  repeat' split at e
  all_goals simp only [Host.Outcome.next.injEq] at e
  all_goals subst e
  repeat' first
    | with_reducible assumption
    | intro _
    | with_reducible apply State.compact_kept

theorem execCombineRows_kept {s t : State} {p : PacketRef} (e : execCombineRows p s = .next t) : Kept s t := by
  have hk := Kept.refl s
  unfold execCombineRows at e
  try dsimp only at e
  repeat' split at e
  all_goals simp only [Host.Outcome.next.injEq] at e
  all_goals subst e
  repeat' first
    | with_reducible assumption
    | intro _
    | with_reducible apply State.finish_kept
    | with_reducible apply State.begin_kept
    | with_reducible apply State.sendMembers_kept
    | with_reducible refine State.sendMembers_kept' (by assumption) ?_
    | with_reducible apply State.landStore_kept
    | with_reducible apply State.combineNext_kept
    | with_reducible refine State.combineNext_kept' (by assumption) ?_
    | (with_reducible refine kept_getD ?_ ?_; intro _ _)

theorem execCombineBwd_kept {s t : State} {p : PacketRef} (e : execCombineBwd p s = .next t) : Kept s t := by
  have hk := Kept.refl s
  unfold execCombineBwd at e
  try dsimp only at e
  repeat' split at e
  all_goals simp only [Host.Outcome.next.injEq] at e
  all_goals subst e
  repeat' first
    | with_reducible assumption
    | intro _
    | with_reducible apply State.modPart_kept
    | with_reducible apply State.finish_kept
    | with_reducible apply State.begin_kept
    | with_reducible apply State.sendMembers_kept
    | with_reducible refine State.sendMembers_kept' (by assumption) ?_
    | with_reducible apply State.landStore_kept
    | with_reducible apply State.combineBwdNext_kept
    | with_reducible refine State.combineBwdNext_kept' (by assumption) ?_
    | (with_reducible refine kept_getD ?_ ?_; intro _ _)

theorem execPlaceExpertsSet_kept {s t : State} {p : PacketRef} (e : execPlaceExpertsSet p s = .next t) : Kept s t := by
  have hk := Kept.refl s
  unfold execPlaceExpertsSet at e
  try dsimp only at e
  repeat' split at e
  all_goals simp only [Host.Outcome.next.injEq] at e
  all_goals subst e
  repeat' first
    | with_reducible assumption
    | intro _
    | with_reducible apply State.placeStart_kept

theorem execPlaceExpertsStep_kept {s t : State} {p : PacketRef} (e : execPlaceExpertsStep p s = .next t) : Kept s t := by
  have hk := Kept.refl s
  unfold execPlaceExpertsStep at e
  try dsimp only at e
  repeat' split at e
  all_goals simp only [Host.Outcome.next.injEq] at e
  all_goals subst e
  repeat' first
    | with_reducible assumption
    | intro _
    | with_reducible apply State.setPacket_kept
    | with_reducible apply State.finish_kept
    | with_reducible apply State.endPacket_kept

theorem execPlacementRevision_kept {s t : State} {p : PacketRef} (e : execPlacementRevision p s = .next t) : Kept s t := by
  have hk := Kept.refl s
  unfold execPlacementRevision at e
  try dsimp only at e
  repeat' split at e
  all_goals simp only [Host.Outcome.next.injEq] at e
  all_goals subst e
  repeat' first
    | with_reducible assumption
    | intro _
    | with_reducible apply State.placeAdvance_kept
    | with_reducible apply State.placeStart_kept

theorem execPlaceExpertsRelease_kept {s t : State} {p : PacketRef} (e : execPlaceExpertsRelease p s = .next t) : Kept s t := by
  have hk := Kept.refl s
  unfold execPlaceExpertsRelease at e
  try dsimp only at e
  repeat' split at e
  all_goals simp only [Host.Outcome.next.injEq] at e
  all_goals subst e
  repeat' first
    | with_reducible assumption
    | intro _
    | with_reducible apply State.setPacket_kept
    | with_reducible apply State.finish_kept

theorem execScaleAgree_kept {s t : State} {p : PacketRef} (e : execScaleAgree p s = .next t) : Kept s t := by
  have hk := Kept.refl s
  unfold execScaleAgree at e
  try dsimp only at e
  all_goals simp only [Host.Outcome.next.injEq] at e
  all_goals subst e
  repeat' first
    | with_reducible assumption
    | intro _
    | with_reducible apply startRemote_kept

theorem execRsInt_kept {s t : State} {p : PacketRef} (e : execRsInt p s = .next t) : Kept s t := by
  have hk := Kept.refl s
  unfold execRsInt at e
  all_goals simp only [Host.Outcome.next.injEq] at e
  all_goals subst e
  repeat' first
    | with_reducible assumption
    | intro _
    | with_reducible apply startRemote_kept

theorem execBucketReduce_kept {s t : State} {p : PacketRef} {bucket : Nat} (e : execBucketReduce p bucket s = .next t) : Kept s t := by
  have hk := Kept.refl s
  unfold execBucketReduce at e
  try dsimp only at e
  repeat' split at e
  all_goals simp only [Host.Outcome.next.injEq] at e
  all_goals subst e
  repeat' first
    | with_reducible assumption
    | intro _
    | with_reducible apply State.modPart_kept
    | with_reducible apply State.begin_kept
    | with_reducible apply State.addQuads_kept
    | with_reducible apply State.advance_kept
    | with_reducible apply State.endPacket_kept

theorem execAllgather_kept {s t : State} {p : PacketRef} (e : execAllgather p s = .next t) : Kept s t := by
  have hk := Kept.refl s
  unfold execAllgather at e
  all_goals simp only [Host.Outcome.next.injEq] at e
  all_goals subst e
  repeat' first
    | with_reducible assumption
    | intro _
    | with_reducible apply startRemote_kept

theorem execAlltoall_kept {s t : State} {p : PacketRef} (e : execAlltoall p s = .next t) : Kept s t := by
  have hk := Kept.refl s
  unfold execAlltoall at e
  all_goals simp only [Host.Outcome.next.injEq] at e
  all_goals subst e
  repeat' first
    | with_reducible assumption
    | intro _
    | with_reducible apply startRemote_kept

theorem execPermuteShards_kept {s t : State} {p : PacketRef} (e : execPermuteShards p s = .next t) : Kept s t := by
  have hk := Kept.refl s
  unfold execPermuteShards at e
  all_goals simp only [Host.Outcome.next.injEq] at e
  all_goals subst e
  repeat' first
    | with_reducible assumption
    | intro _
    | with_reducible apply startRemote_kept

theorem execBarrier_kept {s t : State} {p : PacketRef} (e : execBarrier p s = .next t) : Kept s t := by
  have hk := Kept.refl s
  unfold execBarrier at e
  all_goals simp only [Host.Outcome.next.injEq] at e
  all_goals subst e
  repeat' first
    | with_reducible assumption
    | intro _
    | with_reducible apply startRemote_kept

theorem execEpochSetAdvance_kept {s t : State} {p : PacketRef} (e : execEpochSetAdvance p s = .next t) : Kept s t := by
  have hk := Kept.refl s
  unfold execEpochSetAdvance at e
  all_goals simp only [Host.Outcome.next.injEq] at e
  all_goals subst e
  repeat' first
    | with_reducible assumption
    | intro _
    | with_reducible apply epochSetStep_kept

theorem execEpochSetJoin_kept {s t : State} {p : PacketRef} (e : execEpochSetJoin p s = .next t) : Kept s t := by
  have hk := Kept.refl s
  unfold execEpochSetJoin at e
  all_goals simp only [Host.Outcome.next.injEq] at e
  all_goals subst e
  repeat' first
    | with_reducible assumption
    | intro _
    | with_reducible apply epochSetStep_kept

theorem execSnapBegin_kept {s t : State} {p : PacketRef} (e : execSnapBegin p s = .next t) : Kept s t := by
  have hk := Kept.refl s
  unfold execSnapBegin at e
  try dsimp only at e
  repeat' split at e
  all_goals simp only [Host.Outcome.next.injEq] at e
  all_goals subst e
  repeat' first
    | with_reducible assumption
    | intro _
    | with_reducible apply State.modPart_kept
    | with_reducible apply State.finish_kept

theorem execSnapDiscard_kept {s t : State} {p : PacketRef} (e : execSnapDiscard p s = .next t) : Kept s t := by
  have hk := Kept.refl s
  unfold execSnapDiscard at e
  try dsimp only at e
  repeat' split at e
  all_goals simp only [Host.Outcome.next.injEq] at e
  all_goals subst e
  repeat' first
    | with_reducible assumption
    | intro _
    | with_reducible apply State.modPart_kept
    | with_reducible apply State.setPacket_kept
    | with_reducible apply State.finish_kept

theorem execSnapWrite_kept {s t : State} {p : PacketRef} (e : execSnapWrite p s = .next t) : Kept s t := by
  have hk := Kept.refl s
  unfold execSnapWrite at e
  try dsimp only at e
  repeat' split at e
  all_goals simp only [Host.Outcome.next.injEq] at e
  all_goals subst e
  repeat' first
    | with_reducible assumption
    | intro _
    | with_reducible apply State.modPart_kept
    | with_reducible apply State.finish_kept

theorem execSnapParity_kept {s t : State} {p : PacketRef} (e : execSnapParity p s = .next t) : Kept s t := by
  have hk := Kept.refl s
  unfold execSnapParity at e
  try dsimp only at e
  repeat' split at e
  all_goals simp only [Host.Outcome.next.injEq] at e
  all_goals subst e
  repeat' first
    | with_reducible assumption
    | intro _
    | with_reducible apply State.modPart_kept
    | with_reducible apply State.begin_kept
    | with_reducible apply State.controlAll_kept
    | with_reducible apply State.parityAdvance_kept

theorem execParityUnitXor_kept {s t : State} {p : PacketRef} {unit : Nat} (e : execParityUnitXor p unit s = .next t) : Kept s t := by
  have hk := Kept.refl s
  unfold execParityUnitXor at e
  try dsimp only at e
  repeat' split at e
  all_goals simp only [Host.Outcome.next.injEq] at e
  all_goals subst e
  repeat' first
    | with_reducible assumption
    | intro _
    | with_reducible apply State.modPart_kept
    | with_reducible apply State.begin_kept
    | with_reducible apply State.parityAdvance_kept

theorem execSnapCommit_kept {s t : State} {p : PacketRef} (e : execSnapCommit p s = .next t) : Kept s t := by
  have hk := Kept.refl s
  unfold execSnapCommit at e
  try dsimp only at e
  repeat' split at e
  all_goals simp only [Host.Outcome.next.injEq] at e
  all_goals subst e
  repeat' first
    | with_reducible assumption
    | intro _
    | with_reducible apply State.modPart_kept
    | with_reducible apply State.finish_kept
    | with_reducible apply State.begin_kept
    | with_reducible apply State.advance_kept

theorem execRestoreGen_kept {s t : State} {p : PacketRef} (e : execRestoreGen p s = .next t) : Kept s t := by
  have hk := Kept.refl s
  unfold execRestoreGen at e
  try dsimp only at e
  repeat' split at e
  all_goals simp only [Host.Outcome.next.injEq] at e
  all_goals subst e
  repeat' first
    | with_reducible assumption
    | intro _
    | with_reducible apply State.modPart_kept
    | with_reducible apply State.setPacket_kept
    | with_reducible apply State.finish_kept

theorem execRestoreEntryWaitEnd_kept {s t : State} {p : PacketRef} (e : execRestoreEntryWaitEnd p s = .next t) : Kept s t := by
  have hk := Kept.refl s
  unfold execRestoreEntryWaitEnd at e
  try dsimp only at e
  repeat' split at e
  all_goals simp only [Host.Outcome.next.injEq] at e
  all_goals subst e
  repeat' first
    | with_reducible assumption
    | intro _
    | with_reducible apply State.setPacket_kept

theorem execRebuild_kept {s t : State} {p : PacketRef} (e : execRebuild p s = .next t) : Kept s t := by
  have hk := Kept.refl s
  unfold execRebuild at e
  try dsimp only at e
  repeat' split at e
  all_goals simp only [Host.Outcome.next.injEq] at e
  all_goals subst e
  repeat' first
    | with_reducible assumption
    | intro _
    | with_reducible apply State.begin_kept
    | with_reducible apply State.controlAll_kept
    | with_reducible apply State.rebuildAdvance_kept

theorem execRebuildStripe_kept {s t : State} {p : PacketRef} {stripe : Nat} (e : execRebuildStripe p stripe s = .next t) : Kept s t := by
  have hk := Kept.refl s
  unfold execRebuildStripe at e
  try dsimp only at e
  repeat' split at e
  all_goals simp only [Host.Outcome.next.injEq] at e
  all_goals subst e
  repeat' first
    | with_reducible assumption
    | intro _
    | with_reducible apply State.modPart_kept
    | with_reducible apply State.begin_kept
    | with_reducible apply State.rebuildAdvance_kept

theorem execHeartbeatTimer_kept {s t : State} {part : Nat} (e : execHeartbeatTimer part s = .next t) : Kept s t := by
  have hk := Kept.refl s
  unfold execHeartbeatTimer at e
  try dsimp only at e
  repeat' split at e
  all_goals simp only [Host.Outcome.next.injEq] at e
  all_goals subst e
  repeat' first
    | with_reducible assumption
    | intro _
    | with_reducible apply State.sendControl_kept
    | with_reducible refine State.sendControl_kept' (by assumption) ?_
    | (with_reducible refine kept_foldl ?_ ?_ _; intro _ _ _)

theorem execPeerLost_kept {s t : State} {part : Nat} {endpoint : Nat} (e : execPeerLost part endpoint s = .next t) : Kept s t := by
  have hk := Kept.refl s
  unfold execPeerLost at e
  try dsimp only at e
  repeat' split at e
  all_goals simp only [Host.Outcome.next.injEq] at e
  all_goals subst e
  repeat' first
    | with_reducible assumption
    | intro _
    | with_reducible apply State.setSummary_kept
    | with_reducible apply State.log_kept
    | with_reducible apply State.sendControl_kept
    | with_reducible refine State.sendControl_kept' (by assumption) ?_
    | with_reducible apply State.loseEndpoint_kept
    | (with_reducible refine kept_foldl ?_ ?_ _; intro _ _ _)

theorem execExchangeTimeout_kept {s t : State} {p : PacketRef} {member : Nat} (e : execExchangeTimeout p member s = .next t) : Kept s t := by
  have hk := Kept.refl s
  unfold execExchangeTimeout at e
  try dsimp only at e
  repeat' split at e
  all_goals simp only [Host.Outcome.next.injEq] at e
  all_goals subst e
  repeat' first
    | with_reducible assumption
    | intro _
    | with_reducible apply State.endFailed_kept

theorem execCollTimeout_kept {s t : State} {p : PacketRef} {rank : Nat} (e : execCollTimeout p rank s = .next t) : Kept s t := by
  have hk := Kept.refl s
  unfold execCollTimeout at e
  try dsimp only at e
  repeat' split at e
  all_goals simp only [Host.Outcome.next.injEq] at e
  all_goals subst e
  repeat' first
    | with_reducible assumption
    | intro _
    | with_reducible apply State.endFailed_kept

theorem execScrubSet_kept {s t : State} {p : PacketRef} (e : execScrubSet p s = .next t) : Kept s t := by
  have hk := Kept.refl s
  unfold execScrubSet at e
  all_goals simp only [Host.Outcome.next.injEq] at e
  all_goals subst e
  repeat' first
    | with_reducible assumption
    | intro _
    | with_reducible apply runThen_kept
    | with_reducible apply Ctx.scrubEff_kept

theorem execRemapAdd_kept {s t : State} {p : PacketRef} (e : execRemapAdd p s = .next t) : Kept s t := by
  have hk := Kept.refl s
  unfold execRemapAdd at e
  try dsimp only at e
  all_goals simp only [Host.Outcome.next.injEq] at e
  all_goals subst e
  repeat' first
    | with_reducible assumption
    | intro _
    | with_reducible apply runThen_kept
    | with_reducible apply Ctx.remapNow_kept
    | with_reducible apply State.remapRefused_kept
    | split

theorem execRetireUnit_kept {s t : State} {p : PacketRef} (e : execRetireUnit p s = .next t) : Kept s t := by
  have hk := Kept.refl s
  unfold execRetireUnit at e
  all_goals simp only [Host.Outcome.next.injEq] at e
  all_goals subst e
  repeat' first
    | with_reducible assumption
    | intro _
    | with_reducible apply runOpcode_kept

theorem execRetireDrainEnd_kept {s t : State} {p : PacketRef} (e : execRetireDrainEnd p s = .next t) : Kept s t := by
  have hk := Kept.refl s
  unfold execRetireDrainEnd at e
  try dsimp only at e
  repeat' split at e
  all_goals simp only [Host.Outcome.next.injEq] at e
  all_goals subst e
  repeat' first
    | with_reducible assumption
    | intro _
    | with_reducible apply State.setPacket_kept
    | with_reducible apply runOpcode_kept

theorem execArrayAutoRetire_kept {s t : State} {array : Nat} (e : execArrayAutoRetire array s = .next t) : Kept s t := by
  have hk := Kept.refl s
  unfold execArrayAutoRetire at e
  try dsimp only at e
  repeat' split at e
  all_goals simp only [Host.Outcome.next.injEq] at e
  all_goals subst e
  repeat' first
    | with_reducible assumption
    | intro _
    | with_reducible apply State.log_kept
    | with_reducible apply State.retireArray_kept

theorem execReinstate_kept {s t : State} {p : PacketRef} {testPassed : Bool} (e : execReinstate p testPassed s = .next t) : Kept s t := by
  have hk := Kept.refl s
  unfold execReinstate at e
  try dsimp only at e
  all_goals simp only [Host.Outcome.next.injEq] at e
  all_goals subst e
  repeat' first
    | with_reducible assumption
    | intro _
    | with_reducible apply runOpcode_kept

theorem execErrlogRead_kept {s t : State} {p : PacketRef} (e : execErrlogRead p s = .next t) : Kept s t := by
  have hk := Kept.refl s
  unfold execErrlogRead at e
  try dsimp only at e
  all_goals simp only [Host.Outcome.next.injEq] at e
  all_goals subst e
  repeat' first
    | with_reducible assumption
    | intro _
    | with_reducible apply State.modPart_kept
    | with_reducible apply State.log_kept
    | with_reducible apply runThen_kept
    | split

theorem execBounceBind_kept {s t : State} {p : PacketRef} (e : execBounceBind p s = .next t) : Kept s t := by
  have hk := Kept.refl s
  unfold execBounceBind at e
  all_goals simp only [Host.Outcome.next.injEq] at e
  all_goals subst e
  repeat' first
    | with_reducible assumption
    | intro _
    | with_reducible apply runThen_kept
    | with_reducible apply State.bouncePump_kept
    | with_reducible apply State.flushAll_kept
    | with_reducible apply Ctx.bindQueue_kept

theorem execBounceUnbind_kept {s t : State} {p : PacketRef} (e : execBounceUnbind p s = .next t) : Kept s t := by
  have hk := Kept.refl s
  unfold execBounceUnbind at e
  all_goals simp only [Host.Outcome.next.injEq] at e
  all_goals subst e
  repeat' first
    | with_reducible assumption
    | intro _
    | with_reducible apply runThen_kept
    | with_reducible apply State.modQueue_kept

theorem execBounceSend_kept {s t : State} {p : PacketRef} (e : execBounceSend p s = .next t) : Kept s t := by
  have hk := Kept.refl s
  unfold execBounceSend at e
  try dsimp only at e
  repeat' split at e
  all_goals simp only [Host.Outcome.next.injEq] at e
  all_goals subst e
  repeat' first
    | with_reducible assumption
    | intro _
    | with_reducible apply State.setPacket_kept
    | with_reducible apply State.sendRecords_kept

theorem execBounceSendRoom_kept {s t : State} {p : PacketRef} (e : execBounceSendRoom p s = .next t) : Kept s t := by
  have hk := Kept.refl s
  unfold execBounceSendRoom at e
  try dsimp only at e
  repeat' split at e
  all_goals simp only [Host.Outcome.next.injEq] at e
  all_goals subst e
  repeat' first
    | with_reducible assumption
    | intro _
    | with_reducible apply State.sendRecords_kept

theorem execBounceRecord_kept {s t : State} {part : Nat} {queue : Nat} {record : List Byte} (e : execBounceRecord part queue record s = .next t) : Kept s t := by
  have hk := Kept.refl s
  unfold execBounceRecord at e
  try dsimp only at e
  repeat' split at e
  all_goals simp only [Host.Outcome.next.injEq] at e
  all_goals subst e
  repeat' first
    | with_reducible assumption
    | intro _
    | with_reducible apply State.modQueue_kept
    | with_reducible apply State.bouncePut_kept
    | with_reducible apply State.record_kept
    | with_reducible apply State.bounceAccept_kept

theorem execUnitReset_kept {s t : State} {p : PacketRef} (e : execUnitReset p s = .next t) : Kept s t := by
  have hk := Kept.refl s
  unfold execUnitReset at e
  try dsimp only at e
  all_goals simp only [Host.Outcome.next.injEq] at e
  all_goals subst e
  repeat' first
    | with_reducible assumption
    | intro _
    | with_reducible apply runThen_kept
    | with_reducible apply Ctx.configSetEff_kept
    | with_reducible apply State.unitReset_kept
    | split

theorem execPartitionSet_kept {s t : State} {p : PacketRef} (e : execPartitionSet p s = .next t) : Kept s t := by
  have hk := Kept.refl s
  unfold execPartitionSet at e
  try dsimp only at e
  repeat' split at e
  all_goals simp only [Host.Outcome.next.injEq] at e
  all_goals subst e
  repeat' first
    | with_reducible assumption
    | intro _
    | with_reducible apply State.modPart_kept
    | with_reducible apply State.setPacket_kept
    | with_reducible apply State.finish_kept

theorem execPartitionChange_kept {s t : State}  (e : execPartitionChange s = .next t) : Kept s t := by
  have hk := Kept.refl s
  unfold execPartitionChange at e
  try dsimp only at e
  repeat' split at e
  all_goals simp only [Host.Outcome.next.injEq] at e
  all_goals subst e
  repeat' first
    | with_reducible assumption
    | intro _
    | with_reducible apply State.scrubPart_kept
    | (with_reducible refine kept_foldl ?_ ?_ _; intro _ _ _)
    | split
    | with_reducible apply Kept.update

theorem execPartitionChangeComplete_kept {s t : State} {ms : Nat} (e : execPartitionChangeComplete ms s = .next t) : Kept s t := by
  have hk := Kept.refl s
  unfold execPartitionChangeComplete at e
  try dsimp only at e
  repeat' split at e
  all_goals simp only [Host.Outcome.next.injEq] at e
  all_goals subst e
  repeat' first
    | with_reducible assumption
    | intro _
    | with_reducible apply State.endpointReset_kept
    | with_reducible apply State.formParts_kept

theorem execMatmul_kept {s t : State} {p : PacketRef} (e : execMatmul p s = .next t) : Kept s t := by
  have hk := Kept.refl s
  unfold execMatmul at e
  try dsimp only at e
  repeat' split at e
  all_goals simp only [Host.Outcome.next.injEq] at e
  all_goals subst e
  repeat' first
    | with_reducible assumption
    | intro _
    | with_reducible apply runOpcode_kept
    | with_reducible apply runProduct_kept

theorem execSpmmCsr_kept {s t : State} {p : PacketRef} (e : execSpmmCsr p s = .next t) : Kept s t := by
  have hk := Kept.refl s
  unfold execSpmmCsr at e
  all_goals simp only [Host.Outcome.next.injEq] at e
  all_goals subst e
  repeat' first
    | with_reducible assumption
    | intro _
    | with_reducible apply runProduct_kept

theorem execSpmmNm_kept {s t : State} {p : PacketRef} (e : execSpmmNm p s = .next t) : Kept s t := by
  have hk := Kept.refl s
  unfold execSpmmNm at e
  all_goals simp only [Host.Outcome.next.injEq] at e
  all_goals subst e
  repeat' first
    | with_reducible assumption
    | intro _
    | with_reducible apply runProduct_kept

theorem execCompress_kept {s t : State} {p : PacketRef} (e : execCompress p s = .next t) : Kept s t := by
  have hk := Kept.refl s
  unfold execCompress at e
  all_goals simp only [Host.Outcome.next.injEq] at e
  all_goals subst e
  repeat' first
    | with_reducible assumption
    | intro _
    | with_reducible apply runOpcode_kept

theorem execTwinBuild_kept {s t : State} {p : PacketRef} (e : execTwinBuild p s = .next t) : Kept s t := by
  have hk := Kept.refl s
  unfold execTwinBuild at e
  all_goals simp only [Host.Outcome.next.injEq] at e
  all_goals subst e
  repeat' first
    | with_reducible assumption
    | intro _
    | with_reducible apply runOpcode_kept

theorem execSpsp_kept {s t : State} {p : PacketRef} (e : execSpsp p s = .next t) : Kept s t := by
  have hk := Kept.refl s
  unfold execSpsp at e
  try dsimp only at e
  repeat' split at e
  all_goals simp only [Host.Outcome.next.injEq] at e
  all_goals subst e
  repeat' first
    | with_reducible assumption
    | intro _
    | with_reducible apply runOpcode_kept
    | with_reducible apply runProduct_kept

theorem execPredictActive_kept {s t : State} {p : PacketRef} (e : execPredictActive p s = .next t) : Kept s t := by
  have hk := Kept.refl s
  unfold execPredictActive at e
  all_goals simp only [Host.Outcome.next.injEq] at e
  all_goals subst e
  repeat' first
    | with_reducible assumption
    | intro _
    | with_reducible apply runOpcode_kept

theorem execSddmm_kept {s t : State} {p : PacketRef} (e : execSddmm p s = .next t) : Kept s t := by
  have hk := Kept.refl s
  unfold execSddmm at e
  all_goals simp only [Host.Outcome.next.injEq] at e
  all_goals subst e
  repeat' first
    | with_reducible assumption
    | intro _
    | with_reducible apply runProduct_kept

theorem execGroupedMatmul_kept {s t : State} {p : PacketRef} (e : execGroupedMatmul p s = .next t) : Kept s t := by
  have hk := Kept.refl s
  unfold execGroupedMatmul at e
  all_goals simp only [Host.Outcome.next.injEq] at e
  all_goals subst e
  repeat' first
    | with_reducible assumption
    | intro _
    | with_reducible apply runProduct_kept

theorem execSplitKCombine_kept {s t : State} {p : PacketRef} {tile : Nat} (e : execSplitKCombine p tile s = .next t) : Kept s t := by
  have hk := Kept.refl s
  unfold execSplitKCombine at e
  all_goals simp only [Host.Outcome.next.injEq] at e
  all_goals subst e
  repeat' first
    | with_reducible assumption
    | intro _
    | with_reducible apply combineStep_kept

theorem execUpdateWeight_kept {s t : State} {p : PacketRef} (e : execUpdateWeight p s = .next t) : Kept s t := by
  have hk := Kept.refl s
  unfold execUpdateWeight at e
  all_goals simp only [Host.Outcome.next.injEq] at e
  all_goals subst e
  repeat' first
    | with_reducible assumption
    | intro _
    | with_reducible apply runOpcode_kept

theorem execMaskedit_kept {s t : State} {p : PacketRef} (e : execMaskedit p s = .next t) : Kept s t := by
  have hk := Kept.refl s
  unfold execMaskedit at e
  all_goals simp only [Host.Outcome.next.injEq] at e
  all_goals subst e
  repeat' first
    | with_reducible assumption
    | intro _
    | with_reducible apply runOpcode_kept

theorem execUpdateTurn_kept {s t : State} {p : PacketRef} (e : execUpdateTurn p s = .next t) : Kept s t := by
  have hk := Kept.refl s
  unfold execUpdateTurn at e
  try dsimp only at e
  repeat' split at e
  all_goals simp only [Host.Outcome.next.injEq] at e
  all_goals subst e
  repeat' first
    | with_reducible assumption
    | intro _
    | with_reducible apply State.setPacket_kept

theorem execUpdateOldVersionReleased_kept {s t : State} {p : PacketRef} (e : execUpdateOldVersionReleased p s = .next t) : Kept s t := by
  have hk := Kept.refl s
  unfold execUpdateOldVersionReleased at e
  all_goals simp only [Host.Outcome.next.injEq] at e
  all_goals subst e
  repeat' first
    | with_reducible assumption
    | intro _
    | with_reducible apply turnReady_kept

theorem execMaskeditRefsReleased_kept {s t : State} {p : PacketRef} (e : execMaskeditRefsReleased p s = .next t) : Kept s t := by
  have hk := Kept.refl s
  unfold execMaskeditRefsReleased at e
  all_goals simp only [Host.Outcome.next.injEq] at e
  all_goals subst e
  repeat' first
    | with_reducible assumption
    | intro _
    | with_reducible apply turnReady_kept

theorem execTsDemux_kept {s t : State} {p : PacketRef} (e : execTsDemux p s = .next t) : Kept s t := by
  have hk := Kept.refl s
  unfold execTsDemux at e
  try dsimp only at e
  repeat' split at e
  all_goals simp only [Host.Outcome.next.injEq] at e
  all_goals subst e
  repeat' first
    | with_reducible assumption
    | intro _
    | with_reducible apply runThen_kept
    | with_reducible apply Ctx.keepDemux_kept

theorem execDecodeVideo_kept {s t : State} {p : PacketRef} (e : execDecodeVideo p s = .next t) : Kept s t := by
  have hk := Kept.refl s
  unfold execDecodeVideo at e
  all_goals simp only [Host.Outcome.next.injEq] at e
  all_goals subst e
  repeat' first
    | with_reducible assumption
    | intro _
    | with_reducible apply runOpcode_kept

theorem execPatchify_kept {s t : State} {p : PacketRef} (e : execPatchify p s = .next t) : Kept s t := by
  have hk := Kept.refl s
  unfold execPatchify at e
  all_goals simp only [Host.Outcome.next.injEq] at e
  all_goals subst e
  repeat' first
    | with_reducible assumption
    | intro _
    | with_reducible apply runOpcode_kept

theorem execShufflePlan_kept {s t : State} {p : PacketRef} (e : execShufflePlan p s = .next t) : Kept s t := by
  have hk := Kept.refl s
  unfold execShufflePlan at e
  all_goals simp only [Host.Outcome.next.injEq] at e
  all_goals subst e
  repeat' first
    | with_reducible assumption
    | intro _
    | with_reducible apply runOpcode_kept

theorem execGangChangeTurn_kept {s t : State} {p : PacketRef} (e : execGangChangeTurn p s = .next t) : Kept s t := by
  have hk := Kept.refl s
  unfold execGangChangeTurn at e
  all_goals simp only [Host.Outcome.next.injEq] at e
  all_goals subst e
  repeat' first
    | with_reducible assumption
    | intro _
    | with_reducible apply retryHeld_kept

theorem execVersionQueueRelease_kept {s t : State} {p : PacketRef} (e : execVersionQueueRelease p s = .next t) : Kept s t := by
  have hk := Kept.refl s
  unfold execVersionQueueRelease at e
  try dsimp only at e
  all_goals simp only [Host.Outcome.next.injEq] at e
  all_goals subst e
  repeat' first
    | with_reducible assumption
    | intro _
    | with_reducible apply retryHeld_kept

theorem execAllgatherSlotFree_kept {s t : State} {p : PacketRef} (e : execAllgatherSlotFree p s = .next t) : Kept s t := by
  have hk := Kept.refl s
  unfold execAllgatherSlotFree at e
  all_goals simp only [Host.Outcome.next.injEq] at e
  all_goals subst e
  repeat' first
    | with_reducible assumption
    | intro _
    | with_reducible apply retryHeld_kept

theorem execStagingSetFree_kept {s t : State} {p : PacketRef} (e : execStagingSetFree p s = .next t) : Kept s t := by
  have hk := Kept.refl s
  unfold execStagingSetFree at e
  all_goals simp only [Host.Outcome.next.injEq] at e
  all_goals subst e
  repeat' first
    | with_reducible assumption
    | intro _
    | with_reducible apply retryHeld_kept

theorem execPlacementHoldRelease_kept {s t : State} {p : PacketRef} (e : execPlacementHoldRelease p s = .next t) : Kept s t := by
  have hk := Kept.refl s
  unfold execPlacementHoldRelease at e
  try dsimp only at e
  all_goals simp only [Host.Outcome.next.injEq] at e
  all_goals subst e
  repeat' first
    | with_reducible assumption
    | intro _
    | with_reducible apply retryHeld_kept

theorem execSnapParityHoldEnd_kept {s t : State} {p : PacketRef} (e : execSnapParityHoldEnd p s = .next t) : Kept s t := by
  have hk := Kept.refl s
  unfold execSnapParityHoldEnd at e
  try dsimp only at e
  all_goals simp only [Host.Outcome.next.injEq] at e
  all_goals subst e
  repeat' first
    | with_reducible assumption
    | intro _
    | with_reducible apply retryHeld_kept

theorem execRebuildHoldEnd_kept {s t : State} {p : PacketRef} (e : execRebuildHoldEnd p s = .next t) : Kept s t := by
  have hk := Kept.refl s
  unfold execRebuildHoldEnd at e
  all_goals simp only [Host.Outcome.next.injEq] at e
  all_goals subst e
  repeat' first
    | with_reducible assumption
    | intro _
    | with_reducible apply retryHeld_kept

theorem execPoolRetry_kept {s t : State} {part : Nat} (e : execPoolRetry part s = .next t) : Kept s t := by
  have hk := Kept.refl s
  unfold execPoolRetry at e
  try dsimp only at e
  repeat' split at e
  all_goals simp only [Host.Outcome.next.injEq] at e
  all_goals subst e
  repeat' first
    | with_reducible assumption
    | intro _
    | with_reducible apply State.retryWhere_kept

theorem execRetrain_kept {s t : State} {port : Nat} (e : execRetrain port s = .next t) : Kept s t := by
  have hk := Kept.refl s
  unfold execRetrain at e
  try dsimp only at e
  repeat' split at e
  all_goals simp only [Host.Outcome.next.injEq] at e
  all_goals subst e
  repeat' first
    | with_reducible assumption
    | intro _
    | with_reducible apply State.beginRetrain_kept

theorem execLaneFault_kept {s t : State} {port lane : Nat} (e : execLaneFault port lane s = .next t) : Kept s t := by
  have hk := Kept.refl s
  unfold execLaneFault at e
  try dsimp only at e
  repeat' split at e
  all_goals simp only [Host.Outcome.next.injEq] at e
  all_goals subst e
  repeat' first
    | with_reducible assumption
    | intro _
    | with_reducible apply State.modPort_kept
    | with_reducible apply State.beginRetrain_kept

theorem execRetrainDone_kept {s t : State} {port : Nat} {passing : List Nat} (e : execRetrainDone port passing s = .next t) : Kept s t := by
  have hk := Kept.refl s
  unfold execRetrainDone at e
  try dsimp only at e
  repeat' split at e
  all_goals simp only [Host.Outcome.next.injEq] at e
  all_goals subst e
  repeat' first
    | with_reducible assumption
    | intro _
    | with_reducible apply State.modPort_kept
    | with_reducible apply State.portDown_kept
    | with_reducible apply State.portUp_kept

theorem execPortRetrainAttempt_kept {s t : State} {port : Nat} (e : execPortRetrainAttempt port s = .next t) : Kept s t := by
  have hk := Kept.refl s
  unfold execPortRetrainAttempt at e
  try dsimp only at e
  repeat' split at e
  all_goals simp only [Host.Outcome.next.injEq] at e
  all_goals subst e
  repeat' first
    | with_reducible assumption
    | intro _
    | with_reducible apply State.modPort_kept

theorem execRetryReq_kept {s t : State} {port ack : Nat} {ackValid : Bool} (e : execRetryReq port ack ackValid s = .next t) : Kept s t := by
  have hk := Kept.refl s
  unfold execRetryReq at e
  try dsimp only at e
  repeat' split at e
  all_goals simp only [Host.Outcome.next.injEq] at e
  all_goals subst e
  repeat' first
    | with_reducible assumption
    | intro _
    | with_reducible apply State.retryRequested_kept

theorem execFlitReceive_kept {s t : State} {port : Nat} {codewordOk : Bool} {flit : List Byte} (e : execFlitReceive port codewordOk flit s = .next t) : Kept s t := by
  have hk := Kept.refl s
  unfold execFlitReceive at e
  try dsimp only at e
  repeat' split at e
  all_goals simp only [Host.Outcome.next.injEq] at e
  all_goals subst e
  repeat' first
    | with_reducible assumption
    | intro _
    | with_reducible apply State.flitArrives_kept

theorem execPwrEnFall_kept {s t : State} {lowMs : Nat} (e : execPwrEnFall lowMs s = .next t) : Kept s t := by
  have hk := Kept.refl s
  unfold execPwrEnFall at e
  try dsimp only at e
  repeat' split at e
  all_goals simp only [Host.Outcome.next.injEq] at e
  all_goals subst e
  repeat' first
    | with_reducible assumption
    | intro _
    | with_reducible apply State.unpowered_kept

theorem execPowerFault_kept {s t : State} {kind : PowerFault} (e : execPowerFault kind s = .next t) : Kept s t := by
  have hk := Kept.refl s
  unfold execPowerFault at e
  try dsimp only at e
  repeat' split at e
  all_goals simp only [Host.Outcome.next.injEq] at e
  all_goals subst e
  repeat' first
    | with_reducible assumption
    | intro _
    | with_reducible apply State.unpowered_kept
    | split
    | with_reducible apply Kept.update

theorem execVinPresent_kept {s t : State} {mv : Nat} (e : execVinPresent mv s = .next t) : Kept s t := by
  have hk := Kept.refl s
  unfold execVinPresent at e
  try dsimp only at e
  repeat' split at e
  all_goals simp only [Host.Outcome.next.injEq] at e
  all_goals subst e
  repeat' first
    | with_reducible assumption
    | intro _
    | split
    | with_reducible apply Kept.update

theorem execColdReset_kept {s t : State} {lowMs : Nat} {env : BootEnv} (e : execColdReset lowMs env s = .next t) : Kept s t := by
  have hk := Kept.refl s
  unfold execColdReset at e
  try dsimp only at e
  repeat' split at e
  all_goals simp only [Host.Outcome.next.injEq] at e
  all_goals subst e
  repeat' first
    | with_reducible assumption
    | intro _
    | with_reducible apply State.unpowered_kept
    | split
    | with_reducible apply Kept.update

theorem execPerstNRise_kept {s t : State} {lowUs : Nat} (e : execPerstNRise lowUs s = .next t) : Kept s t := by
  have hk := Kept.refl s
  unfold execPerstNRise at e
  try dsimp only at e
  repeat' split at e
  all_goals simp only [Host.Outcome.next.injEq] at e
  all_goals subst e
  repeat' first
    | with_reducible assumption
    | intro _
    | with_reducible apply State.moduleReset_kept
    | split
    | with_reducible apply Kept.update

theorem execBootReady_kept {s t : State} {ms : Nat} (e : execBootReady ms s = .next t) : Kept s t := by
  have hk := Kept.refl s
  unfold execBootReady at e
  try dsimp only at e
  repeat' split at e
  all_goals simp only [Host.Outcome.next.injEq] at e
  all_goals subst e
  repeat' first
    | with_reducible assumption
    | intro _
    | with_reducible apply State.bootRun_kept
    | split
    | with_reducible apply Kept.update

theorem execDoorbellWrite_kept {s t : State} {path : Path} {quarter k : Nat} {data : Word} (e : execDoorbellWrite path quarter k data s = .next t) : Kept s t := by
  have hk := Kept.refl s
  unfold execDoorbellWrite at e
  try dsimp only at e
  repeat' split at e
  all_goals simp only [Host.Outcome.next.injEq] at e
  all_goals subst e
  repeat' first
    | with_reducible assumption
    | intro _
    | with_reducible apply State.doorbellAccess_kept

theorem execBounceDoorbellWrite_kept {s t : State} {path : Path} {quarter k : Nat} {data : Word} (e : execBounceDoorbellWrite path quarter k data s = .next t) : Kept s t := by
  have hk := Kept.refl s
  unfold execBounceDoorbellWrite at e
  try dsimp only at e
  repeat' split at e
  all_goals simp only [Host.Outcome.next.injEq] at e
  all_goals subst e
  repeat' first
    | with_reducible assumption
    | intro _
    | with_reducible apply State.doorbellAccess_kept

theorem execSlotFetch_kept {s t : State} {part ring : Nat} (e : execSlotFetch part ring s = .next t) : Kept s t := by
  have hk := Kept.refl s
  unfold execSlotFetch at e
  try dsimp only at e
  repeat' split at e
  all_goals simp only [Host.Outcome.next.injEq] at e
  all_goals subst e
  repeat' first
    | with_reducible assumption
    | intro _
    | with_reducible apply State.modRing_kept
    | with_reducible apply State.readEffects_kept
    | with_reducible apply State.stopRing_kept

theorem execPacketIssue_kept {s t : State} {part ring : Nat} (e : execPacketIssue part ring s = .next t) : Kept s t := by
  have hk := Kept.refl s
  unfold execPacketIssue at e
  try dsimp only at e
  repeat' split at e
  all_goals simp only [Host.Outcome.next.injEq] at e
  all_goals subst e
  repeat' first
    | with_reducible assumption
    | intro _
    | with_reducible apply State.modPart_kept
    | with_reducible apply State.modRing_kept
    | with_reducible apply State.takeUp_kept

theorem execPacketComplete_kept {s t : State} {p : PacketRef} (e : execPacketComplete p s = .next t) : Kept s t := by
  have hk := Kept.refl s
  unfold execPacketComplete at e
  try dsimp only at e
  repeat' split at e
  all_goals simp only [Host.Outcome.next.injEq] at e
  all_goals subst e
  repeat' first
    | with_reducible assumption
    | intro _
    | with_reducible apply State.complete_kept
    | with_reducible apply State.retryWhere_kept

theorem execRingServiceGrant_kept {s t : State} {part : Nat} {res : Resource} {units : Nat} {jobDone : Bool} (e : execRingServiceGrant part res units jobDone s = .next t) : Kept s t := by
  have hk := Kept.refl s
  unfold execRingServiceGrant at e
  try dsimp only at e
  repeat' split at e
  all_goals simp only [Host.Outcome.next.injEq] at e
  all_goals subst e
  repeat' first
    | with_reducible assumption
    | intro _
    | with_reducible apply State.modPart_kept
    | with_reducible apply State.bankGrant_kept
    | with_reducible apply State.wakeBenches_kept

theorem execEmptyGrant_kept {s t : State} {part : Nat} {res : Resource} (e : execEmptyGrant part res s = .next t) : Kept s t := by
  have hk := Kept.refl s
  unfold execEmptyGrant at e
  try dsimp only at e
  repeat' split at e
  all_goals simp only [Host.Outcome.next.injEq] at e
  all_goals subst e
  repeat' first
    | with_reducible assumption
    | intro _
    | with_reducible apply State.modPart_kept

theorem execQuotaWindowEnd_kept {s t : State} {part : Nat} (e : execQuotaWindowEnd part s = .next t) : Kept s t := by
  have hk := Kept.refl s
  unfold execQuotaWindowEnd at e
  all_goals simp only [Host.Outcome.next.injEq] at e
  all_goals subst e
  repeat' first
    | with_reducible assumption
    | intro _
    | with_reducible apply State.modPart_kept

theorem execWriteMsg_kept {s t : State} {port : Nat} {m : Msg} (e : execWriteMsg port m s = .next t) : Kept s t := by
  have hk := Kept.refl s
  unfold execWriteMsg at e
  try dsimp only at e
  all_goals simp only [Host.Outcome.next.injEq] at e
  all_goals subst e
  repeat' first
    | with_reducible assumption
    | intro _
    | with_reducible apply State.receive_kept
    | with_reducible apply State.checked_kept
    | with_reducible apply State.landWrite_kept
    | split

theorem execReadReqMsg_kept {s t : State} {port : Nat} {m : Msg} (e : execReadReqMsg port m s = .next t) : Kept s t := by
  have hk := Kept.refl s
  unfold execReadReqMsg at e
  try dsimp only at e
  all_goals simp only [Host.Outcome.next.injEq] at e
  all_goals subst e
  repeat' first
    | with_reducible assumption
    | intro _
    | with_reducible apply State.receive_kept
    | with_reducible apply State.checked_kept
    | with_reducible apply State.serveRead_kept
    | split

theorem execReadRespMsg_kept {s t : State} {port : Nat} {m : Msg} (e : execReadRespMsg port m s = .next t) : Kept s t := by
  have hk := Kept.refl s
  unfold execReadRespMsg at e
  try dsimp only at e
  repeat' split at e
  all_goals simp only [Host.Outcome.next.injEq] at e
  all_goals subst e
  repeat' first
    | with_reducible assumption
    | intro _
    | with_reducible apply State.receive_kept
    | with_reducible apply State.checked_kept
    | with_reducible apply State.bridgeEvent_kept
    | with_reducible apply State.emit_kept
    | with_reducible apply State.log_kept
    | with_reducible apply State.hostData_kept
    | split
    | with_reducible apply Kept.update

theorem execAtomicMsg_kept {s t : State} {port : Nat} {m : Msg} (e : execAtomicMsg port m s = .next t) : Kept s t := by
  have hk := Kept.refl s
  unfold execAtomicMsg at e
  try dsimp only at e
  all_goals simp only [Host.Outcome.next.injEq] at e
  all_goals subst e
  repeat' first
    | with_reducible assumption
    | intro _
    | with_reducible apply State.receive_kept
    | with_reducible apply State.checked_kept
    | with_reducible apply State.serveAtomic_kept
    | split

theorem execAtomicRespMsg_kept {s t : State} {port : Nat} {m : Msg} (e : execAtomicRespMsg port m s = .next t) : Kept s t := by
  have hk := Kept.refl s
  unfold execAtomicRespMsg at e
  all_goals simp only [Host.Outcome.next.injEq] at e
  all_goals subst e
  repeat' first
    | with_reducible assumption
    | intro _
    | with_reducible apply State.receive_kept

theorem execWriteAckMsg_kept {s t : State} {port : Nat} {m : Msg} (e : execWriteAckMsg port m s = .next t) : Kept s t := by
  have hk := Kept.refl s
  unfold execWriteAckMsg at e
  try dsimp only at e
  all_goals simp only [Host.Outcome.next.injEq] at e
  all_goals subst e
  repeat' first
    | with_reducible assumption
    | intro _
    | with_reducible apply State.setPacket_kept
    | with_reducible apply State.goOn_kept
    | with_reducible apply State.receive_kept
    | with_reducible apply State.checked_kept
    | with_reducible apply State.releaseHeld_kept
    | split
    | with_reducible apply Kept.update

theorem execReadyMsg_kept {s t : State} {port : Nat} {m : Msg} (e : execReadyMsg port m s = .next t) : Kept s t := by
  have hk := Kept.refl s
  unfold execReadyMsg at e
  all_goals simp only [Host.Outcome.next.injEq] at e
  all_goals subst e
  repeat' first
    | with_reducible assumption
    | intro _
    | with_reducible apply State.collective_kept

theorem execDoneMsg_kept {s t : State} {port : Nat} {m : Msg} (e : execDoneMsg port m s = .next t) : Kept s t := by
  have hk := Kept.refl s
  unfold execDoneMsg at e
  all_goals simp only [Host.Outcome.next.injEq] at e
  all_goals subst e
  repeat' first
    | with_reducible assumption
    | intro _
    | with_reducible apply State.collective_kept

theorem execArriveMsg_kept {s t : State} {port : Nat} {m : Msg} (e : execArriveMsg port m s = .next t) : Kept s t := by
  have hk := Kept.refl s
  unfold execArriveMsg at e
  all_goals simp only [Host.Outcome.next.injEq] at e
  all_goals subst e
  repeat' first
    | with_reducible assumption
    | intro _
    | with_reducible apply State.collective_kept

theorem execHeartbeatMsg_kept {s t : State} {port : Nat} {m : Msg} (e : execHeartbeatMsg port m s = .next t) : Kept s t := by
  have hk := Kept.refl s
  unfold execHeartbeatMsg at e
  try dsimp only at e
  all_goals simp only [Host.Outcome.next.injEq] at e
  all_goals subst e
  repeat' first
    | with_reducible assumption
    | intro _
    | with_reducible apply State.modPart_kept
    | with_reducible apply State.control_kept
    | split

theorem execStaleMsg_kept {s t : State} {port : Nat} {m : Msg} (e : execStaleMsg port m s = .next t) : Kept s t := by
  have hk := Kept.refl s
  unfold execStaleMsg at e
  try dsimp only at e
  all_goals simp only [Host.Outcome.next.injEq] at e
  all_goals subst e
  repeat' first
    | with_reducible assumption
    | intro _
    | with_reducible apply State.dropMsg_kept
    | with_reducible apply State.control_kept
    | with_reducible apply State.quarantine_kept
    | (with_reducible refine kept_foldl ?_ ?_ _; intro _ _ _)
    | split

theorem execLostMsg_kept {s t : State} {port : Nat} {m : Msg} (e : execLostMsg port m s = .next t) : Kept s t := by
  have hk := Kept.refl s
  unfold execLostMsg at e
  try dsimp only at e
  all_goals simp only [Host.Outcome.next.injEq] at e
  all_goals subst e
  repeat' first
    | with_reducible assumption
    | intro _
    | with_reducible apply State.loseEndpoint_kept
    | with_reducible apply State.dropMsg_kept
    | with_reducible apply State.control_kept
    | split

theorem execNotifyMsg_kept {s t : State} {port : Nat} {m : Msg} (e : execNotifyMsg port m s = .next t) : Kept s t := by
  have hk := Kept.refl s
  unfold execNotifyMsg at e
  try dsimp only at e
  all_goals simp only [Host.Outcome.next.injEq] at e
  all_goals subst e
  repeat' first
    | with_reducible assumption
    | intro _
    | with_reducible apply State.raiseMsix_kept
    | with_reducible apply State.dropMsg_kept
    | with_reducible apply State.control_kept
    | split

theorem execScrubRead_kept {s t : State} {mem : MemKind} {unit : Nat} (e : execScrubRead mem unit s = .next t) : Kept s t := by
  have hk := Kept.refl s
  unfold execScrubRead at e
  dsimp only at e
  split at e
  · cases e
    apply State.setScrubber_kept
    refine kept_foldl (fun t cw ht => State.decodeStore_kept _ _ _ _ _ _ ht) ?_ _
    exact State.drain_kept _ _ hk
  · cases e; exact hk

theorem execScrubPassEnd_kept {s t : State} {mem : MemKind} {unit : Nat} (e : execScrubPassEnd mem unit s = .next t) : Kept s t := by
  have hk := Kept.refl s
  unfold execScrubPassEnd at e
  try dsimp only at e
  repeat' split at e
  all_goals simp only [Host.Outcome.next.injEq] at e
  all_goals subst e
  repeat' first
    | with_reducible assumption
    | intro _
    | with_reducible apply State.setScrubber_kept
    | split
    | with_reducible apply Kept.update

theorem execMergeEntryTimeout_kept {s t : State} {granule : Nat} (e : execMergeEntryTimeout granule s = .next t) : Kept s t := by
  have hk := Kept.refl s
  unfold execMergeEntryTimeout at e
  all_goals simp only [Host.Outcome.next.injEq] at e
  all_goals subst e
  repeat' first
    | with_reducible assumption
    | intro _
    | with_reducible apply State.drain_kept

theorem execFabricFlitReceive_kept {s t : State} {link : FabricLink} {flit : FabricFlit} (e : execFabricFlitReceive link flit s = .next t) : Kept s t := by
  have hk := Kept.refl s
  unfold execFabricFlitReceive at e
  dsimp only at e
  split at e
  · cases e; exact hk
  · cases ha : (s.link link).arriving flit with
    | none => rw [ha] at e; cases e; exact hk
    | some x =>
      rw [ha] at e
      dsimp only at e
      split at e
      · cases e; exact State.emit_kept _ _ (State.setLink_kept _ _ hk)
      · split at e
        · cases e
          split
          · exact State.loseMessage_kept _ _ (State.setLink_kept _ _ hk)
          · exact State.setLink_kept _ _ hk
        · cases e; exact State.setLink_kept _ _ hk

theorem execMeshLinkFailed_kept {s t : State} {link : FabricLink} (e : execMeshLinkFailed link s = .next t) : Kept s t := by
  have hk := Kept.refl s
  unfold execMeshLinkFailed at e
  try dsimp only at e
  repeat' split at e
  all_goals simp only [Host.Outcome.next.injEq] at e
  all_goals subst e
  repeat' first
    | with_reducible assumption
    | intro _
    | with_reducible apply State.logAll_kept
    | with_reducible apply State.logQuarter_kept
    | with_reducible apply State.settleRoutes_kept
    | with_reducible apply State.turnBack_kept
    | with_reducible apply State.setLink_kept
    | split
    | with_reducible apply Kept.update

theorem execSeamPeerDown_kept {s t : State} {half : Nat} (e : execSeamPeerDown half s = .next t) : Kept s t := by
  have hk := Kept.refl s
  unfold execSeamPeerDown at e
  try dsimp only at e
  repeat' split at e
  all_goals simp only [Host.Outcome.next.injEq] at e
  all_goals subst e
  repeat' first
    | with_reducible assumption
    | intro _
    | with_reducible apply State.dropHalf_kept

theorem execSeamPeerUp_kept {s t : State} {half : Nat} (e : execSeamPeerUp half s = .next t) : Kept s t := by
  have hk := Kept.refl s
  unfold execSeamPeerUp at e
  try dsimp only at e
  repeat' split at e
  all_goals simp only [Host.Outcome.next.injEq] at e
  all_goals subst e
  repeat' first
    | with_reducible assumption
    | intro _
    | with_reducible apply State.clearCrossings_kept
    | split
    | with_reducible apply Kept.update

theorem execRegisterWrite_kept {s t : State} {path : Path} {win offset size : Nat} {data : Word} (e : execRegisterWrite path win offset size data s = .next t) : Kept s t := by
  have hk := Kept.refl s
  unfold execRegisterWrite at e
  try dsimp only at e
  repeat' split at e
  all_goals simp only [Host.Outcome.next.injEq] at e
  all_goals subst e
  repeat' first
    | with_reducible assumption
    | intro _
    | with_reducible apply State.regWrite_kept
    | with_reducible apply State.bar0Write_kept

theorem execRcRegisterRead_kept {s t : State} {path : Path} {win offset : Nat} (e : execRcRegisterRead path win offset s = .next t) : Kept s t := by
  have hk := Kept.refl s
  unfold execRcRegisterRead at e
  try dsimp only at e
  repeat' split at e
  all_goals simp only [Host.Outcome.next.injEq] at e
  all_goals subst e
  repeat' first
    | with_reducible assumption
    | intro _
    | with_reducible apply State.regRead_kept
    | with_reducible refine State.regRead_kept' (by assumption) ?_
    | with_reducible apply State.readBeyond_kept
    | with_reducible apply State.answer_kept

theorem execLinkCounterRead_kept {s t : State} {path : Path} {win offset : Nat} (e : execLinkCounterRead path win offset s = .next t) : Kept s t := by
  have hk := Kept.refl s
  unfold execLinkCounterRead at e
  try dsimp only at e
  repeat' split at e
  all_goals simp only [Host.Outcome.next.injEq] at e
  all_goals subst e
  repeat' first
    | with_reducible assumption
    | intro _
    | with_reducible apply State.regRead_kept
    | with_reducible refine State.regRead_kept' (by assumption) ?_
    | with_reducible apply State.readBeyond_kept
    | with_reducible apply State.answer_kept

theorem execBadAccessRead_kept {s t : State} {path : Path} {win offset size : Nat} (e : execBadAccessRead path win offset size s = .next t) : Kept s t := by
  have hk := Kept.refl s
  unfold execBadAccessRead at e
  try dsimp only at e
  repeat' split at e
  all_goals simp only [Host.Outcome.next.injEq] at e
  all_goals subst e
  repeat' first
    | with_reducible assumption
    | intro _
    | with_reducible apply State.regRead_kept
    | with_reducible refine State.regRead_kept' (by assumption) ?_
    | with_reducible apply State.bar0Read_kept
    | with_reducible refine State.bar0Read_kept' (by assumption) ?_
    | with_reducible apply State.readBeyond_kept
    | with_reducible apply State.answer_kept

theorem execWideSelWrite_kept {s t : State} {path : Path} {win : Nat} {data : Word} (e : execWideSelWrite path win data s = .next t) : Kept s t := by
  have hk := Kept.refl s
  unfold execWideSelWrite at e
  try dsimp only at e
  repeat' split at e
  all_goals simp only [Host.Outcome.next.injEq] at e
  all_goals subst e
  repeat' first
    | with_reducible assumption
    | intro _
    | with_reducible apply State.regWrite_kept

theorem execWideCapture_kept {s t : State} {win : Nat} (e : execWideCapture win s = .next t) : Kept s t := by
  have hk := Kept.refl s
  unfold execWideCapture at e
  try dsimp only at e
  repeat' split at e
  all_goals simp only [Host.Outcome.next.injEq] at e
  all_goals subst e
  repeat' first
    | with_reducible assumption
    | intro _
    | with_reducible apply State.modWindow_kept
    | with_reducible apply State.wideItem_kept
    | with_reducible refine State.wideItem_kept' (by assumption) ?_

theorem execStreamReset_kept {s t : State} {path : Path} {quarter : Nat} {cls : StreamClass} (e : execStreamReset path quarter cls s = .next t) : Kept s t := by
  have hk := Kept.refl s
  unfold execStreamReset at e
  try dsimp only at e
  repeat' split at e
  all_goals simp only [Host.Outcome.next.injEq] at e
  all_goals subst e
  repeat' first
    | with_reducible assumption
    | intro _
    | with_reducible apply State.resetBy_kept

theorem execPartitionReset_kept {s t : State} {path : Path} {quarter : Nat} (e : execPartitionReset path quarter s = .next t) : Kept s t := by
  have hk := Kept.refl s
  unfold execPartitionReset at e
  try dsimp only at e
  repeat' split at e
  all_goals simp only [Host.Outcome.next.injEq] at e
  all_goals subst e
  repeat' first
    | with_reducible assumption
    | intro _
    | with_reducible apply State.resetBy_kept

theorem execModuleReset_kept {s t : State} {path : Path} (e : execModuleReset path s = .next t) : Kept s t := by
  have hk := Kept.refl s
  unfold execModuleReset at e
  all_goals simp only [Host.Outcome.next.injEq] at e
  all_goals subst e
  repeat' first
    | with_reducible assumption
    | intro _
    | with_reducible apply State.resetBy_kept

theorem execRegMsg_kept {s t : State} {port : Nat} {m : Msg} (e : execRegMsg port m s = .next t) : Kept s t := by
  have hk := Kept.refl s
  unfold execRegMsg at e
  all_goals simp only [Host.Outcome.next.injEq] at e
  all_goals subst e
  repeat' first
    | with_reducible assumption
    | intro _
    | with_reducible apply State.receive_kept
    | with_reducible apply State.serveReg_kept

theorem execRegRespMsg_kept {s t : State} {port : Nat} {m : Msg} (e : execRegRespMsg port m s = .next t) : Kept s t := by
  have hk := Kept.refl s
  unfold execRegRespMsg at e
  try dsimp only at e
  all_goals simp only [Host.Outcome.next.injEq] at e
  all_goals subst e
  repeat' first
    | with_reducible assumption
    | intro _
    | with_reducible apply State.emit_kept
    | with_reducible apply State.receive_kept
    | split
    | with_reducible apply Kept.update

theorem execBar2Access_kept {s t : State} {fn offset size : Nat} {write : Option Word} (e : execBar2Access fn offset size write s = .next t) : Kept s t := by
  have hk := Kept.refl s
  unfold execBar2Access at e
  try dsimp only at e
  repeat' split at e
  all_goals simp only [Host.Outcome.next.injEq] at e
  all_goals subst e
  repeat' first
    | with_reducible assumption
    | intro _
    | with_reducible apply State.emit_kept
    | with_reducible apply State.bar2_kept

theorem execApertureAccess_kept {s t : State} {fn offset : Nat} {access : ApertureOp} (e : execApertureAccess fn offset access s = .next t) : Kept s t := by
  have hk := Kept.refl s
  unfold execApertureAccess at e
  try dsimp only at e
  repeat' split at e
  all_goals simp only [Host.Outcome.next.injEq] at e
  all_goals subst e
  repeat' first
    | with_reducible assumption
    | intro _
    | with_reducible apply State.refuseAperture_kept
    | with_reducible apply State.apertureHere_kept
    | with_reducible apply State.apertureThere_kept

theorem execBridgeReadTimeout_kept {s t : State} {msgId : Nat} (e : execBridgeReadTimeout msgId s = .next t) : Kept s t := by
  have hk := Kept.refl s
  unfold execBridgeReadTimeout at e
  try dsimp only at e
  repeat' split at e
  all_goals simp only [Host.Outcome.next.injEq] at e
  all_goals subst e
  repeat' first
    | with_reducible assumption
    | intro _
    | with_reducible apply State.readTimedOut_kept
    | split
    | with_reducible apply Kept.update

theorem execMsixUnmask_kept {s t : State} {fn vector : Nat} (e : execMsixUnmask fn vector s = .next t) : Kept s t := by
  have hk := Kept.refl s
  unfold execMsixUnmask at e
  try dsimp only at e
  repeat' split at e
  all_goals simp only [Host.Outcome.next.injEq] at e
  all_goals subst e
  repeat' first
    | with_reducible assumption
    | intro _
    | with_reducible apply State.setMsix_kept

theorem execPcieHotReset_kept {s t : State}  (e : execPcieHotReset s = .next t) : Kept s t := by
  have hk := Kept.refl s
  unfold execPcieHotReset at e
  try dsimp only at e
  repeat' split at e
  all_goals simp only [Host.Outcome.next.injEq] at e
  all_goals subst e
  repeat' first
    | with_reducible assumption
    | intro _
    | with_reducible apply State.endpointReset_kept

theorem execPcieLinkUp_kept {s t : State} {speed width : Nat} (e : execPcieLinkUp speed width s = .next t) : Kept s t := by
  have hk := Kept.refl s
  unfold execPcieLinkUp at e
  try dsimp only at e
  repeat' split at e
  all_goals simp only [Host.Outcome.next.injEq] at e
  all_goals subst e
  repeat' first
    | with_reducible assumption
    | intro _
    | split
    | with_reducible apply Kept.update

theorem execThrottleTick_kept {s t : State} {sensors : Sensors} (e : execThrottleTick sensors s = .next t) : Kept s t := by
  have hk := Kept.refl s
  unfold execThrottleTick at e
  try dsimp only at e
  repeat' split at e
  all_goals simp only [Host.Outcome.next.injEq] at e
  all_goals subst e
  repeat' first
    | with_reducible assumption
    | intro _
    | with_reducible apply State.modHalf_kept
    | split
    | with_reducible apply Kept.update

theorem execAclkStep_kept {s t : State} {half : Nat} (e : execAclkStep half s = .next t) : Kept s t := by
  have hk := Kept.refl s
  unfold execAclkStep at e
  try dsimp only at e
  repeat' split at e
  all_goals simp only [Host.Outcome.next.injEq] at e
  all_goals subst e
  repeat' first
    | with_reducible assumption
    | intro _
    | with_reducible apply State.modHalf_kept

theorem execThermalTrip_kept {s t : State} {cause : TripCause} (e : execThermalTrip cause s = .next t) : Kept s t := by
  have hk := Kept.refl s
  unfold execThermalTrip at e
  try dsimp only at e
  repeat' split at e
  all_goals simp only [Host.Outcome.next.injEq] at e
  all_goals subst e
  repeat' first
    | with_reducible assumption
    | intro _
    | with_reducible apply State.trip_kept
    | split
    | with_reducible apply Kept.update

theorem execWatchdogExpiry_kept {s t : State}  (e : execWatchdogExpiry s = .next t) : Kept s t := by
  have hk := Kept.refl s
  unfold execWatchdogExpiry at e
  try dsimp only at e
  repeat' split at e
  all_goals simp only [Host.Outcome.next.injEq] at e
  all_goals subst e
  repeat' first
    | with_reducible assumption
    | intro _
    | with_reducible apply State.goFatal_kept

theorem execSytenFatalError_kept {s t : State} {cause : SytenError} (e : execSytenFatalError cause s = .next t) : Kept s t := by
  have hk := Kept.refl s
  unfold execSytenFatalError at e
  try dsimp only at e
  repeat' split at e
  all_goals simp only [Host.Outcome.next.injEq] at e
  all_goals subst e
  repeat' first
    | with_reducible assumption
    | intro _
    | with_reducible apply State.goFatal_kept

theorem execPllLossOfLock_kept {s t : State} {clock : Nat} (e : execPllLossOfLock clock s = .next t) : Kept s t := by
  have hk := Kept.refl s
  unfold execPllLossOfLock at e
  try dsimp only at e
  repeat' split at e
  all_goals simp only [Host.Outcome.next.injEq] at e
  all_goals subst e
  repeat' first
    | with_reducible assumption
    | intro _
    | with_reducible apply State.setDeviceSummary_kept
    | with_reducible apply State.goFatal_kept
    | with_reducible apply State.stopClock_kept
    | with_reducible apply State.logClock_kept
    | split
    | with_reducible apply Kept.update

theorem execQuiesceReached_kept {s t : State} {part : Nat} (e : execQuiesceReached part s = .next t) : Kept s t := by
  have hk := Kept.refl s
  unfold execQuiesceReached at e
  try dsimp only at e
  repeat' split at e
  all_goals simp only [Host.Outcome.next.injEq] at e
  all_goals subst e
  repeat' first
    | with_reducible assumption
    | intro _
    | with_reducible apply State.modPart_kept
    | with_reducible apply State.drainPart_kept

theorem execStandbyReached_kept {s t : State} {part : Nat} (e : execStandbyReached part s = .next t) : Kept s t := by
  have hk := Kept.refl s
  unfold execStandbyReached at e
  try dsimp only at e
  repeat' split at e
  all_goals simp only [Host.Outcome.next.injEq] at e
  all_goals subst e
  repeat' first
    | with_reducible assumption
    | intro _
    | with_reducible apply State.modPart_kept
    | with_reducible apply State.drainPart_kept
    | with_reducible apply State.portDown_kept
    | with_reducible apply State.powerOffHalf_kept
    | (with_reducible refine kept_foldl ?_ ?_ _; intro _ _ _)
    | split

theorem execStandbyWakeDone_kept {s t : State} {part : Nat} (e : execStandbyWakeDone part s = .next t) : Kept s t := by
  have hk := Kept.refl s
  unfold execStandbyWakeDone at e
  try dsimp only at e
  repeat' split at e
  all_goals simp only [Host.Outcome.next.injEq] at e
  all_goals subst e
  repeat' first
    | with_reducible assumption
    | intro _
    | with_reducible apply State.modPart_kept
    | with_reducible apply State.modPort_kept
    | with_reducible apply State.openPart_kept
    | with_reducible apply State.wakeMemory_kept
    | (with_reducible refine kept_foldl ?_ ?_ _; intro _ _ _)
    | split
    | with_reducible apply Kept.update

theorem execBenchIdleGate_kept {s t : State} {bench : Nat} (e : execBenchIdleGate bench s = .next t) : Kept s t := by
  have hk := Kept.refl s
  unfold execBenchIdleGate at e
  try dsimp only at e
  repeat' split at e
  all_goals simp only [Host.Outcome.next.injEq] at e
  all_goals subst e
  repeat' first
    | with_reducible assumption
    | intro _
    | split
    | with_reducible apply Kept.update

theorem execGeoIdSample_kept {s t : State} {pins : Nat} (e : execGeoIdSample pins s = .next t) : Kept s t := by
  have hk := Kept.refl s
  unfold execGeoIdSample at e
  try dsimp only at e
  repeat' split at e
  all_goals simp only [Host.Outcome.next.injEq] at e
  all_goals subst e
  repeat' first
    | with_reducible assumption
    | intro _
    | split
    | with_reducible apply Kept.update

theorem execRegWrite_kept {s t : State} {pecOk : Bool} {payload : List Byte} (e : execRegWrite pecOk payload s = .next t) : Kept s t := by
  have hk := Kept.refl s
  unfold execRegWrite at e
  try dsimp only at e
  all_goals simp only [Host.Outcome.next.injEq] at e
  all_goals subst e
  repeat' first
    | with_reducible assumption
    | intro _
    | with_reducible apply State.regWrite_kept
    | with_reducible apply State.blockWrite_kept
    | split

theorem execRegAddr_kept {s t : State} {pecOk : Bool} {payload : List Byte} (e : execRegAddr pecOk payload s = .next t) : Kept s t := by
  have hk := Kept.refl s
  unfold execRegAddr at e
  all_goals simp only [Host.Outcome.next.injEq] at e
  all_goals subst e
  repeat' first
    | with_reducible assumption
    | intro _
    | with_reducible apply State.blockWrite_kept
    | split
    | with_reducible apply Kept.update

theorem execRegRead_kept {s t : State} {pecOk : Bool} (e : execRegRead pecOk s = .next t) : Kept s t := by
  have hk := Kept.refl s
  unfold execRegRead at e
  try dsimp only at e
  repeat' split at e
  all_goals simp only [Host.Outcome.next.injEq] at e
  all_goals subst e
  repeat' first
    | with_reducible assumption
    | intro _
    | with_reducible apply State.emit_kept
    | with_reducible apply State.smbusRead_kept

theorem execCfgOpen_kept {s t : State} {pecOk : Bool} {payload : List Byte} (e : execCfgOpen pecOk payload s = .next t) : Kept s t := by
  have hk := Kept.refl s
  unfold execCfgOpen at e
  try dsimp only at e
  all_goals simp only [Host.Outcome.next.injEq] at e
  all_goals subst e
  repeat' first
    | with_reducible assumption
    | intro _
    | with_reducible apply State.emit_kept
    | with_reducible apply State.blockWrite_kept
    | split
    | with_reducible apply Kept.update

theorem execCfgData_kept {s t : State} {pecOk : Bool} {payload : List Byte} (e : execCfgData pecOk payload s = .next t) : Kept s t := by
  have hk := Kept.refl s
  unfold execCfgData at e
  try dsimp only at e
  all_goals simp only [Host.Outcome.next.injEq] at e
  all_goals subst e
  repeat' first
    | with_reducible assumption
    | intro _
    | with_reducible apply State.emit_kept
    | with_reducible apply State.blockWrite_kept
    | split
    | with_reducible apply Kept.update

theorem execCfgClose_kept {s t : State} {pecOk : Bool} {payload : List Byte} (e : execCfgClose pecOk payload s = .next t) : Kept s t := by
  have hk := Kept.refl s
  unfold execCfgClose at e
  try dsimp only at e
  all_goals simp only [Host.Outcome.next.injEq] at e
  all_goals subst e
  repeat' first
    | with_reducible assumption
    | intro _
    | with_reducible apply State.emit_kept
    | with_reducible apply State.blockWrite_kept
    | split
    | with_reducible apply Kept.update

theorem execCfgWriteDone_kept {s t : State} {flashOk : Bool} (e : execCfgWriteDone flashOk s = .next t) : Kept s t := by
  have hk := Kept.refl s
  unfold execCfgWriteDone at e
  try dsimp only at e
  repeat' split at e
  all_goals simp only [Host.Outcome.next.injEq] at e
  all_goals subst e
  repeat' first
    | with_reducible assumption
    | intro _
    | split
    | with_reducible apply Kept.update

theorem execCfgStatus_kept {s t : State} {pecOk : Bool} (e : execCfgStatus pecOk s = .next t) : Kept s t := by
  have hk := Kept.refl s
  unfold execCfgStatus at e
  try dsimp only at e
  repeat' split at e
  all_goals simp only [Host.Outcome.next.injEq] at e
  all_goals subst e
  repeat' first
    | with_reducible assumption
    | intro _
    | with_reducible apply State.emit_kept

theorem execAlertResponse_kept {s t : State}  (e : execAlertResponse s = .next t) : Kept s t := by
  have hk := Kept.refl s
  unfold execAlertResponse at e
  try dsimp only at e
  repeat' split at e
  all_goals simp only [Host.Outcome.next.injEq] at e
  all_goals subst e
  repeat' first
    | with_reducible assumption
    | intro _
    | with_reducible apply State.emit_kept

theorem execUnlockReq_kept {s t : State} {frame : List Byte} (e : execUnlockReq frame s = .next t) : Kept s t := by
  have hk := Kept.refl s
  unfold execUnlockReq at e
  all_goals simp only [Host.Outcome.next.injEq] at e
  all_goals subst e
  repeat' first
    | with_reducible assumption
    | intro _
    | with_reducible apply State.uartArrives_kept

theorem execAnswer_kept {s t : State} {frame : List Byte} (e : execAnswer frame s = .next t) : Kept s t := by
  have hk := Kept.refl s
  unfold execAnswer at e
  all_goals simp only [Host.Outcome.next.injEq] at e
  all_goals subst e
  repeat' first
    | with_reducible assumption
    | intro _
    | with_reducible apply State.uartArrives_kept

end Sys2Proof.Machine
end

