-- ==== Sys2Proof/Laws/Parts.lean ====
section
/-! SUPPORT. What the small shared operations do, once each: partitions and ports replaced in place, addresses reached, bytes of a
number, contexts of a packet, messages that arrive and are accepted. -/

namespace Sys2Proof.Machine

/-! Bytes of a number. -/

theorem toLe_length (n x : Nat) : (toLe n x).length = n := by
  induction n generalizing x with
  | zero => rfl
  | succ n ih => simp [toLe, ih]

theorem leNat_toLe (n x : Nat) : leNat (toLe n x) = x % 2 ^ (8 * n) := by
  induction n generalizing x with
  | zero => simp [toLe, leNat, Nat.mod_one]
  | succ n ih =>
    have : 2 ^ (8 * (n + 1)) = 256 * 2 ^ (8 * n) := by rw [Nat.mul_succ, Nat.pow_add]; omega
    rw [toLe, leNat, ih, BitVec.toNat_ofNat, this, Nat.mod_mul]

/-! Folds that keep a view of the state. -/

theorem fold_same {α β : Type} (g : State → β) (f : State → α → State) (h : ∀ s x, g (f s x) = g s) (l : List α) (s : State) :
    g (l.foldl f s) = g s := by
  induction l generalizing s with
  | nil => rfl
  | cons a l ih => rw [List.foldl_cons, ih, h]

/-! Partitions replaced in place. -/

theorem State.modPart_const {s : State} {p : Nat} (f : Part → Part) (h : p < s.parts.length) :
    s.modPart p f = s.modPart p fun _ => f (s.part p) := by
  unfold State.modPart
  congr 1
  rw [List.modify_eq_set_getElem?, List.modify_eq_set_getElem?]
  simp [State.part, List.getElem?_eq_getElem h]

theorem State.modPart_again (s : State) (p : Nat) (P : Part) (f : Part → Part) :
    (s.modPart p fun _ => P).modPart p f = s.modPart p fun _ => f P := by
  unfold State.modPart
  congr 1
  exact List.modify_modify_eq _ _ _ _

theorem State.modPart_congr {s : State} {p : Nat} {f g : Part → Part} (h : f (s.part p) = g (s.part p)) : s.modPart p f = s.modPart p g := by
  unfold State.modPart
  congr 1
  by_cases hp : p < s.parts.length
  · rw [List.modify_eq_set_getElem?, List.modify_eq_set_getElem?]
    unfold State.part at h
    simp only [List.getElem?_eq_getElem hp, Option.getD_some] at h
    simp [List.getElem?_eq_getElem hp, h]
  · rw [List.modify_eq_self (by omega), List.modify_eq_self (by omega)]

/-! Ports replaced in place. -/

theorem State.port_modPort {s : State} {i : Nat} {f : Port → Port} (h : i < s.ports.length) : (s.modPort i f).port i = f (s.port i) := by
  unfold State.port State.modPort
  simp [List.getElem?_eq_getElem h]

theorem State.port_modPort_ne {s : State} {i j : Nat} {f : Port → Port} (h : i ≠ j) : (s.modPort i f).port j = s.port j := by
  unfold State.port State.modPort
  simp [h]

theorem Port.consume_keys (p : Port) (m : Msg) : (p.consume m).keys = p.keys := by unfold Port.consume; split <;> rfl

theorem State.consume_keys (s : State) (i : Nat) (m : Msg) : ((s.modPort i fun p => p.consume m).port i).keys = (s.port i).keys := by
  by_cases h : i < s.ports.length
  · rw [State.port_modPort h, Port.consume_keys]
  · unfold State.port State.modPort; simp [List.getElem?_eq_none (Nat.le_of_not_lt h)]

/-! Addresses: what a change to the partitions, to the ports or to what leaves cannot change. -/

/-- The fields that say which unit holds an address and whether it answers. -/
structure Same (s t : State) : Prop where
  mode : t.lowQ = s.lowQ
  quarters : t.quartersPer = s.quartersPer
  clocks : t.clocksLost = s.clocksLost
  stackOff : t.stacksOff = s.stacksOff
  slices : t.retiredSlices = s.retiredSlices
  channels : t.channels = s.channels
  halves : t.halvesDown = s.halvesDown

theorem Same.ownerOf {s t : State} (h : Same s t) (a : Nat) : t.ownerOf a = s.ownerOf a := by
  simp only [State.ownerOf, h.mode]
theorem Same.localOf {s t : State} (h : Same s t) (a : Nat) : t.localOf a = s.localOf a := by
  simp only [State.localOf, h.ownerOf, h.quarters]
theorem Same.unitUp {s t : State} (h : Same s t) (k : MemKind) (u : Nat) : t.unitUp k u = s.unitUp k u := by
  simp only [State.unitUp, h.clocks, h.stackOff, h.slices, h.channels, h.halves]
theorem Same.addrUp {s t : State} (h : Same s t) (a : Nat) : t.addrUp a = s.addrUp a := by
  simp only [State.addrUp, h.localOf, h.unitUp]
theorem Same.reachable {s t : State} (h : Same s t) (a len : Nat) : t.reachable a len = s.reachable a len := by
  simp only [State.reachable, h.addrUp, h.clocks, h.stackOff, h.slices, h.channels, h.halves]

theorem Same.modPart (s : State) (p : Nat) (f : Part → Part) : Same s (s.modPart p f) := ⟨rfl, rfl, rfl, rfl, rfl, rfl, rfl⟩
theorem Same.modPort (s : State) (i : Nat) (f : Port → Port) : Same s (s.modPort i f) := ⟨rfl, rfl, rfl, rfl, rfl, rfl, rfl⟩

/-! The context of a packet, and a record ring that is not held. -/

theorem State.ctx_state {s : State} {part : Nat} {k : Packet} {c : Ctx} (h : s.ctx part k = some c) : c.s = s ∧ c.p = part ∧ c.pkt = k := by
  unfold State.ctx at h
  cases hs : k.snap with
  | none => simp [hs] at h
  | some sn => simp [hs] at h; subst h; exact ⟨rfl, rfl, rfl⟩

theorem State.flushRing_none {fuel p ring : Nat} {s : State} (h : ∀ x ∈ (s.part p).packets, x.phase ≠ .recordHeld) :
    State.flushRing fuel p ring s = s := by
  cases fuel with
  | zero => rfl
  | succ n =>
    have : (s.part p).packets.find? (fun k => k.ring == ring && k.phase == .recordHeld) = none := by
      rw [List.find?_eq_none]; intro x hx; simp; intro _; exact h x hx
    simp only [State.flushRing, this]

/-! Messages. -/

/-- A message of the type, for this endpoint and on its channel, at a port that is up in a half that is up, is taken out of its stream and
acted on (R9, R310). -/
theorem State.receive_arrives {s : State} {i t : Nat} {m : Msg} (h1 : s.runsLanug i = true) (h2 : (s.port i).state = .up)
    (hh : s.halvesDown.contains (portHalf i) = false) (h3 : m.mtype = t)
    (h4 : m.dstEp = s.endpoint) (h5 : ∀ v, (s.port i).carrying m = some v → v = vcOf t) (ht : t ≠ 0) (ht9 : t ≤ 9) (f : State → State) :
    s.receive i t m f = f (s.modPort i fun p => p.consume m) := by
  unfold State.receive
  rw [h1, h2, hh]
  simp only [Bool.not_true, Bool.false_or, Bool.or_false]
  have hb : (PortState.up != PortState.up) = false := by decide
  rw [hb, if_neg (by decide)]
  have hcar : (match (s.port i).carrying m with | some v => v != vcOf m.mtype | none => false) ≠ true := by
    cases hc : (s.port i).carrying m with
    | none => simp
    | some v => have := h5 v hc; simp [this, h3]
  rw [if_neg, if_neg (by simp [h3])]
  rintro (h | h | h | h)
  · omega
  · omega
  · exact h h4
  · exact hcar h

/-- A message that passes every row of Table 14.3 is acted on (R333, R433). -/
theorem State.checked_accepts {s : State} {i p : Nat} {m : Msg} (h1 : s.isPart p = true) (h2 : (s.part p).pstate ≠ .standby)
    (h3 : (s.part p).pstate ≠ .waking) (h4 : (s.part p).confidential = true → (s.port i).keys.isSome = true) (h5 : (s.part p).members ≠ [])
    (h6 : (s.part p).quarantined = false) (h7 : m.srcEp ∈ (s.part p).members) (h8 : m.epoch = (s.part p).epoch) (b : Bool) (f : State → State) :
    s.checked i p m b f = f s := by
  unfold State.checked
  dsimp only
  rw [h1]
  rw [if_neg]
  · rw [if_neg, if_neg, if_neg, if_neg, if_neg]
    · omega
    · omega
    · simp [h7]
    · rw [h6]; simpa using h5
    · cases hc : (s.part p).confidential with
      | false => simp
      | true => have := h4 hc; simp [Option.isNone_eq_false_iff.2 this]
  · cases hst : (s.part p).pstate <;> simp_all

end Sys2Proof.Machine
end

