-- ==== Sys2Proof/Laws/State.lean ====
section
/-! SUPPORT. What the updates of one partition, window, port, half or output leave of each field of State, and what a lookup finds after
them. -/

namespace Sys2Proof.Machine

variable (s : State)

/-! modPart changes parts alone. -/

@[simp] theorem State.modPart_pending (p : Nat) (f : Part → Part) : (s.modPart p f).pending = s.pending := rfl
@[simp] theorem State.modPart_quartersPer (p : Nat) (f : Part → Part) : (s.modPart p f).quartersPer = s.quartersPer := rfl
@[simp] theorem State.modPart_windows (p : Nat) (f : Part → Part) : (s.modPart p f).windows = s.windows := rfl
@[simp] theorem State.modPart_mem (p : Nat) (f : Part → Part) : (s.modPart p f).mem = s.mem := rfl
@[simp] theorem State.modPart_poison (p : Nat) (f : Part → Part) : (s.modPart p f).poison = s.poison := rfl
@[simp] theorem State.modPart_faults (p : Nat) (f : Part → Part) : (s.modPart p f).faults = s.faults := rfl
@[simp] theorem State.modPart_merge (p : Nat) (f : Part → Part) : (s.modPart p f).merge = s.merge := rfl
@[simp] theorem State.modPart_scrubSettings (p : Nat) (f : Part → Part) : (s.modPart p f).scrubSettings = s.scrubSettings := rfl
@[simp] theorem State.modPart_scrubbers (p : Nat) (f : Part → Part) : (s.modPart p f).scrubbers = s.scrubbers := rfl
@[simp] theorem State.modPart_trackers (p : Nat) (f : Part → Part) : (s.modPart p f).trackers = s.trackers := rfl
@[simp] theorem State.modPart_remaps (p : Nat) (f : Part → Part) : (s.modPart p f).remaps = s.remaps := rfl
@[simp] theorem State.modPart_fuseScheduled (p : Nat) (f : Part → Part) : (s.modPart p f).fuseScheduled = s.fuseScheduled := rfl
@[simp] theorem State.modPart_fuseDone (p : Nat) (f : Part → Part) : (s.modPart p f).fuseDone = s.fuseDone := rfl
@[simp] theorem State.modPart_spares (p : Nat) (f : Part → Part) : (s.modPart p f).spares = s.spares := rfl
@[simp] theorem State.modPart_reserve (p : Nat) (f : Part → Part) : (s.modPart p f).reserve = s.reserve := rfl
@[simp] theorem State.modPart_retired (p : Nat) (f : Part → Part) : (s.modPart p f).retired = s.retired := rfl
@[simp] theorem State.modPart_retiredSlices (p : Nat) (f : Part → Part) : (s.modPart p f).retiredSlices = s.retiredSlices := rfl
@[simp] theorem State.modPart_busy (p : Nat) (f : Part → Part) : (s.modPart p f).busy = s.busy := rfl
@[simp] theorem State.modPart_stall (p : Nat) (f : Part → Part) : (s.modPart p f).stall = s.stall := rfl
@[simp] theorem State.modPart_banks (p : Nat) (f : Part → Part) : (s.modPart p f).banks = s.banks := rfl
@[simp] theorem State.modPart_riddles (p : Nat) (f : Part → Part) : (s.modPart p f).riddles = s.riddles := rfl
@[simp] theorem State.modPart_residues (p : Nat) (f : Part → Part) : (s.modPart p f).residues = s.residues := rfl
@[simp] theorem State.modPart_retiring (p : Nat) (f : Part → Part) : (s.modPart p f).retiring = s.retiring := rfl
@[simp] theorem State.modPart_faultyArrays (p : Nat) (f : Part → Part) : (s.modPart p f).faultyArrays = s.faultyArrays := rfl
@[simp] theorem State.modPart_gatedBenches (p : Nat) (f : Part → Part) : (s.modPart p f).gatedBenches = s.gatedBenches := rfl
@[simp] theorem State.modPart_stacksOff (p : Nat) (f : Part → Part) : (s.modPart p f).stacksOff = s.stacksOff := rfl
@[simp] theorem State.modPart_dimms (p : Nat) (f : Part → Part) : (s.modPart p f).dimms = s.dimms := rfl
@[simp] theorem State.modPart_channels (p : Nat) (f : Part → Part) : (s.modPart p f).channels = s.channels := rfl
@[simp] theorem State.modPart_chanReason (p : Nat) (f : Part → Part) : (s.modPart p f).chanReason = s.chanReason := rfl
@[simp] theorem State.modPart_sumpRate (p : Nat) (f : Part → Part) : (s.modPart p f).sumpRate = s.sumpRate := rfl
@[simp] theorem State.modPart_sumpCapacity (p : Nat) (f : Part → Part) : (s.modPart p f).sumpCapacity = s.sumpCapacity := rfl
@[simp] theorem State.modPart_fabric (p : Nat) (f : Part → Part) : (s.modPart p f).fabric = s.fabric := rfl
@[simp] theorem State.modPart_crossingsRetired (p : Nat) (f : Part → Part) : (s.modPart p f).crossingsRetired = s.crossingsRetired := rfl
@[simp] theorem State.modPart_halvesDown (p : Nat) (f : Part → Part) : (s.modPart p f).halvesDown = s.halvesDown := rfl
@[simp] theorem State.modPart_ports (p : Nat) (f : Part → Part) : (s.modPart p f).ports = s.ports := rfl
@[simp] theorem State.modPart_clocksLost (p : Nat) (f : Part → Part) : (s.modPart p f).clocksLost = s.clocksLost := rfl
@[simp] theorem State.modPart_halves (p : Nat) (f : Part → Part) : (s.modPart p f).halves = s.halves := rfl
@[simp] theorem State.modPart_sensors (p : Nat) (f : Part → Part) : (s.modPart p f).sensors = s.sensors := rfl
@[simp] theorem State.modPart_slowPower (p : Nat) (f : Part → Part) : (s.modPart p f).slowPower = s.slowPower := rfl
@[simp] theorem State.modPart_overTicks (p : Nat) (f : Part → Part) : (s.modPart p f).overTicks = s.overTicks := rfl
@[simp] theorem State.modPart_mclk (p : Nat) (f : Part → Part) : (s.modPart p f).mclk = s.mclk := rfl
@[simp] theorem State.modPart_vin (p : Nat) (f : Part → Part) : (s.modPart p f).vin = s.vin := rfl
@[simp] theorem State.modPart_pwrEn (p : Nat) (f : Part → Part) : (s.modPart p f).pwrEn = s.pwrEn := rfl
@[simp] theorem State.modPart_pwrGood (p : Nat) (f : Part → Part) : (s.modPart p f).pwrGood = s.pwrGood := rfl
@[simp] theorem State.modPart_aonUp (p : Nat) (f : Part → Part) : (s.modPart p f).aonUp = s.aonUp := rfl
@[simp] theorem State.modPart_mainUp (p : Nat) (f : Part → Part) : (s.modPart p f).mainUp = s.mainUp := rfl
@[simp] theorem State.modPart_perstLow (p : Nat) (f : Part → Part) : (s.modPart p f).perstLow = s.perstLow := rfl
@[simp] theorem State.modPart_bootStage (p : Nat) (f : Part → Part) : (s.modPart p f).bootStage = s.bootStage := rfl
@[simp] theorem State.modPart_bootHeld (p : Nat) (f : Part → Part) : (s.modPart p f).bootHeld = s.bootHeld := rfl
@[simp] theorem State.modPart_ready (p : Nat) (f : Part → Part) : (s.modPart p f).ready = s.ready := rfl
@[simp] theorem State.modPart_bootMs (p : Nat) (f : Part → Part) : (s.modPart p f).bootMs = s.bootMs := rfl
@[simp] theorem State.modPart_boot (p : Nat) (f : Part → Part) : (s.modPart p f).boot = s.boot := rfl
@[simp] theorem State.modPart_bootModule (p : Nat) (f : Part → Part) : (s.modPart p f).bootModule = s.bootModule := rfl
@[simp] theorem State.modPart_configDefault (p : Nat) (f : Part → Part) : (s.modPart p f).configDefault = s.configDefault := rfl
@[simp] theorem State.modPart_board (p : Nat) (f : Part → Part) : (s.modPart p f).board = s.board := rfl
@[simp] theorem State.modPart_flashImage (p : Nat) (f : Part → Part) : (s.modPart p f).flashImage = s.flashImage := rfl
@[simp] theorem State.modPart_cfg (p : Nat) (f : Part → Part) : (s.modPart p f).cfg = s.cfg := rfl
@[simp] theorem State.modPart_geoPins (p : Nat) (f : Part → Part) : (s.modPart p f).geoPins = s.geoPins := rfl
@[simp] theorem State.modPart_geoId (p : Nat) (f : Part → Part) : (s.modPart p f).geoId = s.geoId := rfl
@[simp] theorem State.modPart_smbusTarget (p : Nat) (f : Part → Part) : (s.modPart p f).smbusTarget = s.smbusTarget := rfl
@[simp] theorem State.modPart_fatal (p : Nat) (f : Part → Part) : (s.modPart p f).fatal = s.fatal := rfl
@[simp] theorem State.modPart_tripped (p : Nat) (f : Part → Part) : (s.modPart p f).tripped = s.tripped := rfl
@[simp] theorem State.modPart_converterFault (p : Nat) (f : Part → Part) : (s.modPart p f).converterFault = s.converterFault := rfl
@[simp] theorem State.modPart_debugUnlocked (p : Nat) (f : Part → Part) : (s.modPart p f).debugUnlocked = s.debugUnlocked := rfl
@[simp] theorem State.modPart_jtagOpen (p : Nat) (f : Part → Part) : (s.modPart p f).jtagOpen = s.jtagOpen := rfl
@[simp] theorem State.modPart_challenge (p : Nat) (f : Part → Part) : (s.modPart p f).challenge = s.challenge := rfl
@[simp] theorem State.modPart_lastRefused (p : Nat) (f : Part → Part) : (s.modPart p f).lastRefused = s.lastRefused := rfl
@[simp] theorem State.modPart_refclk (p : Nat) (f : Part → Part) : (s.modPart p f).refclk = s.refclk := rfl
@[simp] theorem State.modPart_pcieSpeed (p : Nat) (f : Part → Part) : (s.modPart p f).pcieSpeed = s.pcieSpeed := rfl
@[simp] theorem State.modPart_pcieWidth (p : Nat) (f : Part → Part) : (s.modPart p f).pcieWidth = s.pcieWidth := rfl
@[simp] theorem State.modPart_msixTable (p : Nat) (f : Part → Part) : (s.modPart p f).msixTable = s.msixTable := rfl
@[simp] theorem State.modPart_msixPending (p : Nat) (f : Part → Part) : (s.modPart p f).msixPending = s.msixPending := rfl
@[simp] theorem State.modPart_bridgeReqs (p : Nat) (f : Part → Part) : (s.modPart p f).bridgeReqs = s.bridgeReqs := rfl
@[simp] theorem State.modPart_bridgeHeld (p : Nat) (f : Part → Part) : (s.modPart p f).bridgeHeld = s.bridgeHeld := rfl
@[simp] theorem State.modPart_nextMsgId (p : Nat) (f : Part → Part) : (s.modPart p f).nextMsgId = s.nextMsgId := rfl
@[simp] theorem State.modPart_change (p : Nat) (f : Part → Part) : (s.modPart p f).change = s.change := rfl
@[simp] theorem State.modPart_changeStart (p : Nat) (f : Part → Part) : (s.modPart p f).changeStart = s.changeStart := rfl
@[simp] theorem State.modPart_serial (p : Nat) (f : Part → Part) : (s.modPart p f).serial = s.serial := rfl
@[simp] theorem State.modPart_stepping (p : Nat) (f : Part → Part) : (s.modPart p f).stepping = s.stepping := rfl
@[simp] theorem State.modPart_romMeasure (p : Nat) (f : Part → Part) : (s.modPart p f).romMeasure = s.romMeasure := rfl
@[simp] theorem State.modPart_romDigest (p : Nat) (f : Part → Part) : (s.modPart p f).romDigest = s.romDigest := rfl
@[simp] theorem State.modPart_boardKeyDigest (p : Nat) (f : Part → Part) : (s.modPart p f).boardKeyDigest = s.boardKeyDigest := rfl
@[simp] theorem State.modPart_identityKey (p : Nat) (f : Part → Part) : (s.modPart p f).identityKey = s.identityKey := rfl
@[simp] theorem State.modPart_identityPub (p : Nat) (f : Part → Part) : (s.modPart p f).identityPub = s.identityPub := rfl
@[simp] theorem State.modPart_certificate (p : Nat) (f : Part → Part) : (s.modPart p f).certificate = s.certificate := rfl
@[simp] theorem State.modPart_rootKeyDigest (p : Nat) (f : Part → Part) : (s.modPart p f).rootKeyDigest = s.rootKeyDigest := rfl
@[simp] theorem State.modPart_debugKeyDigest (p : Nat) (f : Part → Part) : (s.modPart p f).debugKeyDigest = s.debugKeyDigest := rfl
@[simp] theorem State.modPart_draws (p : Nat) (f : Part → Part) : (s.modPart p f).draws = s.draws := rfl
@[simp] theorem State.modPart_out (p : Nat) (f : Part → Part) : (s.modPart p f).out = s.out := rfl

/-! modWindow changes windows alone. -/

@[simp] theorem State.modWindow_pending (w : Nat) (f : Window → Window) : (s.modWindow w f).pending = s.pending := rfl
@[simp] theorem State.modWindow_quartersPer (w : Nat) (f : Window → Window) : (s.modWindow w f).quartersPer = s.quartersPer := rfl
@[simp] theorem State.modWindow_parts (w : Nat) (f : Window → Window) : (s.modWindow w f).parts = s.parts := rfl
@[simp] theorem State.modWindow_mem (w : Nat) (f : Window → Window) : (s.modWindow w f).mem = s.mem := rfl
@[simp] theorem State.modWindow_poison (w : Nat) (f : Window → Window) : (s.modWindow w f).poison = s.poison := rfl
@[simp] theorem State.modWindow_faults (w : Nat) (f : Window → Window) : (s.modWindow w f).faults = s.faults := rfl
@[simp] theorem State.modWindow_merge (w : Nat) (f : Window → Window) : (s.modWindow w f).merge = s.merge := rfl
@[simp] theorem State.modWindow_scrubSettings (w : Nat) (f : Window → Window) : (s.modWindow w f).scrubSettings = s.scrubSettings := rfl
@[simp] theorem State.modWindow_scrubbers (w : Nat) (f : Window → Window) : (s.modWindow w f).scrubbers = s.scrubbers := rfl
@[simp] theorem State.modWindow_trackers (w : Nat) (f : Window → Window) : (s.modWindow w f).trackers = s.trackers := rfl
@[simp] theorem State.modWindow_remaps (w : Nat) (f : Window → Window) : (s.modWindow w f).remaps = s.remaps := rfl
@[simp] theorem State.modWindow_fuseScheduled (w : Nat) (f : Window → Window) : (s.modWindow w f).fuseScheduled = s.fuseScheduled := rfl
@[simp] theorem State.modWindow_fuseDone (w : Nat) (f : Window → Window) : (s.modWindow w f).fuseDone = s.fuseDone := rfl
@[simp] theorem State.modWindow_spares (w : Nat) (f : Window → Window) : (s.modWindow w f).spares = s.spares := rfl
@[simp] theorem State.modWindow_reserve (w : Nat) (f : Window → Window) : (s.modWindow w f).reserve = s.reserve := rfl
@[simp] theorem State.modWindow_retired (w : Nat) (f : Window → Window) : (s.modWindow w f).retired = s.retired := rfl
@[simp] theorem State.modWindow_retiredSlices (w : Nat) (f : Window → Window) : (s.modWindow w f).retiredSlices = s.retiredSlices := rfl
@[simp] theorem State.modWindow_busy (w : Nat) (f : Window → Window) : (s.modWindow w f).busy = s.busy := rfl
@[simp] theorem State.modWindow_stall (w : Nat) (f : Window → Window) : (s.modWindow w f).stall = s.stall := rfl
@[simp] theorem State.modWindow_banks (w : Nat) (f : Window → Window) : (s.modWindow w f).banks = s.banks := rfl
@[simp] theorem State.modWindow_riddles (w : Nat) (f : Window → Window) : (s.modWindow w f).riddles = s.riddles := rfl
@[simp] theorem State.modWindow_residues (w : Nat) (f : Window → Window) : (s.modWindow w f).residues = s.residues := rfl
@[simp] theorem State.modWindow_retiring (w : Nat) (f : Window → Window) : (s.modWindow w f).retiring = s.retiring := rfl
@[simp] theorem State.modWindow_faultyArrays (w : Nat) (f : Window → Window) : (s.modWindow w f).faultyArrays = s.faultyArrays := rfl
@[simp] theorem State.modWindow_gatedBenches (w : Nat) (f : Window → Window) : (s.modWindow w f).gatedBenches = s.gatedBenches := rfl
@[simp] theorem State.modWindow_stacksOff (w : Nat) (f : Window → Window) : (s.modWindow w f).stacksOff = s.stacksOff := rfl
@[simp] theorem State.modWindow_dimms (w : Nat) (f : Window → Window) : (s.modWindow w f).dimms = s.dimms := rfl
@[simp] theorem State.modWindow_channels (w : Nat) (f : Window → Window) : (s.modWindow w f).channels = s.channels := rfl
@[simp] theorem State.modWindow_chanReason (w : Nat) (f : Window → Window) : (s.modWindow w f).chanReason = s.chanReason := rfl
@[simp] theorem State.modWindow_sumpRate (w : Nat) (f : Window → Window) : (s.modWindow w f).sumpRate = s.sumpRate := rfl
@[simp] theorem State.modWindow_sumpCapacity (w : Nat) (f : Window → Window) : (s.modWindow w f).sumpCapacity = s.sumpCapacity := rfl
@[simp] theorem State.modWindow_fabric (w : Nat) (f : Window → Window) : (s.modWindow w f).fabric = s.fabric := rfl
@[simp] theorem State.modWindow_crossingsRetired (w : Nat) (f : Window → Window) : (s.modWindow w f).crossingsRetired = s.crossingsRetired := rfl
@[simp] theorem State.modWindow_halvesDown (w : Nat) (f : Window → Window) : (s.modWindow w f).halvesDown = s.halvesDown := rfl
@[simp] theorem State.modWindow_ports (w : Nat) (f : Window → Window) : (s.modWindow w f).ports = s.ports := rfl
@[simp] theorem State.modWindow_clocksLost (w : Nat) (f : Window → Window) : (s.modWindow w f).clocksLost = s.clocksLost := rfl
@[simp] theorem State.modWindow_halves (w : Nat) (f : Window → Window) : (s.modWindow w f).halves = s.halves := rfl
@[simp] theorem State.modWindow_sensors (w : Nat) (f : Window → Window) : (s.modWindow w f).sensors = s.sensors := rfl
@[simp] theorem State.modWindow_slowPower (w : Nat) (f : Window → Window) : (s.modWindow w f).slowPower = s.slowPower := rfl
@[simp] theorem State.modWindow_overTicks (w : Nat) (f : Window → Window) : (s.modWindow w f).overTicks = s.overTicks := rfl
@[simp] theorem State.modWindow_mclk (w : Nat) (f : Window → Window) : (s.modWindow w f).mclk = s.mclk := rfl
@[simp] theorem State.modWindow_vin (w : Nat) (f : Window → Window) : (s.modWindow w f).vin = s.vin := rfl
@[simp] theorem State.modWindow_pwrEn (w : Nat) (f : Window → Window) : (s.modWindow w f).pwrEn = s.pwrEn := rfl
@[simp] theorem State.modWindow_pwrGood (w : Nat) (f : Window → Window) : (s.modWindow w f).pwrGood = s.pwrGood := rfl
@[simp] theorem State.modWindow_aonUp (w : Nat) (f : Window → Window) : (s.modWindow w f).aonUp = s.aonUp := rfl
@[simp] theorem State.modWindow_mainUp (w : Nat) (f : Window → Window) : (s.modWindow w f).mainUp = s.mainUp := rfl
@[simp] theorem State.modWindow_perstLow (w : Nat) (f : Window → Window) : (s.modWindow w f).perstLow = s.perstLow := rfl
@[simp] theorem State.modWindow_bootStage (w : Nat) (f : Window → Window) : (s.modWindow w f).bootStage = s.bootStage := rfl
@[simp] theorem State.modWindow_bootHeld (w : Nat) (f : Window → Window) : (s.modWindow w f).bootHeld = s.bootHeld := rfl
@[simp] theorem State.modWindow_ready (w : Nat) (f : Window → Window) : (s.modWindow w f).ready = s.ready := rfl
@[simp] theorem State.modWindow_bootMs (w : Nat) (f : Window → Window) : (s.modWindow w f).bootMs = s.bootMs := rfl
@[simp] theorem State.modWindow_boot (w : Nat) (f : Window → Window) : (s.modWindow w f).boot = s.boot := rfl
@[simp] theorem State.modWindow_bootModule (w : Nat) (f : Window → Window) : (s.modWindow w f).bootModule = s.bootModule := rfl
@[simp] theorem State.modWindow_configDefault (w : Nat) (f : Window → Window) : (s.modWindow w f).configDefault = s.configDefault := rfl
@[simp] theorem State.modWindow_board (w : Nat) (f : Window → Window) : (s.modWindow w f).board = s.board := rfl
@[simp] theorem State.modWindow_flashImage (w : Nat) (f : Window → Window) : (s.modWindow w f).flashImage = s.flashImage := rfl
@[simp] theorem State.modWindow_cfg (w : Nat) (f : Window → Window) : (s.modWindow w f).cfg = s.cfg := rfl
@[simp] theorem State.modWindow_geoPins (w : Nat) (f : Window → Window) : (s.modWindow w f).geoPins = s.geoPins := rfl
@[simp] theorem State.modWindow_geoId (w : Nat) (f : Window → Window) : (s.modWindow w f).geoId = s.geoId := rfl
@[simp] theorem State.modWindow_smbusTarget (w : Nat) (f : Window → Window) : (s.modWindow w f).smbusTarget = s.smbusTarget := rfl
@[simp] theorem State.modWindow_fatal (w : Nat) (f : Window → Window) : (s.modWindow w f).fatal = s.fatal := rfl
@[simp] theorem State.modWindow_tripped (w : Nat) (f : Window → Window) : (s.modWindow w f).tripped = s.tripped := rfl
@[simp] theorem State.modWindow_converterFault (w : Nat) (f : Window → Window) : (s.modWindow w f).converterFault = s.converterFault := rfl
@[simp] theorem State.modWindow_debugUnlocked (w : Nat) (f : Window → Window) : (s.modWindow w f).debugUnlocked = s.debugUnlocked := rfl
@[simp] theorem State.modWindow_jtagOpen (w : Nat) (f : Window → Window) : (s.modWindow w f).jtagOpen = s.jtagOpen := rfl
@[simp] theorem State.modWindow_challenge (w : Nat) (f : Window → Window) : (s.modWindow w f).challenge = s.challenge := rfl
@[simp] theorem State.modWindow_lastRefused (w : Nat) (f : Window → Window) : (s.modWindow w f).lastRefused = s.lastRefused := rfl
@[simp] theorem State.modWindow_refclk (w : Nat) (f : Window → Window) : (s.modWindow w f).refclk = s.refclk := rfl
@[simp] theorem State.modWindow_pcieSpeed (w : Nat) (f : Window → Window) : (s.modWindow w f).pcieSpeed = s.pcieSpeed := rfl
@[simp] theorem State.modWindow_pcieWidth (w : Nat) (f : Window → Window) : (s.modWindow w f).pcieWidth = s.pcieWidth := rfl
@[simp] theorem State.modWindow_msixTable (w : Nat) (f : Window → Window) : (s.modWindow w f).msixTable = s.msixTable := rfl
@[simp] theorem State.modWindow_msixPending (w : Nat) (f : Window → Window) : (s.modWindow w f).msixPending = s.msixPending := rfl
@[simp] theorem State.modWindow_bridgeReqs (w : Nat) (f : Window → Window) : (s.modWindow w f).bridgeReqs = s.bridgeReqs := rfl
@[simp] theorem State.modWindow_bridgeHeld (w : Nat) (f : Window → Window) : (s.modWindow w f).bridgeHeld = s.bridgeHeld := rfl
@[simp] theorem State.modWindow_nextMsgId (w : Nat) (f : Window → Window) : (s.modWindow w f).nextMsgId = s.nextMsgId := rfl
@[simp] theorem State.modWindow_change (w : Nat) (f : Window → Window) : (s.modWindow w f).change = s.change := rfl
@[simp] theorem State.modWindow_changeStart (w : Nat) (f : Window → Window) : (s.modWindow w f).changeStart = s.changeStart := rfl
@[simp] theorem State.modWindow_serial (w : Nat) (f : Window → Window) : (s.modWindow w f).serial = s.serial := rfl
@[simp] theorem State.modWindow_stepping (w : Nat) (f : Window → Window) : (s.modWindow w f).stepping = s.stepping := rfl
@[simp] theorem State.modWindow_romMeasure (w : Nat) (f : Window → Window) : (s.modWindow w f).romMeasure = s.romMeasure := rfl
@[simp] theorem State.modWindow_romDigest (w : Nat) (f : Window → Window) : (s.modWindow w f).romDigest = s.romDigest := rfl
@[simp] theorem State.modWindow_boardKeyDigest (w : Nat) (f : Window → Window) : (s.modWindow w f).boardKeyDigest = s.boardKeyDigest := rfl
@[simp] theorem State.modWindow_identityKey (w : Nat) (f : Window → Window) : (s.modWindow w f).identityKey = s.identityKey := rfl
@[simp] theorem State.modWindow_identityPub (w : Nat) (f : Window → Window) : (s.modWindow w f).identityPub = s.identityPub := rfl
@[simp] theorem State.modWindow_certificate (w : Nat) (f : Window → Window) : (s.modWindow w f).certificate = s.certificate := rfl
@[simp] theorem State.modWindow_rootKeyDigest (w : Nat) (f : Window → Window) : (s.modWindow w f).rootKeyDigest = s.rootKeyDigest := rfl
@[simp] theorem State.modWindow_debugKeyDigest (w : Nat) (f : Window → Window) : (s.modWindow w f).debugKeyDigest = s.debugKeyDigest := rfl
@[simp] theorem State.modWindow_draws (w : Nat) (f : Window → Window) : (s.modWindow w f).draws = s.draws := rfl
@[simp] theorem State.modWindow_out (w : Nat) (f : Window → Window) : (s.modWindow w f).out = s.out := rfl

/-! modPort changes ports alone. -/

@[simp] theorem State.modPort_pending (i : Nat) (f : Port → Port) : (s.modPort i f).pending = s.pending := rfl
@[simp] theorem State.modPort_quartersPer (i : Nat) (f : Port → Port) : (s.modPort i f).quartersPer = s.quartersPer := rfl
@[simp] theorem State.modPort_parts (i : Nat) (f : Port → Port) : (s.modPort i f).parts = s.parts := rfl
@[simp] theorem State.modPort_windows (i : Nat) (f : Port → Port) : (s.modPort i f).windows = s.windows := rfl
@[simp] theorem State.modPort_mem (i : Nat) (f : Port → Port) : (s.modPort i f).mem = s.mem := rfl
@[simp] theorem State.modPort_poison (i : Nat) (f : Port → Port) : (s.modPort i f).poison = s.poison := rfl
@[simp] theorem State.modPort_faults (i : Nat) (f : Port → Port) : (s.modPort i f).faults = s.faults := rfl
@[simp] theorem State.modPort_merge (i : Nat) (f : Port → Port) : (s.modPort i f).merge = s.merge := rfl
@[simp] theorem State.modPort_scrubSettings (i : Nat) (f : Port → Port) : (s.modPort i f).scrubSettings = s.scrubSettings := rfl
@[simp] theorem State.modPort_scrubbers (i : Nat) (f : Port → Port) : (s.modPort i f).scrubbers = s.scrubbers := rfl
@[simp] theorem State.modPort_trackers (i : Nat) (f : Port → Port) : (s.modPort i f).trackers = s.trackers := rfl
@[simp] theorem State.modPort_remaps (i : Nat) (f : Port → Port) : (s.modPort i f).remaps = s.remaps := rfl
@[simp] theorem State.modPort_fuseScheduled (i : Nat) (f : Port → Port) : (s.modPort i f).fuseScheduled = s.fuseScheduled := rfl
@[simp] theorem State.modPort_fuseDone (i : Nat) (f : Port → Port) : (s.modPort i f).fuseDone = s.fuseDone := rfl
@[simp] theorem State.modPort_spares (i : Nat) (f : Port → Port) : (s.modPort i f).spares = s.spares := rfl
@[simp] theorem State.modPort_reserve (i : Nat) (f : Port → Port) : (s.modPort i f).reserve = s.reserve := rfl
@[simp] theorem State.modPort_retired (i : Nat) (f : Port → Port) : (s.modPort i f).retired = s.retired := rfl
@[simp] theorem State.modPort_retiredSlices (i : Nat) (f : Port → Port) : (s.modPort i f).retiredSlices = s.retiredSlices := rfl
@[simp] theorem State.modPort_busy (i : Nat) (f : Port → Port) : (s.modPort i f).busy = s.busy := rfl
@[simp] theorem State.modPort_stall (i : Nat) (f : Port → Port) : (s.modPort i f).stall = s.stall := rfl
@[simp] theorem State.modPort_banks (i : Nat) (f : Port → Port) : (s.modPort i f).banks = s.banks := rfl
@[simp] theorem State.modPort_riddles (i : Nat) (f : Port → Port) : (s.modPort i f).riddles = s.riddles := rfl
@[simp] theorem State.modPort_residues (i : Nat) (f : Port → Port) : (s.modPort i f).residues = s.residues := rfl
@[simp] theorem State.modPort_retiring (i : Nat) (f : Port → Port) : (s.modPort i f).retiring = s.retiring := rfl
@[simp] theorem State.modPort_faultyArrays (i : Nat) (f : Port → Port) : (s.modPort i f).faultyArrays = s.faultyArrays := rfl
@[simp] theorem State.modPort_gatedBenches (i : Nat) (f : Port → Port) : (s.modPort i f).gatedBenches = s.gatedBenches := rfl
@[simp] theorem State.modPort_stacksOff (i : Nat) (f : Port → Port) : (s.modPort i f).stacksOff = s.stacksOff := rfl
@[simp] theorem State.modPort_dimms (i : Nat) (f : Port → Port) : (s.modPort i f).dimms = s.dimms := rfl
@[simp] theorem State.modPort_channels (i : Nat) (f : Port → Port) : (s.modPort i f).channels = s.channels := rfl
@[simp] theorem State.modPort_chanReason (i : Nat) (f : Port → Port) : (s.modPort i f).chanReason = s.chanReason := rfl
@[simp] theorem State.modPort_sumpRate (i : Nat) (f : Port → Port) : (s.modPort i f).sumpRate = s.sumpRate := rfl
@[simp] theorem State.modPort_sumpCapacity (i : Nat) (f : Port → Port) : (s.modPort i f).sumpCapacity = s.sumpCapacity := rfl
@[simp] theorem State.modPort_fabric (i : Nat) (f : Port → Port) : (s.modPort i f).fabric = s.fabric := rfl
@[simp] theorem State.modPort_crossingsRetired (i : Nat) (f : Port → Port) : (s.modPort i f).crossingsRetired = s.crossingsRetired := rfl
@[simp] theorem State.modPort_halvesDown (i : Nat) (f : Port → Port) : (s.modPort i f).halvesDown = s.halvesDown := rfl
@[simp] theorem State.modPort_clocksLost (i : Nat) (f : Port → Port) : (s.modPort i f).clocksLost = s.clocksLost := rfl
@[simp] theorem State.modPort_halves (i : Nat) (f : Port → Port) : (s.modPort i f).halves = s.halves := rfl
@[simp] theorem State.modPort_sensors (i : Nat) (f : Port → Port) : (s.modPort i f).sensors = s.sensors := rfl
@[simp] theorem State.modPort_slowPower (i : Nat) (f : Port → Port) : (s.modPort i f).slowPower = s.slowPower := rfl
@[simp] theorem State.modPort_overTicks (i : Nat) (f : Port → Port) : (s.modPort i f).overTicks = s.overTicks := rfl
@[simp] theorem State.modPort_mclk (i : Nat) (f : Port → Port) : (s.modPort i f).mclk = s.mclk := rfl
@[simp] theorem State.modPort_vin (i : Nat) (f : Port → Port) : (s.modPort i f).vin = s.vin := rfl
@[simp] theorem State.modPort_pwrEn (i : Nat) (f : Port → Port) : (s.modPort i f).pwrEn = s.pwrEn := rfl
@[simp] theorem State.modPort_pwrGood (i : Nat) (f : Port → Port) : (s.modPort i f).pwrGood = s.pwrGood := rfl
@[simp] theorem State.modPort_aonUp (i : Nat) (f : Port → Port) : (s.modPort i f).aonUp = s.aonUp := rfl
@[simp] theorem State.modPort_mainUp (i : Nat) (f : Port → Port) : (s.modPort i f).mainUp = s.mainUp := rfl
@[simp] theorem State.modPort_perstLow (i : Nat) (f : Port → Port) : (s.modPort i f).perstLow = s.perstLow := rfl
@[simp] theorem State.modPort_bootStage (i : Nat) (f : Port → Port) : (s.modPort i f).bootStage = s.bootStage := rfl
@[simp] theorem State.modPort_bootHeld (i : Nat) (f : Port → Port) : (s.modPort i f).bootHeld = s.bootHeld := rfl
@[simp] theorem State.modPort_ready (i : Nat) (f : Port → Port) : (s.modPort i f).ready = s.ready := rfl
@[simp] theorem State.modPort_bootMs (i : Nat) (f : Port → Port) : (s.modPort i f).bootMs = s.bootMs := rfl
@[simp] theorem State.modPort_boot (i : Nat) (f : Port → Port) : (s.modPort i f).boot = s.boot := rfl
@[simp] theorem State.modPort_bootModule (i : Nat) (f : Port → Port) : (s.modPort i f).bootModule = s.bootModule := rfl
@[simp] theorem State.modPort_configDefault (i : Nat) (f : Port → Port) : (s.modPort i f).configDefault = s.configDefault := rfl
@[simp] theorem State.modPort_board (i : Nat) (f : Port → Port) : (s.modPort i f).board = s.board := rfl
@[simp] theorem State.modPort_flashImage (i : Nat) (f : Port → Port) : (s.modPort i f).flashImage = s.flashImage := rfl
@[simp] theorem State.modPort_cfg (i : Nat) (f : Port → Port) : (s.modPort i f).cfg = s.cfg := rfl
@[simp] theorem State.modPort_geoPins (i : Nat) (f : Port → Port) : (s.modPort i f).geoPins = s.geoPins := rfl
@[simp] theorem State.modPort_geoId (i : Nat) (f : Port → Port) : (s.modPort i f).geoId = s.geoId := rfl
@[simp] theorem State.modPort_smbusTarget (i : Nat) (f : Port → Port) : (s.modPort i f).smbusTarget = s.smbusTarget := rfl
@[simp] theorem State.modPort_fatal (i : Nat) (f : Port → Port) : (s.modPort i f).fatal = s.fatal := rfl
@[simp] theorem State.modPort_tripped (i : Nat) (f : Port → Port) : (s.modPort i f).tripped = s.tripped := rfl
@[simp] theorem State.modPort_converterFault (i : Nat) (f : Port → Port) : (s.modPort i f).converterFault = s.converterFault := rfl
@[simp] theorem State.modPort_debugUnlocked (i : Nat) (f : Port → Port) : (s.modPort i f).debugUnlocked = s.debugUnlocked := rfl
@[simp] theorem State.modPort_jtagOpen (i : Nat) (f : Port → Port) : (s.modPort i f).jtagOpen = s.jtagOpen := rfl
@[simp] theorem State.modPort_challenge (i : Nat) (f : Port → Port) : (s.modPort i f).challenge = s.challenge := rfl
@[simp] theorem State.modPort_lastRefused (i : Nat) (f : Port → Port) : (s.modPort i f).lastRefused = s.lastRefused := rfl
@[simp] theorem State.modPort_refclk (i : Nat) (f : Port → Port) : (s.modPort i f).refclk = s.refclk := rfl
@[simp] theorem State.modPort_pcieSpeed (i : Nat) (f : Port → Port) : (s.modPort i f).pcieSpeed = s.pcieSpeed := rfl
@[simp] theorem State.modPort_pcieWidth (i : Nat) (f : Port → Port) : (s.modPort i f).pcieWidth = s.pcieWidth := rfl
@[simp] theorem State.modPort_msixTable (i : Nat) (f : Port → Port) : (s.modPort i f).msixTable = s.msixTable := rfl
@[simp] theorem State.modPort_msixPending (i : Nat) (f : Port → Port) : (s.modPort i f).msixPending = s.msixPending := rfl
@[simp] theorem State.modPort_bridgeReqs (i : Nat) (f : Port → Port) : (s.modPort i f).bridgeReqs = s.bridgeReqs := rfl
@[simp] theorem State.modPort_bridgeHeld (i : Nat) (f : Port → Port) : (s.modPort i f).bridgeHeld = s.bridgeHeld := rfl
@[simp] theorem State.modPort_nextMsgId (i : Nat) (f : Port → Port) : (s.modPort i f).nextMsgId = s.nextMsgId := rfl
@[simp] theorem State.modPort_change (i : Nat) (f : Port → Port) : (s.modPort i f).change = s.change := rfl
@[simp] theorem State.modPort_changeStart (i : Nat) (f : Port → Port) : (s.modPort i f).changeStart = s.changeStart := rfl
@[simp] theorem State.modPort_serial (i : Nat) (f : Port → Port) : (s.modPort i f).serial = s.serial := rfl
@[simp] theorem State.modPort_stepping (i : Nat) (f : Port → Port) : (s.modPort i f).stepping = s.stepping := rfl
@[simp] theorem State.modPort_romMeasure (i : Nat) (f : Port → Port) : (s.modPort i f).romMeasure = s.romMeasure := rfl
@[simp] theorem State.modPort_romDigest (i : Nat) (f : Port → Port) : (s.modPort i f).romDigest = s.romDigest := rfl
@[simp] theorem State.modPort_boardKeyDigest (i : Nat) (f : Port → Port) : (s.modPort i f).boardKeyDigest = s.boardKeyDigest := rfl
@[simp] theorem State.modPort_identityKey (i : Nat) (f : Port → Port) : (s.modPort i f).identityKey = s.identityKey := rfl
@[simp] theorem State.modPort_identityPub (i : Nat) (f : Port → Port) : (s.modPort i f).identityPub = s.identityPub := rfl
@[simp] theorem State.modPort_certificate (i : Nat) (f : Port → Port) : (s.modPort i f).certificate = s.certificate := rfl
@[simp] theorem State.modPort_rootKeyDigest (i : Nat) (f : Port → Port) : (s.modPort i f).rootKeyDigest = s.rootKeyDigest := rfl
@[simp] theorem State.modPort_debugKeyDigest (i : Nat) (f : Port → Port) : (s.modPort i f).debugKeyDigest = s.debugKeyDigest := rfl
@[simp] theorem State.modPort_draws (i : Nat) (f : Port → Port) : (s.modPort i f).draws = s.draws := rfl
@[simp] theorem State.modPort_out (i : Nat) (f : Port → Port) : (s.modPort i f).out = s.out := rfl

/-! modHalf changes halves alone. -/

@[simp] theorem State.modHalf_pending (h : Nat) (f : Half → Half) : (s.modHalf h f).pending = s.pending := rfl
@[simp] theorem State.modHalf_quartersPer (h : Nat) (f : Half → Half) : (s.modHalf h f).quartersPer = s.quartersPer := rfl
@[simp] theorem State.modHalf_parts (h : Nat) (f : Half → Half) : (s.modHalf h f).parts = s.parts := rfl
@[simp] theorem State.modHalf_windows (h : Nat) (f : Half → Half) : (s.modHalf h f).windows = s.windows := rfl
@[simp] theorem State.modHalf_mem (h : Nat) (f : Half → Half) : (s.modHalf h f).mem = s.mem := rfl
@[simp] theorem State.modHalf_poison (h : Nat) (f : Half → Half) : (s.modHalf h f).poison = s.poison := rfl
@[simp] theorem State.modHalf_faults (h : Nat) (f : Half → Half) : (s.modHalf h f).faults = s.faults := rfl
@[simp] theorem State.modHalf_merge (h : Nat) (f : Half → Half) : (s.modHalf h f).merge = s.merge := rfl
@[simp] theorem State.modHalf_scrubSettings (h : Nat) (f : Half → Half) : (s.modHalf h f).scrubSettings = s.scrubSettings := rfl
@[simp] theorem State.modHalf_scrubbers (h : Nat) (f : Half → Half) : (s.modHalf h f).scrubbers = s.scrubbers := rfl
@[simp] theorem State.modHalf_trackers (h : Nat) (f : Half → Half) : (s.modHalf h f).trackers = s.trackers := rfl
@[simp] theorem State.modHalf_remaps (h : Nat) (f : Half → Half) : (s.modHalf h f).remaps = s.remaps := rfl
@[simp] theorem State.modHalf_fuseScheduled (h : Nat) (f : Half → Half) : (s.modHalf h f).fuseScheduled = s.fuseScheduled := rfl
@[simp] theorem State.modHalf_fuseDone (h : Nat) (f : Half → Half) : (s.modHalf h f).fuseDone = s.fuseDone := rfl
@[simp] theorem State.modHalf_spares (h : Nat) (f : Half → Half) : (s.modHalf h f).spares = s.spares := rfl
@[simp] theorem State.modHalf_reserve (h : Nat) (f : Half → Half) : (s.modHalf h f).reserve = s.reserve := rfl
@[simp] theorem State.modHalf_retired (h : Nat) (f : Half → Half) : (s.modHalf h f).retired = s.retired := rfl
@[simp] theorem State.modHalf_retiredSlices (h : Nat) (f : Half → Half) : (s.modHalf h f).retiredSlices = s.retiredSlices := rfl
@[simp] theorem State.modHalf_busy (h : Nat) (f : Half → Half) : (s.modHalf h f).busy = s.busy := rfl
@[simp] theorem State.modHalf_stall (h : Nat) (f : Half → Half) : (s.modHalf h f).stall = s.stall := rfl
@[simp] theorem State.modHalf_banks (h : Nat) (f : Half → Half) : (s.modHalf h f).banks = s.banks := rfl
@[simp] theorem State.modHalf_riddles (h : Nat) (f : Half → Half) : (s.modHalf h f).riddles = s.riddles := rfl
@[simp] theorem State.modHalf_residues (h : Nat) (f : Half → Half) : (s.modHalf h f).residues = s.residues := rfl
@[simp] theorem State.modHalf_retiring (h : Nat) (f : Half → Half) : (s.modHalf h f).retiring = s.retiring := rfl
@[simp] theorem State.modHalf_faultyArrays (h : Nat) (f : Half → Half) : (s.modHalf h f).faultyArrays = s.faultyArrays := rfl
@[simp] theorem State.modHalf_gatedBenches (h : Nat) (f : Half → Half) : (s.modHalf h f).gatedBenches = s.gatedBenches := rfl
@[simp] theorem State.modHalf_stacksOff (h : Nat) (f : Half → Half) : (s.modHalf h f).stacksOff = s.stacksOff := rfl
@[simp] theorem State.modHalf_dimms (h : Nat) (f : Half → Half) : (s.modHalf h f).dimms = s.dimms := rfl
@[simp] theorem State.modHalf_channels (h : Nat) (f : Half → Half) : (s.modHalf h f).channels = s.channels := rfl
@[simp] theorem State.modHalf_chanReason (h : Nat) (f : Half → Half) : (s.modHalf h f).chanReason = s.chanReason := rfl
@[simp] theorem State.modHalf_sumpRate (h : Nat) (f : Half → Half) : (s.modHalf h f).sumpRate = s.sumpRate := rfl
@[simp] theorem State.modHalf_sumpCapacity (h : Nat) (f : Half → Half) : (s.modHalf h f).sumpCapacity = s.sumpCapacity := rfl
@[simp] theorem State.modHalf_fabric (h : Nat) (f : Half → Half) : (s.modHalf h f).fabric = s.fabric := rfl
@[simp] theorem State.modHalf_crossingsRetired (h : Nat) (f : Half → Half) : (s.modHalf h f).crossingsRetired = s.crossingsRetired := rfl
@[simp] theorem State.modHalf_halvesDown (h : Nat) (f : Half → Half) : (s.modHalf h f).halvesDown = s.halvesDown := rfl
@[simp] theorem State.modHalf_ports (h : Nat) (f : Half → Half) : (s.modHalf h f).ports = s.ports := rfl
@[simp] theorem State.modHalf_clocksLost (h : Nat) (f : Half → Half) : (s.modHalf h f).clocksLost = s.clocksLost := rfl
@[simp] theorem State.modHalf_sensors (h : Nat) (f : Half → Half) : (s.modHalf h f).sensors = s.sensors := rfl
@[simp] theorem State.modHalf_slowPower (h : Nat) (f : Half → Half) : (s.modHalf h f).slowPower = s.slowPower := rfl
@[simp] theorem State.modHalf_overTicks (h : Nat) (f : Half → Half) : (s.modHalf h f).overTicks = s.overTicks := rfl
@[simp] theorem State.modHalf_mclk (h : Nat) (f : Half → Half) : (s.modHalf h f).mclk = s.mclk := rfl
@[simp] theorem State.modHalf_vin (h : Nat) (f : Half → Half) : (s.modHalf h f).vin = s.vin := rfl
@[simp] theorem State.modHalf_pwrEn (h : Nat) (f : Half → Half) : (s.modHalf h f).pwrEn = s.pwrEn := rfl
@[simp] theorem State.modHalf_pwrGood (h : Nat) (f : Half → Half) : (s.modHalf h f).pwrGood = s.pwrGood := rfl
@[simp] theorem State.modHalf_aonUp (h : Nat) (f : Half → Half) : (s.modHalf h f).aonUp = s.aonUp := rfl
@[simp] theorem State.modHalf_mainUp (h : Nat) (f : Half → Half) : (s.modHalf h f).mainUp = s.mainUp := rfl
@[simp] theorem State.modHalf_perstLow (h : Nat) (f : Half → Half) : (s.modHalf h f).perstLow = s.perstLow := rfl
@[simp] theorem State.modHalf_bootStage (h : Nat) (f : Half → Half) : (s.modHalf h f).bootStage = s.bootStage := rfl
@[simp] theorem State.modHalf_bootHeld (h : Nat) (f : Half → Half) : (s.modHalf h f).bootHeld = s.bootHeld := rfl
@[simp] theorem State.modHalf_ready (h : Nat) (f : Half → Half) : (s.modHalf h f).ready = s.ready := rfl
@[simp] theorem State.modHalf_bootMs (h : Nat) (f : Half → Half) : (s.modHalf h f).bootMs = s.bootMs := rfl
@[simp] theorem State.modHalf_boot (h : Nat) (f : Half → Half) : (s.modHalf h f).boot = s.boot := rfl
@[simp] theorem State.modHalf_bootModule (h : Nat) (f : Half → Half) : (s.modHalf h f).bootModule = s.bootModule := rfl
@[simp] theorem State.modHalf_configDefault (h : Nat) (f : Half → Half) : (s.modHalf h f).configDefault = s.configDefault := rfl
@[simp] theorem State.modHalf_board (h : Nat) (f : Half → Half) : (s.modHalf h f).board = s.board := rfl
@[simp] theorem State.modHalf_flashImage (h : Nat) (f : Half → Half) : (s.modHalf h f).flashImage = s.flashImage := rfl
@[simp] theorem State.modHalf_cfg (h : Nat) (f : Half → Half) : (s.modHalf h f).cfg = s.cfg := rfl
@[simp] theorem State.modHalf_geoPins (h : Nat) (f : Half → Half) : (s.modHalf h f).geoPins = s.geoPins := rfl
@[simp] theorem State.modHalf_geoId (h : Nat) (f : Half → Half) : (s.modHalf h f).geoId = s.geoId := rfl
@[simp] theorem State.modHalf_smbusTarget (h : Nat) (f : Half → Half) : (s.modHalf h f).smbusTarget = s.smbusTarget := rfl
@[simp] theorem State.modHalf_fatal (h : Nat) (f : Half → Half) : (s.modHalf h f).fatal = s.fatal := rfl
@[simp] theorem State.modHalf_tripped (h : Nat) (f : Half → Half) : (s.modHalf h f).tripped = s.tripped := rfl
@[simp] theorem State.modHalf_converterFault (h : Nat) (f : Half → Half) : (s.modHalf h f).converterFault = s.converterFault := rfl
@[simp] theorem State.modHalf_debugUnlocked (h : Nat) (f : Half → Half) : (s.modHalf h f).debugUnlocked = s.debugUnlocked := rfl
@[simp] theorem State.modHalf_jtagOpen (h : Nat) (f : Half → Half) : (s.modHalf h f).jtagOpen = s.jtagOpen := rfl
@[simp] theorem State.modHalf_challenge (h : Nat) (f : Half → Half) : (s.modHalf h f).challenge = s.challenge := rfl
@[simp] theorem State.modHalf_lastRefused (h : Nat) (f : Half → Half) : (s.modHalf h f).lastRefused = s.lastRefused := rfl
@[simp] theorem State.modHalf_refclk (h : Nat) (f : Half → Half) : (s.modHalf h f).refclk = s.refclk := rfl
@[simp] theorem State.modHalf_pcieSpeed (h : Nat) (f : Half → Half) : (s.modHalf h f).pcieSpeed = s.pcieSpeed := rfl
@[simp] theorem State.modHalf_pcieWidth (h : Nat) (f : Half → Half) : (s.modHalf h f).pcieWidth = s.pcieWidth := rfl
@[simp] theorem State.modHalf_msixTable (h : Nat) (f : Half → Half) : (s.modHalf h f).msixTable = s.msixTable := rfl
@[simp] theorem State.modHalf_msixPending (h : Nat) (f : Half → Half) : (s.modHalf h f).msixPending = s.msixPending := rfl
@[simp] theorem State.modHalf_bridgeReqs (h : Nat) (f : Half → Half) : (s.modHalf h f).bridgeReqs = s.bridgeReqs := rfl
@[simp] theorem State.modHalf_bridgeHeld (h : Nat) (f : Half → Half) : (s.modHalf h f).bridgeHeld = s.bridgeHeld := rfl
@[simp] theorem State.modHalf_nextMsgId (h : Nat) (f : Half → Half) : (s.modHalf h f).nextMsgId = s.nextMsgId := rfl
@[simp] theorem State.modHalf_change (h : Nat) (f : Half → Half) : (s.modHalf h f).change = s.change := rfl
@[simp] theorem State.modHalf_changeStart (h : Nat) (f : Half → Half) : (s.modHalf h f).changeStart = s.changeStart := rfl
@[simp] theorem State.modHalf_serial (h : Nat) (f : Half → Half) : (s.modHalf h f).serial = s.serial := rfl
@[simp] theorem State.modHalf_stepping (h : Nat) (f : Half → Half) : (s.modHalf h f).stepping = s.stepping := rfl
@[simp] theorem State.modHalf_romMeasure (h : Nat) (f : Half → Half) : (s.modHalf h f).romMeasure = s.romMeasure := rfl
@[simp] theorem State.modHalf_romDigest (h : Nat) (f : Half → Half) : (s.modHalf h f).romDigest = s.romDigest := rfl
@[simp] theorem State.modHalf_boardKeyDigest (h : Nat) (f : Half → Half) : (s.modHalf h f).boardKeyDigest = s.boardKeyDigest := rfl
@[simp] theorem State.modHalf_identityKey (h : Nat) (f : Half → Half) : (s.modHalf h f).identityKey = s.identityKey := rfl
@[simp] theorem State.modHalf_identityPub (h : Nat) (f : Half → Half) : (s.modHalf h f).identityPub = s.identityPub := rfl
@[simp] theorem State.modHalf_certificate (h : Nat) (f : Half → Half) : (s.modHalf h f).certificate = s.certificate := rfl
@[simp] theorem State.modHalf_rootKeyDigest (h : Nat) (f : Half → Half) : (s.modHalf h f).rootKeyDigest = s.rootKeyDigest := rfl
@[simp] theorem State.modHalf_debugKeyDigest (h : Nat) (f : Half → Half) : (s.modHalf h f).debugKeyDigest = s.debugKeyDigest := rfl
@[simp] theorem State.modHalf_draws (h : Nat) (f : Half → Half) : (s.modHalf h f).draws = s.draws := rfl
@[simp] theorem State.modHalf_out (h : Nat) (f : Half → Half) : (s.modHalf h f).out = s.out := rfl

/-! emit changes out alone. -/

@[simp] theorem State.emit_pending (o : Out) : (s.emit o).pending = s.pending := rfl
@[simp] theorem State.emit_quartersPer (o : Out) : (s.emit o).quartersPer = s.quartersPer := rfl
@[simp] theorem State.emit_parts (o : Out) : (s.emit o).parts = s.parts := rfl
@[simp] theorem State.emit_windows (o : Out) : (s.emit o).windows = s.windows := rfl
@[simp] theorem State.emit_mem (o : Out) : (s.emit o).mem = s.mem := rfl
@[simp] theorem State.emit_poison (o : Out) : (s.emit o).poison = s.poison := rfl
@[simp] theorem State.emit_faults (o : Out) : (s.emit o).faults = s.faults := rfl
@[simp] theorem State.emit_merge (o : Out) : (s.emit o).merge = s.merge := rfl
@[simp] theorem State.emit_scrubSettings (o : Out) : (s.emit o).scrubSettings = s.scrubSettings := rfl
@[simp] theorem State.emit_scrubbers (o : Out) : (s.emit o).scrubbers = s.scrubbers := rfl
@[simp] theorem State.emit_trackers (o : Out) : (s.emit o).trackers = s.trackers := rfl
@[simp] theorem State.emit_remaps (o : Out) : (s.emit o).remaps = s.remaps := rfl
@[simp] theorem State.emit_fuseScheduled (o : Out) : (s.emit o).fuseScheduled = s.fuseScheduled := rfl
@[simp] theorem State.emit_fuseDone (o : Out) : (s.emit o).fuseDone = s.fuseDone := rfl
@[simp] theorem State.emit_spares (o : Out) : (s.emit o).spares = s.spares := rfl
@[simp] theorem State.emit_reserve (o : Out) : (s.emit o).reserve = s.reserve := rfl
@[simp] theorem State.emit_retired (o : Out) : (s.emit o).retired = s.retired := rfl
@[simp] theorem State.emit_retiredSlices (o : Out) : (s.emit o).retiredSlices = s.retiredSlices := rfl
@[simp] theorem State.emit_busy (o : Out) : (s.emit o).busy = s.busy := rfl
@[simp] theorem State.emit_stall (o : Out) : (s.emit o).stall = s.stall := rfl
@[simp] theorem State.emit_banks (o : Out) : (s.emit o).banks = s.banks := rfl
@[simp] theorem State.emit_riddles (o : Out) : (s.emit o).riddles = s.riddles := rfl
@[simp] theorem State.emit_residues (o : Out) : (s.emit o).residues = s.residues := rfl
@[simp] theorem State.emit_retiring (o : Out) : (s.emit o).retiring = s.retiring := rfl
@[simp] theorem State.emit_faultyArrays (o : Out) : (s.emit o).faultyArrays = s.faultyArrays := rfl
@[simp] theorem State.emit_gatedBenches (o : Out) : (s.emit o).gatedBenches = s.gatedBenches := rfl
@[simp] theorem State.emit_stacksOff (o : Out) : (s.emit o).stacksOff = s.stacksOff := rfl
@[simp] theorem State.emit_dimms (o : Out) : (s.emit o).dimms = s.dimms := rfl
@[simp] theorem State.emit_channels (o : Out) : (s.emit o).channels = s.channels := rfl
@[simp] theorem State.emit_chanReason (o : Out) : (s.emit o).chanReason = s.chanReason := rfl
@[simp] theorem State.emit_sumpRate (o : Out) : (s.emit o).sumpRate = s.sumpRate := rfl
@[simp] theorem State.emit_sumpCapacity (o : Out) : (s.emit o).sumpCapacity = s.sumpCapacity := rfl
@[simp] theorem State.emit_fabric (o : Out) : (s.emit o).fabric = s.fabric := rfl
@[simp] theorem State.emit_crossingsRetired (o : Out) : (s.emit o).crossingsRetired = s.crossingsRetired := rfl
@[simp] theorem State.emit_halvesDown (o : Out) : (s.emit o).halvesDown = s.halvesDown := rfl
@[simp] theorem State.emit_ports (o : Out) : (s.emit o).ports = s.ports := rfl
@[simp] theorem State.emit_clocksLost (o : Out) : (s.emit o).clocksLost = s.clocksLost := rfl
@[simp] theorem State.emit_halves (o : Out) : (s.emit o).halves = s.halves := rfl
@[simp] theorem State.emit_sensors (o : Out) : (s.emit o).sensors = s.sensors := rfl
@[simp] theorem State.emit_slowPower (o : Out) : (s.emit o).slowPower = s.slowPower := rfl
@[simp] theorem State.emit_overTicks (o : Out) : (s.emit o).overTicks = s.overTicks := rfl
@[simp] theorem State.emit_mclk (o : Out) : (s.emit o).mclk = s.mclk := rfl
@[simp] theorem State.emit_vin (o : Out) : (s.emit o).vin = s.vin := rfl
@[simp] theorem State.emit_pwrEn (o : Out) : (s.emit o).pwrEn = s.pwrEn := rfl
@[simp] theorem State.emit_pwrGood (o : Out) : (s.emit o).pwrGood = s.pwrGood := rfl
@[simp] theorem State.emit_aonUp (o : Out) : (s.emit o).aonUp = s.aonUp := rfl
@[simp] theorem State.emit_mainUp (o : Out) : (s.emit o).mainUp = s.mainUp := rfl
@[simp] theorem State.emit_perstLow (o : Out) : (s.emit o).perstLow = s.perstLow := rfl
@[simp] theorem State.emit_bootStage (o : Out) : (s.emit o).bootStage = s.bootStage := rfl
@[simp] theorem State.emit_bootHeld (o : Out) : (s.emit o).bootHeld = s.bootHeld := rfl
@[simp] theorem State.emit_ready (o : Out) : (s.emit o).ready = s.ready := rfl
@[simp] theorem State.emit_bootMs (o : Out) : (s.emit o).bootMs = s.bootMs := rfl
@[simp] theorem State.emit_boot (o : Out) : (s.emit o).boot = s.boot := rfl
@[simp] theorem State.emit_bootModule (o : Out) : (s.emit o).bootModule = s.bootModule := rfl
@[simp] theorem State.emit_configDefault (o : Out) : (s.emit o).configDefault = s.configDefault := rfl
@[simp] theorem State.emit_board (o : Out) : (s.emit o).board = s.board := rfl
@[simp] theorem State.emit_flashImage (o : Out) : (s.emit o).flashImage = s.flashImage := rfl
@[simp] theorem State.emit_cfg (o : Out) : (s.emit o).cfg = s.cfg := rfl
@[simp] theorem State.emit_geoPins (o : Out) : (s.emit o).geoPins = s.geoPins := rfl
@[simp] theorem State.emit_geoId (o : Out) : (s.emit o).geoId = s.geoId := rfl
@[simp] theorem State.emit_smbusTarget (o : Out) : (s.emit o).smbusTarget = s.smbusTarget := rfl
@[simp] theorem State.emit_fatal (o : Out) : (s.emit o).fatal = s.fatal := rfl
@[simp] theorem State.emit_tripped (o : Out) : (s.emit o).tripped = s.tripped := rfl
@[simp] theorem State.emit_converterFault (o : Out) : (s.emit o).converterFault = s.converterFault := rfl
@[simp] theorem State.emit_debugUnlocked (o : Out) : (s.emit o).debugUnlocked = s.debugUnlocked := rfl
@[simp] theorem State.emit_jtagOpen (o : Out) : (s.emit o).jtagOpen = s.jtagOpen := rfl
@[simp] theorem State.emit_challenge (o : Out) : (s.emit o).challenge = s.challenge := rfl
@[simp] theorem State.emit_lastRefused (o : Out) : (s.emit o).lastRefused = s.lastRefused := rfl
@[simp] theorem State.emit_refclk (o : Out) : (s.emit o).refclk = s.refclk := rfl
@[simp] theorem State.emit_pcieSpeed (o : Out) : (s.emit o).pcieSpeed = s.pcieSpeed := rfl
@[simp] theorem State.emit_pcieWidth (o : Out) : (s.emit o).pcieWidth = s.pcieWidth := rfl
@[simp] theorem State.emit_msixTable (o : Out) : (s.emit o).msixTable = s.msixTable := rfl
@[simp] theorem State.emit_msixPending (o : Out) : (s.emit o).msixPending = s.msixPending := rfl
@[simp] theorem State.emit_bridgeReqs (o : Out) : (s.emit o).bridgeReqs = s.bridgeReqs := rfl
@[simp] theorem State.emit_bridgeHeld (o : Out) : (s.emit o).bridgeHeld = s.bridgeHeld := rfl
@[simp] theorem State.emit_nextMsgId (o : Out) : (s.emit o).nextMsgId = s.nextMsgId := rfl
@[simp] theorem State.emit_change (o : Out) : (s.emit o).change = s.change := rfl
@[simp] theorem State.emit_changeStart (o : Out) : (s.emit o).changeStart = s.changeStart := rfl
@[simp] theorem State.emit_serial (o : Out) : (s.emit o).serial = s.serial := rfl
@[simp] theorem State.emit_stepping (o : Out) : (s.emit o).stepping = s.stepping := rfl
@[simp] theorem State.emit_romMeasure (o : Out) : (s.emit o).romMeasure = s.romMeasure := rfl
@[simp] theorem State.emit_romDigest (o : Out) : (s.emit o).romDigest = s.romDigest := rfl
@[simp] theorem State.emit_boardKeyDigest (o : Out) : (s.emit o).boardKeyDigest = s.boardKeyDigest := rfl
@[simp] theorem State.emit_identityKey (o : Out) : (s.emit o).identityKey = s.identityKey := rfl
@[simp] theorem State.emit_identityPub (o : Out) : (s.emit o).identityPub = s.identityPub := rfl
@[simp] theorem State.emit_certificate (o : Out) : (s.emit o).certificate = s.certificate := rfl
@[simp] theorem State.emit_rootKeyDigest (o : Out) : (s.emit o).rootKeyDigest = s.rootKeyDigest := rfl
@[simp] theorem State.emit_debugKeyDigest (o : Out) : (s.emit o).debugKeyDigest = s.debugKeyDigest := rfl
@[simp] theorem State.emit_draws (o : Out) : (s.emit o).draws = s.draws := rfl

/-! Lookups. -/

theorem getElem?_getD_modify {α : Type} (l : List α) (i j : Nat) (f : α → α) (d : α) (h : i < l.length) :
    (l.modify i f)[j]?.getD d = if j = i then f (l[i]?.getD d) else l[j]?.getD d := by
  rw [List.getElem?_modify]
  by_cases hj : j = i
  · subst hj; simp [h]
  · have : i ≠ j := fun e => hj e.symm
    simp [hj, this]

theorem State.part_modPart_self {p : Nat} {f : Part → Part} (h : p < s.parts.length) : (s.modPart p f).part p = f (s.part p) := by
  simp [State.part, State.modPart, h]

@[simp] theorem State.part_modPart_ne {p q : Nat} {f : Part → Part} (h : q ≠ p) : (s.modPart p f).part q = s.part q := by
  have : p ≠ q := fun e => h e.symm
  simp [State.part, State.modPart, this]

@[simp] theorem State.part_modWindow {w q : Nat} {f : Window → Window} : (s.modWindow w f).part q = s.part q := rfl
@[simp] theorem State.part_modPort {i q : Nat} {f : Port → Port} : (s.modPort i f).part q = s.part q := rfl
@[simp] theorem State.part_modHalf {h q : Nat} {f : Half → Half} : (s.modHalf h f).part q = s.part q := rfl
@[simp] theorem State.part_emit {o : Out} {q : Nat} : (s.emit o).part q = s.part q := rfl
@[simp] theorem State.window_modPart {p w : Nat} {f : Part → Part} : (s.modPart p f).window w = s.window w := rfl

theorem State.window_modWindow_self {w : Nat} {f : Window → Window} (h : w < s.windows.length) :
    (s.modWindow w f).window w = f (s.window w) := by
  simp [State.window, State.modWindow, h]

@[simp] theorem State.window_modWindow_ne {v w : Nat} {f : Window → Window} (h : v ≠ w) : (s.modWindow w f).window v = s.window v := by
  have : w ≠ v := fun e => h e.symm
  simp [State.window, State.modWindow, this]

end Sys2Proof.Machine
end

