-- ==== Sys2Proof/Laws/Work.lean ====
section
/-! SUPPORT. What the work of a packet does to the module: the packets of its partition (State.setPacket), stored data where no symbol is in
error (State.storeAll), and the whole of State.finish. -/

namespace Sys2Proof.Machine

open Safety (OnlyData OnlyWork written)

/-! Packets. -/

theorem Part.packet_keys {pt : Part} {ring idx : Nat} {k : Packet} (h : pt.packet ring idx = some k) : k.ring = ring ∧ k.idx = idx := by
  have := List.find?_some h
  simpa using this

/-- After one packet is replaced, its reference finds the new one and every other reference what it found before. -/
theorem Part.packet_setPacket (pt : Part) (k : Packet) (ring idx : Nat) :
    (pt.setPacket k).packet ring idx =
      if ring = k.ring ∧ idx = k.idx then (pt.packet ring idx).map fun _ => k else pt.packet ring idx := by
  unfold Part.packet Part.setPacket
  dsimp only
  induction pt.packets with
  | nil => simp
  | cons x l ih =>
    simp only [List.map_cons, List.find?_cons]
    by_cases hx : x.ring = k.ring ∧ x.idx = k.idx
    · have hb : (x.ring == k.ring && x.idx == k.idx) = true := by simp [hx]
      by_cases hr : ring = k.ring ∧ idx = k.idx
      · obtain ⟨rfl, rfl⟩ := hr
        simp [hx]
      · have h1 : (k.ring == ring && k.idx == idx) = false := by
          rw [Bool.eq_false_iff]; intro e; simp at e; exact hr ⟨e.1.symm, e.2.symm⟩
        have h2 : (x.ring == ring && x.idx == idx) = false := by rw [hx.1, hx.2]; exact h1
        simp only [hb, if_true, h1, h2, ih, hr, if_false]
    · have hb : (x.ring == k.ring && x.idx == k.idx) = false := by
        rw [Bool.eq_false_iff]; intro e; simp at e; exact hx e
      by_cases hr : x.ring = ring ∧ x.idx = idx
      · have h1 : (x.ring == ring && x.idx == idx) = true := by simp [hr]
        have hn : ¬(ring = k.ring ∧ idx = k.idx) := fun e => hx ⟨hr.1.trans e.1, hr.2.trans e.2⟩
        simp [hb, h1, hn]
      · have h1 : (x.ring == ring && x.idx == idx) = false := by
          rw [Bool.eq_false_iff]; intro e; simp at e; exact hr e
        simp only [hb, Bool.false_eq_true, if_false, h1, ih]

theorem State.part_lt {s : State} {p : PacketRef} {k : Packet} (h : s.packet p = some k) : p.part < s.parts.length := by
  rcases Nat.lt_or_ge p.part s.parts.length with hl | hl
  · exact hl
  · exfalso
    have : s.part p.part = Part.reset := by simp [State.part, List.getElem?_eq_none hl]
    simp [State.packet, this, Part.packet, Part.reset] at h

/-- The packet that a reference finds has the reference's ring and index. -/
theorem State.packet_keys {s : State} {p : PacketRef} {k : Packet} (h : s.packet p = some k) : k.ring = p.ring ∧ k.idx = p.idx :=
  Part.packet_keys h

/-- A packet replaced is found at its reference. -/
theorem State.packet_setPacket {s : State} {p : PacketRef} {k k' : Packet} (h : s.packet p = some k) (hr : k'.ring = p.ring)
    (hi : k'.idx = p.idx) : (s.setPacket p.part k').packet p = some k' := by
  have hl := State.part_lt h
  rw [State.packet] at h ⊢
  rw [State.setPacket, State.part_modPart_self _ hl, Part.packet_setPacket, h]
  simp [hr, hi]

/-- A packet replaced leaves what every other reference finds. -/
theorem State.packet_setPacket_ne {s : State} {part : Nat} {k' : Packet} {r : PacketRef}
    (hr : r ≠ ⟨part, k'.ring, k'.idx⟩) : (s.setPacket part k').packet r = s.packet r := by
  rw [State.packet, State.packet, State.setPacket]
  by_cases hp : r.part = part
  · rcases Nat.lt_or_ge part s.parts.length with hl | hl
    · rw [hp, State.part_modPart_self _ hl, Part.packet_setPacket]
      have : ¬(r.ring = k'.ring ∧ r.idx = k'.idx) := by
        rintro ⟨h1, h2⟩; apply hr; cases r; simp_all
      simp [this]
    · simp [State.part, State.modPart, List.modify_eq_self, hl]
  · simp [hp]

/-! Stored data where no symbol is in error. -/

/-- A record in a log changes the partitions and the windows alone. -/
theorem State.log_eq (s : State) (p : Nat) (r : LogRecord) :
    ∃ ps ws, s.log p r = { s with parts := ps, windows := ws } := by
  have hs : ∀ (t : State) (b : Nat), ∃ ws, t.setSummary p b = { t with windows := ws } := by
    intro t b
    unfold State.setSummary
    generalize t.quarters p = qs
    have : ∀ (u : State), (∃ ws, u = { t with windows := ws }) →
        ∃ ws, qs.foldl (fun s q => s.modWindow q (·.setSummary b)) u = { t with windows := ws } := by
      induction qs with
      | nil => exact fun u h => h
      | cons q l ih =>
        rintro u ⟨ws, rfl⟩
        exact ih _ ⟨_, rfl⟩
    exact this t ⟨_, rfl⟩
  unfold State.log
  split
  · exact ⟨s.parts, s.windows, rfl⟩
  · dsimp only
    split
    · exact ⟨_, s.windows, rfl⟩
    · split
      · obtain ⟨w1, h1⟩ := hs (s.modPart p (·.append { r with stamp := s.mclk / 2 ^ 16 % 2 ^ 32 })) 4
        obtain ⟨w2, h2⟩ := hs ((s.modPart p (·.append { r with stamp := s.mclk / 2 ^ 16 % 2 ^ 32 })).setSummary p 4) 5
        rw [h2, h1]; exact ⟨_, _, rfl⟩
      · obtain ⟨w1, h1⟩ := hs (s.modPart p (·.append { r with stamp := s.mclk / 2 ^ 16 % 2 ^ 32 })) 4
        rw [h1]; exact ⟨_, _, rfl⟩

/-- Bytes and symbol faults as they were. -/
def SameBytes (s t : State) : Prop := t.mem = s.mem ∧ t.faults = s.faults

theorem SameBytes.trans {s t u : State} (h : SameBytes s t) (g : SameBytes t u) : SameBytes s u :=
  ⟨g.1.trans h.1, g.2.trans h.2⟩

theorem State.log_bytes (s : State) (p : Nat) (r : LogRecord) : SameBytes s (s.log p r) := by
  obtain ⟨ps, ws, h⟩ := s.log_eq p r
  rw [h]; exact ⟨rfl, rfl⟩

theorem State.memEvent_bytes (s : State) (ev a pos st ring : Nat) : SameBytes s (s.memEvent ev a pos st ring) := by
  unfold State.memEvent
  split
  · exact s.log_bytes _ _
  · exact ⟨rfl, rfl⟩

theorem foldl_bytes {α : Type} {f : State → α → State} (hf : ∀ s x, s.faults = [] → SameBytes s (f s x)) (l : List α) (s : State)
    (h : s.faults = []) : SameBytes s (l.foldl f s) := by
  induction l generalizing s with
  | nil => exact ⟨rfl, rfl⟩
  | cons x l ih =>
    have h1 := hf s x h
    exact h1.trans (ih _ (h1.2.trans h))

theorem State.readEffects_bytes {s : State} (h : s.faults = []) (a len st ring : Nat) : SameBytes s (s.readEffects a len st ring) := by
  unfold State.readEffects
  split
  · exact ⟨rfl, rfl⟩
  · simp only [h, List.isEmpty_nil, if_true]
    exact foldl_bytes (fun t x _ => t.memEvent_bytes _ _ _ _ _) _ _ h

theorem State.addPoison_bytes (s : State) (u : Nat) : SameBytes s (s.addPoison u) := ⟨rfl, rfl⟩

theorem State.cleanUnit_bytes {s : State} (h : s.faults = []) (u : Nat) : SameBytes s (s.cleanUnit u) :=
  ⟨rfl, by simp [State.cleanUnit, h]⟩

theorem State.drain_bytes {s : State} (h : s.faults = []) (g : Nat) : SameBytes s (s.drain g) := by
  unfold State.drain
  split
  · exact ⟨rfl, rfl⟩
  · dsimp only
    split
    · exact SameBytes.trans (t := { s with merge := _ }) ⟨rfl, rfl⟩ (foldl_bytes (fun t x ht => t.cleanUnit_bytes ht x) _ _ h)
    · simp only [h, List.isEmpty_nil, if_true]
      exact ⟨rfl, h.symm⟩

/-- Bytes stored from an address, no symbol being in error. -/
def Stored (m : Tbl Byte) (a : Nat) (bs : List Byte) (t : State) : Prop := t.mem = putBytes m a bs ∧ t.faults = []

theorem Stored.same {m : Tbl Byte} {a : Nat} {bs : List Byte} {t u : State} (h : Stored m a bs t) (g : SameBytes t u) : Stored m a bs u :=
  ⟨g.1.trans h.1, g.2.trans h.2⟩

theorem State.putVisible_bytes {s t : State} (h : s.faults = []) (g : SameBytes s t) (a : Nat) (bs : List Byte) :
    Stored s.mem a bs (t.putVisible a bs) := ⟨by simp [State.putVisible, g.1], by simp [State.putVisible, g.2, h]⟩

/-- A narrow write stores its bytes. -/
theorem State.mergeNarrow_bytes {s : State} (h : s.faults = []) (a : Nat) (bs : List Byte) : Stored s.mem a bs (s.mergeNarrow a bs) := by
  unfold State.mergeNarrow
  dsimp only
  split
  · have h1 := State.putVisible_bytes h ⟨rfl, rfl⟩ a bs
    split
    · exact Stored.same (t := { s.putVisible a bs with merge := _ }) h1 (State.drain_bytes (by exact h1.2) _)
    · exact h1
  · have hd : ∀ t : State, SameBytes s t → ∀ m', Stored s.mem a bs { t.putVisible a bs with merge := m' } :=
      fun t ht m' => State.putVisible_bytes h ht a bs
    refine hd _ ?_ _
    split
    · exact ⟨rfl, rfl⟩
    · split
      · exact ⟨rfl, rfl⟩
      · exact State.drain_bytes h _

theorem putBytes_append (m : Tbl Byte) (a : Nat) (xs ys : List Byte) :
    putBytes m a (xs ++ ys) = putBytes (putBytes m a xs) (a + xs.length) ys := by
  induction xs generalizing m a with
  | nil => rfl
  | cons x xs ih => simp only [List.cons_append, putBytes, ih, List.length_cons]; congr 1; omega

/-- A run of bytes stored in two parts is stored as one. -/
theorem Stored.append {m : Tbl Byte} {a b : Nat} {xs ys zs : List Byte} {t u : State} (h : Stored m a xs t) (g : Stored t.mem b ys u)
    (hb : b = a + xs.length) (hz : zs = xs ++ ys) : Stored m a zs u := by
  subst hb hz
  exact ⟨by rw [g.1, h.1, putBytes_append], g.2⟩

/-- A write within a granule stores its bytes. -/
theorem State.storePiece_bytes {s : State} (h : s.faults = []) (a : Nat) (bs : List Byte) (po : Bool) :
    Stored s.mem a bs (s.storePiece a bs po) := by
  have hd := State.drain_bytes h (a / 64 * 64)
  have hf : (s.drain (a / 64 * 64)).faults = [] := hd.2.trans h
  unfold State.storePiece
  dsimp only
  generalize (if inSump a = true then 64 else 16) = w
  split
  · have : bs = [] := List.eq_nil_of_length_eq_zero ‹_›
    subst this; exact ⟨rfl, h⟩
  · split
    · exact Stored.same (State.putVisible_bytes h hd a bs) (foldl_bytes (fun t x _ => t.addPoison_bytes x) _ _ (State.putVisible_bytes h hd a bs).2)
    · split
      · rename_i hlt
        have hlo : a ≤ ceilDiv a w * w := by
          rcases Nat.eq_zero_or_pos w with hw | hw
          · subst hw; simp at hlt
          · have := Nat.div_add_mod (a + w - 1) w
            have h2 := Nat.mod_lt (a + w - 1) hw
            rw [Nat.mul_comm] at this
            unfold ceilDiv
            omega
        have hhi : (a + bs.length) / w * w ≤ a + bs.length := Nat.div_mul_le_self _ _
        generalize ceilDiv a w * w = lo at hlo hlt ⊢
        generalize (a + bs.length) / w * w = hi at hhi hlt ⊢
        have hx : Stored s.mem a (bs.take (lo - a)) (if a < lo then (s.drain (a / 64 * 64)).mergeNarrow a (bs.take (lo - a)) else s.drain (a / 64 * 64)) := by
          split
          · have := State.mergeNarrow_bytes hf a (bs.take (lo - a))
            rwa [hd.1] at this
          · have : lo - a = 0 := by omega
            rw [this]
            exact ⟨hd.1, hf⟩
        generalize (if a < lo then (s.drain (a / 64 * 64)).mergeNarrow a (bs.take (lo - a)) else s.drain (a / 64 * 64)) = s2 at hx ⊢
        have hy := State.putVisible_bytes hx.2 ⟨rfl, rfl⟩ lo ((bs.drop (lo - a)).take (hi - lo))
        have hy2 := hy.same (foldl_bytes (fun t x ht => t.cleanUnit_bytes ht x) ((List.range ((hi - lo) / w)).map fun i => lo + i * w) _ hy.2)
        have hz : Stored s.mem a (bs.take (hi - a)) _ := hx.append hy2 (by rw [List.length_take]; omega) (by
          have : hi - a = (lo - a) + (hi - lo) := by omega
          rw [this, List.take_add])
        split
        · exact hz.append (State.mergeNarrow_bytes hz.2 hi (bs.drop (hi - a))) (by rw [List.length_take]; omega) (List.take_append_drop _ _).symm
        · have : bs.take (hi - a) = bs := List.take_of_length_le (by omega)
          rw [this] at hz
          exact hz
      · exact State.mergeNarrow_bytes h a bs

theorem pieces_putBytes (fuel a : Nat) (bs : List Byte) (m : Tbl Byte) (h : bs.length + a % 64 ≤ 64 * fuel) :
    (pieces fuel a bs).foldl (fun m p => putBytes m p.1 p.2) m = putBytes m a bs := by
  induction fuel generalizing a bs m with
  | zero =>
    have : bs = [] := List.eq_nil_of_length_eq_zero (by omega)
    subst this; rfl
  | succ fuel ih =>
    cases bs with
    | nil => rfl
    | cons b bs =>
      simp only [pieces, List.foldl_cons]
      have hm : a % 64 < 64 := Nat.mod_lt _ (by decide)
      rw [ih]
      · have key := putBytes_append m a ((b :: bs).take (64 - a % 64)) ((b :: bs).drop (64 - a % 64))
        rw [List.take_append_drop] at key
        rw [key]
        rcases Nat.lt_or_ge (b :: bs).length (64 - a % 64) with hl | hl
        · rw [List.drop_eq_nil_of_le (Nat.le_of_lt hl)]; rfl
        · rw [List.length_take, Nat.min_eq_left hl]
      · simp only [List.length_drop, List.length_cons] at h ⊢
        have : (a + (64 - a % 64)) % 64 = 0 := by omega
        omega

/-- A write stores its bytes, one after the other. -/
theorem State.store_bytes {s : State} (h : s.faults = []) (w : Write) :
    (s.store w).mem = putBytes s.mem w.addr w.bytes ∧ (s.store w).faults = [] := by
  unfold State.store
  have : ∀ (l : List (Nat × List Byte)) (t : State), t.faults = [] →
      (l.foldl (fun s p => s.storePiece p.1 p.2 w.poison) t).mem = l.foldl (fun m p => putBytes m p.1 p.2) t.mem ∧
      (l.foldl (fun s p => s.storePiece p.1 p.2 w.poison) t).faults = [] := by
    intro l
    induction l with
    | nil => exact fun t ht => ⟨rfl, ht⟩
    | cons x l ih =>
      intro t ht
      have h1 := State.storePiece_bytes ht x.1 x.2 w.poison
      have h2 := ih _ h1.2
      exact ⟨by rw [List.foldl_cons, List.foldl_cons, h2.1, h1.1], h2.2⟩
  refine ⟨(this _ s h).1.trans (pieces_putBytes _ _ _ _ ?_), (this _ s h).2⟩
  have : w.addr % 64 < 64 := Nat.mod_lt _ (by decide)
  omega

theorem written_coalesce (m : Tbl Byte) (ws : List Write) : written m (coalesce ws) = written m ws := by
  induction ws generalizing m with
  | nil => rfl
  | cons w ws ih =>
    have hc : written m (w :: ws) = written (putBytes m w.addr w.bytes) (coalesce ws) := (ih _).symm
    rw [hc, coalesce]
    split
    · rename_i e; rw [e]; rfl
    · rename_i v vs e
      rw [e]
      split
      · rename_i hadj
        simp only [written, List.foldl_cons, putBytes_append, hadj.1]
      · rfl

/-- The writes of a packet store their bytes in order. -/
theorem State.storeAll_bytes {s : State} (h : s.faults = []) (ws : List Write) :
    (s.storeAll ws).mem = written s.mem ws ∧ (s.storeAll ws).faults = [] := by
  unfold State.storeAll
  rw [← written_coalesce]
  generalize coalesce ws = l
  induction l generalizing s with
  | nil => exact ⟨rfl, h⟩
  | cons w l ih =>
    have h1 := State.store_bytes h w
    have h2 := ih h1.2
    exact ⟨by rw [List.foldl_cons, h2.1, h1.1]; rfl, h2.2⟩

/-! The work of a packet. -/

theorem OnlyData.work {s t : State} (p : Nat) (h : OnlyData s t) : OnlyWork p s t :=
  congrArg (fun u : State =>
    ({ u with parts := u.parts.modify p fun pt => { pt with packets := [] }, busy := [], stall := [], residues := [], banks := [], riddles := [], retiring := [] } : State)) h

theorem OnlyWork.trans {p : Nat} {s t u : State} (h : OnlyWork p s t) (g : OnlyWork p t u) : OnlyWork p s u := Eq.trans g h

theorem State.mismatch_work (p : Nat) (s : State) (ring a : Nat) : OnlyWork p s (s.mismatch ring a) :=
  have h : OnlyWork p s (s.logQuarter (a / 64) { mkEvent 0x40 a 0 with status := ERR_DATAPATH, ring := ring }) :=
    OnlyData.work p (State.logQuarter_only s _ _ rfl)
  h

theorem State.addBusy_work (p : Nat) (s : State) (bs : List (Nat × Nat)) : OnlyWork p s (s.addBusy bs) := rfl

theorem State.keepArrays_work (p : Nat) (s : State) (bs : List (Nat × List AccBank)) (rs : List (Nat × List RiddleEntry)) :
    OnlyWork p s (s.keepArrays bs rs) := rfl

theorem foldl_work {α : Type} {p : Nat} {f : State → α → State} (hf : ∀ s x, OnlyWork p s (f s x)) (l : List α) (s : State) :
    OnlyWork p s (l.foldl f s) := by
  induction l generalizing s with
  | nil => rfl
  | cons x l ih => exact OnlyWork.trans (hf s x) (ih _)

theorem State.workEffects_work (p : Nat) (s : State) (k : Packet) (st : Nat) (up : Bool) (w : WorkOut) :
    OnlyWork p s (s.workEffects k st up w) := by
  unfold State.workEffects
  dsimp only
  have h1 : OnlyWork p s (w.reads.foldl (fun s r => s.readEffects r.1 r.2 st k.ring) s) :=
    foldl_work (fun t x => OnlyData.work p (State.readEffects_only t _ _ _ _ rfl)) _ _
  have h2 : OnlyWork p s (if up then (w.reads.foldl (fun s r => s.readEffects r.1 r.2 st k.ring) s).storeAll w.writes
      else w.reads.foldl (fun s r => s.readEffects r.1 r.2 st k.ring) s) := by
    split
    · exact OnlyWork.trans h1 (OnlyData.work p (State.storeAll_only _ _ rfl))
    · exact h1
  exact OnlyWork.trans (OnlyWork.trans (OnlyWork.trans h2 (State.addBusy_work p _ _)) (State.keepArrays_work p _ _ _)) (foldl_work (fun t x => State.mismatch_work p t _ _) _ _)

theorem State.workEffects_bytes {s : State} (h : s.faults = []) (k : Packet) (st : Nat) (up : Bool) (w : WorkOut) :
    (s.workEffects k st up w).mem = (if up then written s.mem w.writes else s.mem) ∧ (s.workEffects k st up w).faults = [] := by
  unfold State.workEffects
  dsimp only
  have h1 : SameBytes s (w.reads.foldl (fun s r => s.readEffects r.1 r.2 st k.ring) s) :=
    foldl_bytes (fun t x ht => State.readEffects_bytes ht _ _ _ _) _ _ h
  generalize w.reads.foldl (fun s r => s.readEffects r.1 r.2 st k.ring) s = s1 at h1
  have h2 : (if up then s1.storeAll w.writes else s1).mem = (if up then written s.mem w.writes else s.mem)
      ∧ (if up then s1.storeAll w.writes else s1).faults = [] := by
    split
    · have := State.storeAll_bytes (h1.2.trans h) w.writes
      exact ⟨by rw [this.1, h1.1], this.2⟩
    · exact ⟨h1.1, h1.2.trans h⟩
  generalize (if up then s1.storeAll w.writes else s1) = s2 at h2
  have h3 := foldl_bytes (f := fun s a => s.mismatch k.ring a)
    (fun t x _ => show SameBytes t (t.mismatch k.ring x) from t.log_bytes _ _) w.mismatched ((s2.addBusy w.busy).keepArrays w.banks w.riddles) h2.2
  exact ⟨h3.1.trans h2.1, h3.2.trans h2.2⟩

theorem modify_map_packets (l : List Part) (p : Nat) (f : Part → Part)
    (hf : ∀ pt, { Safety.sansLog (f pt) with packets := [] } = { Safety.sansLog pt with packets := [] }) :
    ((l.modify p f).map Safety.sansLog).modify p (fun pt => { pt with packets := [] })
      = (l.map Safety.sansLog).modify p fun pt => { pt with packets := [] } := by
  induction l generalizing p with
  | nil => simp
  | cons x l ih => cases p with
    | zero => simp only [List.modify_zero_cons, List.map_cons, hf]
    | succ p => simp only [List.modify_succ_cons, List.map_cons, ih]

/-- A change of a partition's packets alone. -/
theorem State.modPart_work (p : Nat) (s : State) (f : Part → Part)
    (hf : ∀ pt, { Safety.sansLog (f pt) with packets := [] } = { Safety.sansLog pt with packets := [] }) :
    OnlyWork p s (s.modPart p f) := by
  unfold OnlyWork Safety.sansWork
  simp only [Safety.sansData, State.modPart, modify_map_packets s.parts p f hf]

theorem State.setPacket_work (p : Nat) (s : State) (k : Packet) : OnlyWork p s (s.setPacket p k) :=
  State.modPart_work p s _ fun _ => rfl

/-! Packets through an access to memory. -/

/-- The partitions but for their logs. -/
def SameParts (s t : State) : Prop := t.parts.map Safety.sansLog = s.parts.map Safety.sansLog

theorem SameParts.trans {s t u : State} (h : SameParts s t) (g : SameParts t u) : SameParts s u := Eq.trans g h

theorem OnlyData.parts {s t : State} (h : OnlyData s t) : SameParts s t := congrArg State.parts h

theorem foldl_parts {α : Type} {f : State → α → State} (hf : ∀ s x, SameParts s (f s x)) (l : List α) (s : State) :
    SameParts s (l.foldl f s) := by
  induction l generalizing s with
  | nil => rfl
  | cons x l ih => exact SameParts.trans (hf s x) (ih _)

/-- What a partition holds apart from its log is found as before. -/
theorem SameParts.part {s t : State} (h : SameParts s t) (p : Nat) : Safety.sansLog (t.part p) = Safety.sansLog (s.part p) := by
  have h1 : (t.parts.map Safety.sansLog)[p]? = (s.parts.map Safety.sansLog)[p]? := by rw [h]
  simp only [List.getElem?_map] at h1
  unfold State.part
  cases ht : t.parts[p]? <;> cases hs : s.parts[p]? <;> simp_all

theorem SameParts.packet {s t : State} (h : SameParts s t) (r : PacketRef) : t.packet r = s.packet r := by
  have h1 := congrArg Part.packets (h.part r.part)
  have h2 : (t.part r.part).packets = (s.part r.part).packets := h1
  unfold State.packet Part.packet
  rw [h2]

theorem State.workEffects_parts (s : State) (k : Packet) (st : Nat) (up : Bool) (w : WorkOut) :
    SameParts s (s.workEffects k st up w) := by
  unfold State.workEffects
  dsimp only
  have h1 : SameParts s (w.reads.foldl (fun s r => s.readEffects r.1 r.2 st k.ring) s) :=
    foldl_parts (fun t x => OnlyData.parts (State.readEffects_only t _ _ _ _ rfl)) _ _
  have h2 : SameParts s (if up then (w.reads.foldl (fun s r => s.readEffects r.1 r.2 st k.ring) s).storeAll w.writes
      else w.reads.foldl (fun s r => s.readEffects r.1 r.2 st k.ring) s) := by
    split
    · exact SameParts.trans h1 (OnlyData.parts (State.storeAll_only _ _ rfl))
    · exact h1
  have hm : ∀ (t : State) (a : Nat), SameParts t (t.mismatch k.ring a) := fun t a =>
    show SameParts t (t.logQuarter (a / 64) { mkEvent 0x40 a 0 with status := ERR_DATAPATH, ring := k.ring }) from
      OnlyData.parts (State.logQuarter_only t _ _ rfl)
  exact SameParts.trans (SameParts.trans h2 rfl) (foldl_parts hm _ _)

/-- The packet that work leaves finished (State.finish). -/
def State.finished (s : State) (k : Packet) (w : WorkOut) : Packet :=
  let w1 := if s.engineDown k then { w with reads := [], busy := [], mismatched := [], banks := [], riddles := [] } else w
  let codes := s.workCodes k w1.reads w1.writes ++ (if w1.mismatched.isEmpty then [] else [ERR_DATAPATH])
  { k with phase := .finished,
           res := if !codes.contains ERR_PEER_UNREACHABLE then { w1.res with codes := w1.res.codes ++ codes }
                  else { k.res.kept with codes := codes } }

/-- All that State.finish does: the packet is finished, every other packet is found as before, nothing but what work may change does,
and where no symbol is in error memory holds the work's writes, or what it held where something could not be reached. -/
theorem State.finish_spec {s : State} {p : PacketRef} {k : Packet} (h : s.packet p = some k) (w : WorkOut) :
    (s.finish p.part k w).packet p = some (s.finished k w)
      ∧ (∀ r, r ≠ p → (s.finish p.part k w).packet r = s.packet r)
      ∧ OnlyWork p.part s (s.finish p.part k w)
      ∧ (s.faults = [] → (s.finish p.part k w).faults = [] ∧ (s.finish p.part k w).mem =
          if (s.workCodes k (if s.engineDown k then [] else w.reads) w.writes).contains ERR_PEER_UNREACHABLE then s.mem
          else written s.mem w.writes) := by
  obtain ⟨hr, hi⟩ := State.packet_keys h
  unfold State.finish
  dsimp only
  generalize hw : (if s.engineDown k = true then { w with reads := [], busy := [], mismatched := [], banks := [], riddles := [] } else w) = w1
  generalize hc : s.workCodes k w1.reads w1.writes ++ (if w1.mismatched.isEmpty then [] else [ERR_DATAPATH]) = codes
  have hk : s.finished k w = (let r : Result := if !codes.contains ERR_PEER_UNREACHABLE then { w1.res with codes := w1.res.codes ++ codes }
      else { k.res.kept with codes := codes }
    { k with phase := .finished, res := r }) := by
    unfold State.finished
    dsimp only
    rw [hw, hc]
  dsimp only at hk
  rw [← hk]
  have hkr : (s.finished k w).ring = p.ring := by rw [hk]; exact hr
  have hki : (s.finished k w).idx = p.idx := by rw [hk]; exact hi
  generalize s.finished k w = k' at *
  have hp := State.workEffects_parts s k k'.status (!codes.contains ERR_PEER_UNREACHABLE) w1
  refine ⟨State.packet_setPacket ((hp.packet p).trans h) hkr hki, fun r hne => ?_, ?_, fun hf => ?_⟩
  · rw [State.packet_setPacket_ne, hp.packet]
    intro e; apply hne; rw [e, hkr, hki]
  · exact OnlyWork.trans (State.workEffects_work _ _ _ _ _ _) (State.setPacket_work _ _ _)
  · have hb := State.workEffects_bytes hf k k'.status (!codes.contains ERR_PEER_UNREACHABLE) w1
    refine ⟨hb.2, hb.1.trans ?_⟩
    have hreads : w1.reads = if s.engineDown k then [] else w.reads := by rw [← hw]; split <;> rfl
    have hwrites : w1.writes = w.writes := by rw [← hw]; split <;> rfl
    have hcont : codes.contains ERR_PEER_UNREACHABLE
        = (s.workCodes k (if s.engineDown k then [] else w.reads) w.writes).contains ERR_PEER_UNREACHABLE := by
      rw [← hc, hreads, hwrites, List.contains_append]
      have : (if w1.mismatched.isEmpty then [] else [ERR_DATAPATH]).contains ERR_PEER_UNREACHABLE = false := by split <;> decide
      rw [this, Bool.or_false]
    rw [hcont, hwrites]
    cases (s.workCodes k (if s.engineDown k then [] else w.reads) w.writes).contains ERR_PEER_UNREACHABLE <;> rfl

/-- The packet that its own part leaves (State.begin). -/
def State.begun (s : State) (k : Packet) (w : WorkOut) (r : Remote) : Packet :=
  let codes := s.workCodes k w.reads w.writes
  let up := !codes.contains ERR_PEER_UNREACHABLE
  { k with phase := if up then .running else .finished,
           res := if up then { w.res with codes := w.res.codes ++ codes } else { k.res.kept with codes := codes }, remote := some r }

/-- All that State.begin does: the packet runs, or is finished where something could not be reached, every other packet is found as before,
nothing but what work may change does, and where no symbol is in error memory holds the work's writes, or what it held. -/
theorem State.begin_spec {s : State} {p : PacketRef} {k : Packet} (h : s.packet p = some k) (w : WorkOut) (r : Remote) :
    (s.begin p.part k w r).packet p = some (s.begun k w r)
      ∧ (∀ q, q ≠ p → (s.begin p.part k w r).packet q = s.packet q)
      ∧ OnlyWork p.part s (s.begin p.part k w r)
      ∧ (s.faults = [] → (s.begin p.part k w r).faults = [] ∧ (s.begin p.part k w r).mem =
          if (s.workCodes k w.reads w.writes).contains ERR_PEER_UNREACHABLE then s.mem else written s.mem w.writes) := by
  obtain ⟨hr, hi⟩ := State.packet_keys h
  have hb : s.begin p.part k w r = (s.workEffects k (s.begun k w r).status (!(s.workCodes k w.reads w.writes).contains ERR_PEER_UNREACHABLE) w).setPacket
      p.part (s.begun k w r) := rfl
  rw [hb]
  have hkr : (s.begun k w r).ring = p.ring := hr
  have hki : (s.begun k w r).idx = p.idx := hi
  generalize s.begun k w r = k' at *
  have hp := State.workEffects_parts s k k'.status (!(s.workCodes k w.reads w.writes).contains ERR_PEER_UNREACHABLE) w
  refine ⟨State.packet_setPacket ((hp.packet p).trans h) hkr hki, fun q hne => ?_, ?_, fun hf => ?_⟩
  · rw [State.packet_setPacket_ne, hp.packet]
    intro e; apply hne; rw [e, hkr, hki]
  · exact OnlyWork.trans (State.workEffects_work _ _ _ _ _ _) (State.setPacket_work _ _ _)
  · have hm := State.workEffects_bytes hf k k'.status (!(s.workCodes k w.reads w.writes).contains ERR_PEER_UNREACHABLE) w
    refine ⟨hm.2, hm.1.trans ?_⟩
    cases (s.workCodes k w.reads w.writes).contains ERR_PEER_UNREACHABLE <;> rfl

end Sys2Proof.Machine
end

