-- ==== Sys2Proof/WellFormed.lean ====
section
/-! DEFINITION. Which commands are well formed: operands in the ranges that the manual gives what they name. -/

namespace Sys2Proof

/-- A packet's partition, ring and free-running index (R8, R24, R25). -/
def PacketRef.ok (p : PacketRef) : Bool := decide (p.part < 4 ∧ p.ring < 256 ∧ p.idx < 2 ^ 32)

/-- A path's function (R17, R320). -/
def Path.ok : Path → Bool
  | .bar0 fn => decide (fn < 4)
  | .reg fn => decide (fn < 4)
  | .smbus => true

/-- A resource's unit number (R457); a gang's is its handle less 0x0100, 256 for the whole gang (Table 5.6). -/
def Resource.ok : Resource → Bool
  | .gang n => decide (n ≤ 256)
  | .array n => decide (n < 256)
  | .vector n => decide (n < 256)
  | .haul n => decide (n < 64)
  | .dressing n => decide (n < 16)
  | .core n => decide (n < 32)

/-- A message's fields in their widths (Table 13.2): LEN is 0 to 4,096, and the data bytes are LEN of them, or none for a request that
only asks. -/
def Msg.ok (m : Msg) : Bool :=
  decide (m.mtype < 256 ∧ m.mflags < 256 ∧ m.dstEp < 32768 ∧ m.srcEp < 32768 ∧ m.epoch < 2 ^ 32 ∧ m.msgId < 2 ^ 32 ∧ m.addr < 2 ^ 64
    ∧ m.len ≤ 4096 ∧ m.poisonMap < 2 ^ 64 ∧ (m.data.length = m.len ∨ m.data = []))

/-- A router and one of its ports (R287, R288). -/
def Attach.ok (a : Attach) : Bool := decide (a.router < 128 ∧ a.port < 10)

/-- A link's router and port, or crossing port (R287, R289). -/
def FabricLink.ok : FabricLink → Bool
  | .mesh r p | .unit r p => (⟨r, p⟩ : Attach).ok
  | .crossing p _ => decide (p < 64)

/-- A fabric flit: one of a message of 1 to 64 flits between two attachments, with 64 B of payload (R288). -/
def FabricFlit.ok (f : FabricFlit) : Bool :=
  f.msg.src.ok && f.msg.dst.ok && decide (f.index < f.msg.flits ∧ f.msg.flits ≤ 64 ∧ f.payload.length = 64)

/-- An aperture access that the endpoint takes (R320): a payload of at most 512 B, a read of at most 4 KiB. -/
def ApertureOp.ok : ApertureOp → Bool
  | .write d => decide (d.length ≤ 512)
  | .read n => decide (n ≤ 4096)

/-- The half of a trip (R454). -/
def TripCause.ok : TripCause → Bool
  | .junction h => decide (h < 2)
  | .overpower => true

/-- A boot's units in their ranges, with its eight sockets (R258, Table 1.1). -/
def BootEnv.ok (e : BootEnv) : Bool :=
  decide (e.dimms.length = 8) && e.badArrays.all (fun a => decide (a < 256)) && e.badSlices.all (fun a => decide (a < 256))
    && e.badStacks.all (fun a => decide (a < 8)) && e.portLanes.all fun x => decide (x.1 < 20 ∧ x.2 < 16)

/-- Whether a command's operands lie in the ranges of what they name. -/
def Instr.wf : Instr → Bool
  | .doorbellWrite path quarter k _ | .bounceDoorbellWrite path quarter k _ =>
    path.ok && decide (quarter < 4) && decide (k < 64)
  | .slotFetch part ring | .packetIssue part ring =>
    decide (part < 4) && decide (ring < 256)
  | .packetComplete p | .configSet p | .configGet p | .ringBind p | .ringUnbind p | .ringRebindApply p | .gangForm p
  | .gangDissolve p | .gangChangeTurn p | .matmul p | .spmmCsr p | .spmmNm p | .spsp p | .sddmm p | .groupedMatmul p
  | .predictActive p | .compress p | .maskedit p | .maskeditRefsReleased p | .twinBuild p | .eltwise p | .reduceDim p
  | .softmaxBwd p | .normBwd p | .quantize p | .updateWeight p | .updateOldVersionReleased p | .updateTurn p
  | .versionQueueRelease p | .dress p | .copyTensor p | .windowExpand p | .route p | .dispatchRows p | .dispatchCompact p
  | .combineRows p | .combineBwd p | .placeExpertsSet p | .placeExpertsStep p | .placementRevision p | .placeExpertsRelease p
  | .scaleAgree p | .rsInt p | .allgather p | .allgatherSlotFree p | .alltoall p | .permuteShards p | .stagingSetFree p
  | .barrier p | .epochSetAdvance p | .epochSetJoin p | .tsDemux p | .decodeVideo p | .patchify p | .shufflePlan p | .snapBegin p
  | .snapDiscard p | .snapWrite p | .snapParity p | .snapParityHoldEnd p | .snapCommit p | .restoreGen p | .rebuild p
  | .watchRead p | .layerScaleSet p | .layerScaleUnbind p | .emulateSet p | .scrubSet p | .remapAdd p | .retireUnit p
  | .retireDrainEnd p | .errlogRead p | .attest p | .hostGen p | .hostAccept p | .clearHost p | .keyExchangePort p | .clearPort p
  | .bounceBind p | .bounceUnbind p | .bounceSend p | .bounceSendRoom p | .partitionSet p | .poolResize p
  | .placementHoldRelease p | .restoreEntryWaitEnd p | .rebuildHoldEnd p | .unitReset p | .quiesceRequest p | .standbyRequest p
  | .activeRequest p =>
    p.ok
  | .ringServiceGrant part res _ _ =>
    decide (part < 4) && res.ok
  | .emptyGrant part res =>
    decide (part < 4) && res.ok
  | .quotaWindowEnd part | .heartbeatTimer part | .poolRetry part | .quiesceReached part | .standbyReached part
  | .standbyWakeDone part =>
    decide (part < 4)
  | .splitKCombine p _ =>
    p.ok
  | .exchangeTimeout p _ =>
    p.ok
  | .bucketReduce p _ =>
    p.ok
  | .peerLost part endpoint =>
    decide (part < 4) && decide (endpoint < 32768)
  | .collTimeout p _ =>
    p.ok
  | .parityUnitXor p _ =>
    p.ok
  | .rebuildStripe p _ =>
    p.ok
  | .arrayAutoRetire array =>
    decide (array < 256)
  | .reinstate p _ =>
    p.ok
  | .bounceRecord part queue record =>
    decide (part < 4) && decide (queue < 16) && decide (record.length = 4096)
  | .partitionChange | .watchdogExpiry | .pcieHotReset | .alertResponse =>
    true
  | .partitionChangeComplete _ | .bootReady _ =>
    true
  | .benchIdleGate bench =>
    decide (bench < 32)
  | .registerWrite path win offset size _ =>
    path.ok && decide (win < 8) && decide (offset < 65536) && decide (0 < size)
  | .rcRegisterRead path win offset | .linkCounterRead path win offset =>
    path.ok && decide (win < 5) && decide (offset < 65536)
  | .wideSelWrite path win _ =>
    path.ok && decide (win < 5)
  | .wideCapture win =>
    decide (win < 5)
  | .streamReset path quarter _ =>
    path.ok && decide (quarter < 4)
  | .partitionReset path quarter =>
    path.ok && decide (quarter < 4)
  | .moduleReset path =>
    path.ok
  | .perstNRise _ =>
    true
  | .vinPresent _ =>
    true
  | .coldReset _ env =>
    env.ok
  | .pwrEnFall _ =>
    true
  | .powerFault _ =>
    true
  | .throttleTick _ =>
    true
  | .aclkStep half | .seamPeerDown half | .seamPeerUp half =>
    decide (half < 2)
  | .thermalTrip cause =>
    cause.ok
  | .sytenFatalError _ =>
    true
  | .pllLossOfLock clock =>
    decide (clock ≤ 42)
  | .geoIdSample pins =>
    decide (pins < 32)
  | .scrubRead mem unit | .scrubPassEnd mem unit =>
    decide (unit < if mem = .scratchpad then 256 else 8)
  | .mergeEntryTimeout granule =>
    decide (granule % 64 = 0)
  | .fabricFlitReceive link flit =>
    link.ok && flit.ok
  | .meshLinkFailed link =>
    link.ok
  | .flitReceive port _ flit =>
    decide (port < 20) && decide (flit.length = 256)
  | .retryReq port ack _ =>
    decide (port < 20) && decide (ack < 4096)
  | .laneFault port lane =>
    decide (port < 20) && decide (lane < 4)
  | .retrain port | .portRetrainAttempt port =>
    decide (port < 20)
  | .retrainDone port passing =>
    decide (port < 20) && (passing.all fun l => decide (l < 4))
  | .writeMsg port m | .readReqMsg port m | .readRespMsg port m | .atomicMsg port m | .atomicRespMsg port m | .writeAckMsg port m
  | .regMsg port m | .regRespMsg port m | .readyMsg port m | .doneMsg port m | .arriveMsg port m | .heartbeatMsg port m
  | .staleMsg port m | .lostMsg port m | .notifyMsg port m =>
    decide (port < 20) && m.ok
  | .bar2Access fn offset size _ =>
    decide (fn < 4) && decide (offset < 0x800000) && decide (0 < size)
  | .apertureAccess fn offset access =>
    decide (fn < 4) && decide (offset < 2 ^ 36) && access.ok
  | .bridgeReadTimeout msgId =>
    decide (msgId < 2 ^ 33)
  | .msixUnmask fn vector =>
    decide (fn < 4) && decide (vector < 64)
  | .regWrite _ payload | .regAddr _ payload | .cfgOpen _ payload | .cfgData _ payload | .cfgClose _ payload =>
    decide (payload.length ≤ 255)
  | .regRead _ | .cfgStatus _ =>
    true
  | .cfgWriteDone _ =>
    true
  | .unlockReq _ | .answer _ =>
    true
  | .pcieLinkUp speed width =>
    decide (1 ≤ speed ∧ speed ≤ 6) && decide (width = 1 ∨ width = 4 ∨ width = 8 ∨ width = 16)
  | .badAccessRead path win offset size =>
    path.ok && decide (win < 8) && decide (offset < 65536) && decide (0 < size)

end Sys2Proof
end

