-- ==== Sys2Proof/Tests/Slice0.lean ====
section
/-! SUPPORT. Tests of the model: the refusals of Instr.wf, results that the spec states, and for each statement with hypotheses a state
and operands that meet them together. -/

namespace Sys2Proof.Tests

open Sys2Proof.Machine

/-! Small states. -/

/-- A header of an opcode with nothing else set. -/
def hdr (opcode : Nat) : Header := ⟨opcode, 0, 0, 0, 0, 0, 0, 0, 0, 0, 0, 0, 0⟩

/-- A snapshot of a parameter block alone. -/
def snapOf (params : List Byte) : Snap := ⟨params, [], [], [], [], none, [], 0, false, [], [], [], 0⟩

/-- Packet 0 of ring 1. -/
def pkt (opcode : Nat) (phase : Phase) (params : List Byte) : Packet :=
  ⟨1, 0, .F, hdr opcode, [], [], phase, some (snapOf params), [], [], [], [], none, [], Result.empty, false⟩

/-- Where that packet stands. -/
def ref : PacketRef := ⟨0, 1, 0⟩

/-- The module after reset with its partition changed. -/
def withPart (f : Part → Part) : State := State.reset.modPart 0 f

/-- The module after reset with one packet issued. -/
def holding (k : Packet) : State := withPart fun pt => { pt with packets := [k] }

/-- The context of that packet. -/
def ctxOf (k : Packet) (params : List Byte) : Ctx := ⟨holding k, 0, k, snapOf params⟩

/-- A ring of class F bound with 16 slots and 16 records. -/
def boundRing : Ring := { Ring.unbound with binding := some ⟨.F, 4, 4, false, false, 64, 0x10000, 0x20000, 1⟩ }

/-! The queue, the invariant, and packets at work. -/

theorem witness_StepRunsFront : State.reset.pending = [] ∧ ({ State.reset with pending := [.partitionChange] } : State).pending = [.partitionChange] := by decide

theorem witness_StepKeepsInvariant :
    ∃ s t, s.pending = [.wideSelWrite .smbus 4 1] ∧ Safety.Inv s ∧ step s = .next t :=
  ⟨{ State.reset with pending := [.wideSelWrite .smbus 4 1] }, _, rfl, ⟨by decide, by decide, by decide, by decide, by decide, by decide⟩, rfl⟩

theorem witness_IdentityKept : ∃ t, exec .watchdogExpiry State.reset = .next t := ⟨_, rfl⟩

/-- EMULATE_SET of array 2. -/
def emulateParams : List Byte := [2, 0, 1, 0]

theorem witness_OpcodeRuns :
    let k := pkt 0x0903 .ready emulateParams
    let c := ctxOf k emulateParams
    Claims.Ready (holding k) ref 0x0903 k c ∧ Claims.Reached (holding k) k (Claims.effects [.emulate (c.u 0 2) (c.u 2 1 == 1)])
      ∧ c.u 0 2 = 2 := ⟨⟨rfl, rfl, rfl, rfl, rfl⟩, ⟨by decide, by decide⟩, by decide⟩

theorem witness_OpcodeRuns_row : (⟨.emulateSet ref, 0x0903, fun _ => true, fun c => Claims.effects [.emulate (c.u 0 2) (c.u 2 1 == 1)]⟩ : Claims.OpcodeRow)
    ∈ Claims.opcodeRows ref := by simp [Claims.opcodeRows]

theorem witness_UnreachableWritesNothing :
    let k : Packet := { pkt 0x0903 .ready emulateParams with snap := some { snapOf emulateParams with leaves := [2] } }
    ({ holding k with halvesDown := [0] } : State).engineDown k = true ∧ (holding k).engineDown k = false := by decide

/-- A descriptor of one INT32 element at an address. -/
def oneElement (a : Nat) : Desc := { Desc.empty with base := a, fmt := 7, extRaw := [1, 1, 1, 1, 1], ext := [1, 1, 1, 1, 1] }

theorem witness_ProductRuns :
    let k := pkt 0x0201 .ready []
    let c := ctxOf k []
    ∃ w areas, Claims.Ready (holding k) ref 0x0201 k c ∧ (!c.snap.c3) = true ∧ c.jobWork c.matmulJob = (w, areas)
      ∧ Claims.Reached (holding k) k w := ⟨_, _, ⟨rfl, rfl, rfl, rfl, rfl⟩, rfl, rfl, ⟨by decide, by decide⟩⟩

/-- MATMUL of 64 output elements in two parts, whose last arrival is due. -/
theorem witness_SplitTileCombines :
    let d := { oneElement 0x1000 with ext := [64, 1, 1, 1, 1] }
    let k := { pkt 0x0201 .running [] with snap := some { snapOf [] with descs := [(0, oneElement 0), (1, d), (2, d)], leaves := [0, 1] }, combine := [⟨0, 2, 1, false, [], [], []⟩] }
    let c : Ctx := ⟨holding k, 0, k, { snapOf [] with descs := [(0, oneElement 0), (1, d), (2, d)], leaves := [0, 1] }⟩
    ∃ w areas, Claims.Running (holding k) ref k.hdr.opcode k c ∧ c.combineTile c.job 0 = some (w, areas)
      ∧ ((holding k).accessCodes k.carriers [] w.writes).contains ERR_PEER_UNREACHABLE = false :=
  by refine ⟨_, _, ⟨rfl, rfl, rfl, rfl, rfl⟩, rfl, ?_⟩; rfl

theorem witness_WrittenBytes :
    let s := State.reset
    let t : State := { s with mem := [(5, 9)] }
    Tbl.ok 0 s.mem = true ∧ s.faults = [] ∧ t.faults = [] ∧ t.mem = Safety.written s.mem ([] ++ [⟨5, [9], false⟩]) := by decide

theorem witness_SettingsRun :
    let k := pkt 0x0101 .ready [0, 0, 15, 0, 1, 0, 0, 0]
    let c := ctxOf k [0, 0, 15, 0, 1, 0, 0, 0]
    Claims.Ready (holding k) ref 0x0101 k c ∧ c.configKind = 2 ∧ Claims.Reached (holding k) k c.configSetWork :=
  ⟨⟨rfl, rfl, rfl, rfl, rfl⟩, by decide, ⟨by decide, by decide⟩⟩

theorem witness_HostKeysAccepted :
    let k := pkt 0x0B02 .ready [1]
    let s := withPart fun pt => { pt with packets := [k], host := { HostKeys.none with pendingDk := some [1] } }
    let c : Ctx := ⟨s, 0, k, snapOf [1]⟩
    Claims.Ready s ref 0x0B02 k c ∧ c.keyOp = 1 ∧ c.acceptsKeys = true ∧ (s.part 0).host.pendingDk.isSome = true
      ∧ Claims.Reached s k { reads := [(c.addr 8, 1088)], writes := [⟨c.addr 8 + 0x440, gcmTag c.hostKeys.2.1 (nonce96 c.hostKeys.2.2 (2 ^ 64 - 1)) [] [], false⟩], res := Result.empty } :=
  ⟨⟨rfl, rfl, rfl, rfl, rfl⟩, by decide +kernel, by decide +kernel, by decide +kernel, ⟨by decide +kernel, by decide +kernel⟩⟩

theorem witness_HostKeysAccepted_none :
    let k := pkt 0x0B02 .ready [1]
    let c := ctxOf k [1]
    Claims.Ready (holding k) ref 0x0B02 k c ∧ c.keyOp = 1 ∧ ((holding k).part 0).host.pendingDk = none ∧ c.acceptsKeys = false
      ∧ Claims.Reached (holding k) k { reads := [(c.addr 8, 1088)], writes := [], res := Result.empty } :=
  ⟨⟨rfl, rfl, rfl, rfl, rfl⟩, by decide +kernel, by decide +kernel, by decide +kernel, ⟨by decide +kernel, by decide +kernel⟩⟩

theorem witness_RemapAdds :
    let k := pkt 0x0A02 .ready (toLe 8 0x1000)
    let c := ctxOf k (toLe 8 0x1000)
    let s := holding k
    let x : Remap := ⟨.hbm, 1, 0, false, 0, [], []⟩
    Claims.Ready s ref 0x0A02 k c ∧ s.engineDown k = false ∧ s.isRemapped (c.addr 0) = false ∧ 0 < s.remapRoom (c.addr 0)
      ∧ s.localOf (c.addr 0) = some (.hbm, 1, 0) ∧ ({ s with remaps := [x] } : State).isRemapped 0x1000 = true
      ∧ ({ s with remaps := List.replicate 1024 { x with granule := 7 } } : State).remapRoom 0x1000 = 0
      ∧ ({ s with remaps := [{ x with granule := 7 }] } : State).isRemapped 0x1000 = false :=
  ⟨⟨rfl, rfl, rfl, rfl, rfl⟩, by decide, by decide, by decide, by decide, by decide, by decide +kernel, by decide⟩

/-- An entry on which packet 0 of ring 1 is at the front, with two numbers of references. -/
def turnEntry (cur old : Nat) : VersionEntry := { VersionEntry.zero with turns := [(1, 0)], refCur := cur, refOld := old }

theorem witness_TurnsAndWaitsEnd :
    (∀ op ∈ [0x0306, 0x0209], ∀ ph ∈ [Phase.turnWait, .refWait], ∀ v ∈ [turnEntry 0 0, turnEntry 1 1],
      let k := pkt op ph []
      let s := withPart fun pt => { pt with packets := [k], versions := [(3, v)] }
      s.packet ref = some k ∧ s.fatal = false ∧ (s.part 0).turnEntry k = some (3, v) ∧ v.turns.head? = some (k.ring, k.idx))
    ∧ (let k := pkt 0x0805 .refWait []
       (holding k).packet ref = some k ∧ (ctxOf k []).restoreWaits = false) := by decide

theorem witness_WaitingPacketsRun :
    (let k := pkt 0x0A03 .refWait [0, 0, 3, 0]
     let c : Ctx := ⟨holding { k with phase := .ready }, 0, { k with phase := .ready }, snapOf [0, 0, 3, 0]⟩
     (holding k).packet ref = some k ∧ ((holding k).part 0).drained k.work = true ∧ Claims.Reached c.s c.pkt c.retireWork)
    ∧ (let ps : List Byte := [0, 0, 9, 0, 1, 0, 0, 0]
       let k := pkt 0x0101 .refWait ps
       let c : Ctx := ⟨holding { k with phase := .ready }, 0, { k with phase := .ready }, snapOf ps⟩
       (holding k).packet ref = some k ∧ c.configKind = 1 ∧ ((holding k).part 0).reserved = false ∧ Claims.Reached c.s c.pkt c.configSetWork) :=
  ⟨⟨rfl, by decide, by decide, by decide⟩, ⟨rfl, by decide, by decide, by decide, by decide⟩⟩

theorem witness_RingBindApplies :
    ∀ ph ∈ [Phase.ready, .refWait], ∀ ps ∈ [[2, 0, 0, 4, 4, 0], ([2, 0, 0, 4, 4, 4] : List Byte)],
      let k := pkt 0x0103 ph ps
      let c := ctxOf k ps
      (holding k).packet ref = some k ∧ (holding k).engineDown k = false ∧ (c.unbinds = true ↔ ps[5]? = some 4)
        ∧ ((c.s.part 0).ring c.bindRing).binding = none
        ∧ ((c.s.part 0).packets.all fun x => x.ring != c.bindRing) = true := by decide

theorem witness_RingBindApplies_bound :
    let k := pkt 0x0103 .ready [255, 0, 0, 4, 4, 0]
    Claims.Ready (holding k) ref 0x0103 k (ctxOf k [255, 0, 0, 4, 4, 0]) ∧ (((holding k).part 0).ring (ctxOf k [255, 0, 0, 4, 4, 0]).bindRing).binding.isSome = true :=
  ⟨⟨rfl, rfl, rfl, rfl, rfl⟩, by decide⟩

/-! Rings, holds and the pool. -/

/-- The module after reset with ring 1 as given. -/
def withRing (r : Ring) : State := withPart fun pt => { pt with rings := Tbl.set Ring.unbound pt.rings 1 r }

theorem witness_DoorbellRule :
    let s := withRing boundRing
    s.pathReaches (.bar0 0) 0 = true ∧ s.pathReaches .smbus 3 = true ∧ s.windows.length = 5 ∧ (s.part 0).pstate = .active
      ∧ (s.part 0).servedBy 1 = none ∧ ((s.part 0).confidential && (s.part 0).host.keysSet) = false ∧ s.lowQ 0 = 0 := by decide

/-- The tail may stand a whole ring ahead, and no further; the completion head may not pass the tail. -/
theorem witness_DoorbellRule_taken : Claims.DoorbellTaken boundRing 16 ∧ ¬Claims.DoorbellTaken boundRing 17
    ∧ ¬Claims.DoorbellTaken boundRing (BitVec.ofNat 64 (2 ^ 32)) ∧ ¬Claims.DoorbellTaken Ring.unbound 0 := by
  refine ⟨⟨_, rfl, by decide, by decide⟩, ?_, ?_, ?_⟩ <;> (rintro ⟨b, hb, h1, h2⟩ ; cases hb)
  · exact absurd h1 (by decide)
  · exact absurd h2 (by decide)

/-- A bounce queue 0 of ring 1, with 16 records each way. -/
def queue0 : BounceQueue := { BounceQueue.zero with bound := true, ring := 1, log2 := 4 }

/-- The module with that queue, and keys set. -/
def bouncing : State := withPart fun pt =>
  { pt with bounce := [(0, queue0)], confidential := true, host := { HostKeys.none with keysSet := true }, rings := (1, boundRing) :: pt.rings }

theorem witness_BounceDoorbells :
    bouncing.pathReaches (.bar0 0) 0 = true ∧ bouncing.windows.length = 5 ∧ (bouncing.part 0).pstate = .active ∧ (bouncing.part 0).servedBy 1 = some 0
      ∧ (16 + 2 ^ 32 - queue0.inCons) % 2 ^ 32 ≤ 2 ^ queue0.log2 ∧ ¬((17 + 2 ^ 32 - queue0.inCons) % 2 ^ 32 ≤ 2 ^ queue0.log2) := by decide

theorem witness_DoorbellWakes :
    (∀ x ∈ [PState.quiesce, .standby], let s := withPart fun pt => { pt with pstate := x }
      s.pathReaches (.bar0 0) 0 = true ∧ s.windows.length = 5 ∧ s.parts.length = 4 ∧ (s.part (s.lowQ 0)).pstate = x)
    ∧ (bouncing.part 0).servedBy 2 = none ∧ (bouncing.part 0).confidential = true ∧ (bouncing.part 0).host.keysSet = true := by decide

theorem witness_SlotFetches :
    let s := withRing { boundRing with tail := 1 }
    s.mayFetch 0 1 = true ∧ s.reachable 0x10000 256 = true ∧ s.badOf 0x10000 64 = [] ∧ s.readNat 0x10004 4 = 0
      ∧ (withRing { boundRing with head := 1, tail := 2 }).readNat (0x10000 + 256 + 4) 4 ≠ 1
      ∧ ({ s with poison := [0x10000] } : State).badOf 0x10000 64 = [.poison] := by decide

/-- A slot of 256 bytes with a header's flags and the value of its first wait. -/
def slotOf (flags wait0 : Nat) : List Byte := padTo 256 (toLe 2 0 ++ toLe 2 flags ++ List.replicate 20 0 ++ toLe 8 wait0)

theorem witness_PacketIssues :
    (∀ x ∈ [(0, 0), (2, 0), (2, 1), (16, 0)],
      let f : Fetched := ⟨slotOf x.1 x.2, []⟩
      let h := Header.parse f.bytes
      ((withRing { boundRing with fetched := some f }).part 0).ring 1 = { boundRing with fetched := some f } ∧ h.flags = x.1 ∧ h.wait0Val = x.2)
    ∧ (withRing boundRing).isPart 0 = true ∧ (withRing boundRing).rebinding 0 1 = false
    ∧ ((withRing boundRing).part 0).packets = [] ∧ 4096 * State.reset.quartersPer ≤ 16384
    ∧ (boundRing.cqTail + 2 ^ 32 - boundRing.cqHead) % 2 ^ 32 < 2 ^ 4 ∧ ¬((16 + 2 ^ 32 - 0) % 2 ^ 32 < 2 ^ 4) := by decide +kernel

theorem witness_StatusHighest : (pkt 0x0201 .finished []).aborted = false := rfl

theorem witness_PacketCompletes :
    let k := { pkt 0x0903 .finished [] with hdr := { hdr 0x0903 with flags := 8, sigCtr := 5, sigInc := 2 } }
    let s := withPart fun pt => { pt with packets := [k], rings := (1, boundRing) :: pt.rings }
    s.packet ref = some k ∧ s.fatal = false ∧ s.faults = [] ∧ s.parts.length = 4 ∧ k.hdr.flag 5 = false ∧ k.hdr.flag 3 = true ∧ (s.part 0).versions = []
      ∧ (s.part 0).bounce = [] ∧ (∀ x ∈ (s.part 0).packets, x.heldOther = false ∧ x.phase ≠ .recordHeld) ∧ ((s.part 0).ring 1).binding.isSome = true
      ∧ k.hdr.opcode ≠ 0x0802 ∧ k.res = Result.empty ∧ k.refs = [] ∧ k.pool = [] ∧ k.aborted = false ∧ s.reachable 0x20000 32 = true := by decide

/-- Two rings whose packets run on array 2. -/
def twoRings (f : Ring → Ring) : State :=
  let k : Packet := { pkt 0x0201 .running [] with snap := some { snapOf [] with leaves := [2] } }
  withPart fun pt => { pt with packets := [k, { k with ring := 3 }], rings := [(1, f boundRing), (3, boundRing)] }

theorem witness_RingServiceGrants :
    ∀ f ∈ [id, fun r : Ring => { r with wait := 64 }],
      let s := twoRings f
      s.isPart 0 = true ∧ s.fatal = false ∧ s.ownsResource 0 (.array 2) = true ∧ s.parts.length = 4
        ∧ (s.part 0).closeWindow.contenders (.array 2) = [1, 3]
        ∧ (∀ i ∈ [1, 3], ((s.part 0).closeWindow.ring i).binding.isSome = true) := by decide

/-- The winner: ring 3 by its number, or ring 1 where its wait counter has reached its limit (R44). -/
theorem test_grant_winner : ∀ x ∈ [(0, 3), (64, 1)],
    ∃ t, exec (.ringServiceGrant 0 (.array 2) 1 false) (twoRings fun r => { r with wait := x.1 }) = .next t
      ∧ (t.part 0).progress = [(.array 2, x.2, 1)] := by
  intro x hx
  fin_cases hx <;> exact ⟨_, rfl, by decide⟩

theorem witness_QuotaWindows :
    let s := twoRings fun r => { r with masked := true }
    let m : State := s.modPart 0 fun pt => { pt with rings := pt.rings.map fun x => (x.1, { x.2 with masked := true }) }
    0 < m.parts.length ∧ m.isPart 0 = true ∧ m.fatal = false ∧ m.ownsResource 0 (.array 2) = true ∧ (m.part 0).window < 256
      ∧ (m.part 0).requesters (.array 2) ≠ [] ∧ (∀ i ∈ (m.part 0).requesters (.array 2), ((m.part 0).ring i).masked = true)
      ∧ 256 ≤ ((withPart fun pt => { pt with window := 256 }).part 0).window := by decide

theorem witness_HoldsEnd :
    ∀ h ∈ [Hold.gangChange, .versionQueue 0, .allgather, .staging, .placement 0, .generation 0, .rebuild],
      let k := pkt 0x0104 (.held h) []
      (holding k).packet ref = some k ∧ (holding k).fatal = false ∧ ∃ row ∈ Claims.holdRows ref, row.2 h = true := by
  intro h hh
  fin_cases hh <;> exact ⟨rfl, rfl, by simp [Claims.holdRows]⟩

/-- MATMUL of one output tile split over two leaves, which needs a combine area. -/
theorem witness_PoolWaitEnds :
    ∀ full ∈ [false, true],
    let d := { oneElement 0x1000 with ext := [64, 1, 1, 1, 1] }
    let ps := padTo 64 (List.replicate 0x30 0 ++ [2])
    let sn := { snapOf ps with descs := [(0, { oneElement 0 with fmt := 1, ext := [16384, 1, 1, 1, 1] }), (1, d), (2, d)], leaves := [0, 1] }
    let k : Packet := { pkt 0x0201 .poolWait ps with snap := some sn }
    let s := withPart fun pt => { pt with packets := [k], hbmPool := if full then 0 else pt.hbmPool, sumpPool := if full then 0 else pt.sumpPool,
                                          sliceReserve := if full then 0 else pt.sliceReserve }
    let op := (opSpec 0x0201).getD specMatmul
    let bufs := (op.buffers ⟨s, 0, k, sn⟩).filter fun b => decide (0 < b.bytes)
    s.isPart 0 = true ∧ s.packet (k.ref 0) = some k ∧ ((s.part 0).packets.filter fun k => k.phase == .poolWait || k.heldOther) = [k]
      ∧ (s.part 0).resizing = false ∧ bufs ≠ [] ∧ (opSpec 0x0201).isSome = true
      ∧ ((s.placesFor 0 k.hdr.opcode bufs).isSome = !full) := by decide +kernel

theorem witness_IdleCycles : State.reset.pending = [] ∧ (State.reset.aonUp && !State.reset.clocksLost.contains 42) = true
    ∧ (State.reset.mclk + 1) % 500 ≠ 0 ∧ (499 + 1) % 500 = 0 := by decide

/-! Registers, the sideband, power and clocks. -/

/-- A window 2 with something in every field that a read clears, and a wide selection waiting. -/
def busyWindow (sel : Word) : State := State.reset.modWindow 2 fun w => { w with summary := 1, dbReject := 2, seqStop := 4, haltStop := 8, wideSel := sel, widePending := true }

theorem witness_RegisterWrites :
    State.reset.reachesWindow (.bar0 0) 3 = true ∧ State.reset.reachesWindow .smbus 4 = true ∧ State.reset.windows.length = 5 ∧ State.reset.quartersPer = 4
      ∧ ({ State.reset with quartersPer := 2 } : State).reachesWindow (.bar0 0) 4 = true
      ∧ (∃ r ∈ Claims.writtenRegs, r.1 = 0x6018 ∧ r.1 % 8 = 0) ∧ ((0x4000 ≤ 0x5FF8 ∧ 0x5FF8 < 0x6000 ∧ 0x5FF8 % 8 = 0) ∧ 0x18 < 0x20) := by
  refine ⟨by decide, by decide, by decide, by decide, by decide, ?_, by decide⟩
  simp [Claims.writtenRegs]

theorem witness_RegisterReads :
    (busyWindow 0).reachesWindow (.bar0 0) 2 = true ∧ (busyWindow 0).windows.length = 5 ∧ ((busyWindow 0).window 2).summary = 1 := by decide

theorem witness_WideValues :
    (∀ v : Word, (busyWindow v).windows.length = 5 ∧ (busyWindow v).parts.length = 4 ∧ ((busyWindow v).window 2).widePending = true
      ∧ ((busyWindow v).window 2).wideSel = v)
    ∧ (State.reset.window 2).widePending = false ∧ 0x01FF0010 / 2 ^ 16 % 2 ^ 16 = 0x1FF ∧ 0x00FF0010 / 2 ^ 16 % 2 ^ 16 = 0xFF :=
  ⟨fun _ => ⟨rfl, rfl, rfl, rfl⟩, rfl, by decide, by decide⟩

theorem witness_ResetRequests :
    Safety.Inv (busyWindow 0) ∧ (busyWindow 0).pathReaches (.bar0 0) 3 = true ∧ (busyWindow 0).fatal = false ∧ (busyWindow 0).resetDiscarded 0 = false
      ∧ ({ busyWindow 0 with ready := false, boot := none, bootModule := some [] } : State).resetDiscarded 0 = true ∧ (busyWindow 0).coldBooting = false :=
  ⟨⟨by decide, by decide, by decide, by decide, by decide, by decide⟩, by decide, by decide, by decide, by decide, by decide⟩

/-- A MODULE reset by the sideband, and one discarded in a COLD boot; a ring of class F that a STREAM reset empties. -/
theorem witness_ResetRequests_module :
    let b : Binding := boundRing.binding.getD ⟨.F, 0, 0, false, false, 0, 0, 0, 0⟩
    let cold : State := { State.reset with ready := false, bootModule := none }
    State.reset.reachesWindow .smbus 4 = true ∧ State.reset.coldBooting = false ∧ State.reset.mainUp = true ∧ State.reset.tripped = false
      ∧ cold.reachesWindow .smbus 4 = true ∧ cold.coldBooting = true ∧ Safety.Inv cold
      ∧ ((withRing boundRing).part 0).ring 1 = boundRing ∧ boundRing.binding = some b ∧ (withRing boundRing).resetDiscarded 0 = false
      ∧ Safety.Inv (withRing boundRing) :=
  ⟨by decide, by decide, by decide, by decide, by decide, by decide, ⟨by decide, by decide, by decide, by decide, by decide, by decide⟩, by decide, by decide,
    by decide, ⟨by decide, by decide, by decide, by decide, by decide, by decide⟩⟩

theorem witness_SidebandAccess :
    State.reset.vin = true ∧ State.reset.aonUp = true ∧ State.reset.smbusTarget = none
      ∧ (∃ w ∈ (State.reset.modWindow 1 fun w => { w with summary := 8, alertEn := 8 }).windows, w.summary &&& w.alertEn ≠ 0)
      ∧ ({ State.reset with smbusTarget := some (5, 0), aonUp := false } : State).vin = true ∧ 0x3000 / 4096 % 8 = 3 := by
  refine ⟨by decide, by decide, by decide, ⟨_, List.Mem.tail _ (List.Mem.head _), by decide⟩, by decide, by decide⟩

theorem witness_ConfigurationWrites :
    State.reset.vin = true ∧ State.reset.aonUp = true ∧ State.reset.cfg.state ≠ 1 ∧ (List.replicate 32 (7 : Byte)).length = 32
      ∧ ({ State.reset with cfg := ⟨[], 1⟩ } : State).imageValid [] = false ∧ 8160 % 32 = 0 ∧ ¬(8192 < 8192) := by decide +kernel

/-- An unlock answer's signature is what an opaque check makes of it: one of the two clauses applies. -/
theorem witness_UnlockDialogue :
    let s : State := { State.reset with challenge := some [1], lastRefused := some 0, mclk := 1000 * msCycles }
    (s.ready = true ∧ s.fatal = false ∧ s.tripped = false) ∧ 0 + 1000 * msCycles ≤ s.mclk ∧ (List.replicate 2420 (0 : Byte)).length = 2420
      ∧ ¬((State.reset.ready = true ∧ State.reset.fatal = false ∧ ({ State.reset with tripped := true } : State).tripped = false))
      ∧ parseUart [0x7E, 2] = none
      ∧ ∀ sig, Config.digestVerify s.debugKeyDigest [] [1] sig = false ∨ Config.digestVerify s.debugKeyDigest [] [1] sig = true := by
  refine ⟨by decide, by decide, List.length_replicate, by decide, by decide, fun sig => ?_⟩
  cases Config.digestVerify _ _ _ sig <;> simp

theorem witness_PowerRails :
    State.reset.vin = true ∧ State.reset.pwrEn = true ∧ State.reset.mainUp = true ∧ 10 ≤ 10 ∧ ¬(10 < 10) ∧ 100 ≤ 100 ∧ 52000 < 52001 := by decide

/-- A boot environment as found at a COLD reset with nothing wrong. -/
def bootEnv : BootEnv := ⟨List.replicate 8 none, [], [], [], [], true, false, true, true⟩

theorem witness_BootBecomesReady :
    ∀ fuses ∈ [true, false], ∃ s, exec (.coldReset 10 { bootEnv with fusesOk := fuses }) { State.reset with romMeasure := [] , romDigest := [] } = .next s
      ∧ s.boot = some { bootEnv with fusesOk := fuses } ∧ s.mainUp = true ∧ s.fatal = false ∧ s.bootHeld = false ∧ s.ready = false := by
  intro f hf
  fin_cases hf <;> exact ⟨_, rfl, by decide⟩

theorem witness_FatalHalts : State.reset.aonUp = true ∧ State.reset.fatal = false ∧ ({ State.reset with fatal := true } : State).fatal = true := by decide

theorem witness_ClocksAndThrottling :
    State.reset.halves.length = 2 ∧ State.reset.vin = true ∧ State.reset.aonUp = true ∧ State.reset.mainUp = true ∧ State.reset.clocksLost.contains 1 = false
      ∧ State.reset.tripped = false ∧ (1000 ≤ ({ State.reset with overTicks := 1000 } : State).overTicks) ∧ 42 ∉ State.reset.clocksLost
      ∧ 320 ≤ (State.reset.half 0).setPoint - 20 * (State.reset.half 0).steps := by decide

theorem witness_LowPowerStates :
    (∀ x ∈ [PState.entering 2, .entering 3, .waking, .active, .quiesce],
      let s := withPart fun pt => { pt with pstate := x }
      s.isPart 0 = true ∧ s.fatal = false ∧ (s.part 0).packets = [] ∧ (s.part 0).pstate = x ∧ s.mainUp = true)
    ∧ ((holding (pkt 0x0903 .ready [])).part 0).packets ≠ []
    ∧ (∀ x ∈ (State.reset.part (State.reset.lowQ (31 / 8))).progress, ∀ a, x.1 = .array a ∨ x.1 = .vector a → a / 8 ≠ 31)
    ∧ (∃ k ∈ ((twoRings id).part 0).packets, k.phase = .running ∧ ∃ sn, k.snap = some sn ∧ ∃ a ∈ sn.leaves, a / 8 = 0) := by
  refine ⟨by decide, by decide, ?_, ⟨_, List.Mem.head _, rfl, _, rfl, 2, by decide, by decide⟩⟩
  intro x hx; exact absurd hx (List.not_mem_nil)

/-- A partition with a PARTITION_SET pending for a layout of four. -/
def layoutPending : State := withPart fun pt => { pt with pendingLayout := some ⟨255, 0, 0, 2, 0, 0⟩ }

theorem witness_LayoutChanges :
    (∀ ps ∈ [[0], ([2] : List Byte)],
      let k := pkt 0x0B04 .ready ps
      let c := ctxOf k ps
      (holding k).packet ref = some k ∧ (holding k).engineDown k = false ∧ (holding k).pendingLayouts = []
        ∧ ((∃ q ∈ (holding k).quarters 0, q ∈ (holding k).reassigned c.layoutAsk.1 c.layoutAsk.2.1) ↔ ps = [2]))
    ∧ layoutPending.pendingLayouts = [(0, ⟨255, 0, 0, 2, 0, 0⟩)] ∧ layoutPending.change = none ∧ layoutPending.fatal = false
    ∧ (∀ x ∈ layoutPending.concerned ⟨255, 0, 0, 2, 0, 0⟩, (layoutPending.part x).pendingLayout.isSome = true)
    ∧ (let s : State := { layoutPending with quartersPer := 2 }
       ¬∀ x ∈ s.concerned ⟨255, 0, 0, 2, 0, 0⟩, (s.part x).pendingLayout.isSome = true)
    ∧ (∃ l ∈ layoutPending.pendingLayouts.map (·.2), l.layout ≠ 0)
    ∧ (∃ c, ({ State.reset with change := some ⟨2, 0, [0, 1, 2, 3], []⟩ } : State).change = some c ∧ layoutQuarters c.layout ≠ State.reset.quartersPer) :=
  ⟨by decide, by decide, by decide, by decide, by decide, by decide, ⟨_, List.Mem.head _, by decide⟩, ⟨_, rfl, by decide⟩⟩

/-! Links, the fabric, scrubbing and retirement. -/

/-- The module with port 0 changed. -/
def withPort (f : Port → Port) : State := State.reset.modPort 0 f

theorem witness_PortsRetrain :
    (∀ x ∈ [PortState.up, .down, .training, .retraining],
      (withPort fun p => { p with state := x }).runsLanug 0 = true ∧ 0 < (withPort fun p => { p with state := x }).ports.length
        ∧ ((withPort fun p => { p with state := x }).port 0).state = x)
    ∧ State.reset.runsLanug 16 = false ∧ ({ State.reset with board := { State.reset.board with xLanug := true } } : State).runsLanug 19 = true
    ∧ Claims.lanes (fun l => l == 1 || l == 2) = [1] ∧ Claims.lanes (fun l => l != 0) = [2, 3] ∧ Claims.lanes (fun _ => false) = []
    ∧ 20 ∉ State.reset.clocksLost ∧ (State.reset.part (State.reset.lowQ (quarterOfPort 0))).pstate ≠ .standby := by decide

theorem witness_FlitsArrive :
    State.reset.runsLanug 15 = true ∧ 15 < State.reset.ports.length ∧ (State.reset.port 15).state = .up ∧ (State.reset.port 15).keys = none
      ∧ (State.reset.port 15).rxAny = false ∧ (4095 + 1) % 4096 = 0
      ∧ (((State.reset.port 15).acked 4095 false).countReplay 0).failRun ≤ 8
      ∧ 8 < (({ State.reset.port 15 with failRun := 8, failSeq := 0, replay := [(0, ⟨0, [], []⟩, [])] }.acked 0 false).countReplay 0).failRun
      ∧ 256 < (({ State.reset.port 15 with replay := [(0, ⟨0, [], []⟩, [])], replayTimes := List.replicate 256 0 }.acked 0 false).countReplay 0).replayTimes.length := by decide +kernel

/-- A message of the fabric between two haul engines, and one flit of it. -/
def fabMsg (kind : Traffic) : FabricMsg := ⟨7, kind, (FabUnit.haul 0).attach, (FabUnit.haul 63).attach, 2, 0, 64, none⟩
def fabFlit (kind : Traffic) (seq index : Nat) (crcOk : Bool) : FabricFlit := ⟨seq, index, fabMsg kind, false, crcOk, List.replicate 64 0⟩

theorem witness_FabricLinks :
    let s := State.reset
    let l : FabricLink := .crossing 63 true
    let worn : FabLink := { FabLink.start l with inRow := 9 }
    s.linkUp l = true ∧ s.linkUp (.mesh 0 0) = true ∧ (s.link l).failed = false ∧ s.crossingsRetired = [] ∧ (0 : Nat) < 128
      ∧ (s.link l).credit (Traffic.read.vc) = true ∧ (s.link l).next < (s.link l).expect + 32 ∧ (s.link l).expect = 0
      ∧ s.sendClock l ≠ s.recvClock l ∧ s.sendClock (.mesh 4 3) = s.recvClock (.mesh 4 3)
      ∧ s.messageFails (fabMsg .read) = false ∧ ({ s with halvesDown := [1] } : State).messageFails (fabMsg .read) = true
      ∧ (fabFlit .read 0 0 true).seq = (s.link l).expect ∧ (fabFlit .read 0 0 false).crcOk = false ∧ (fabFlit .read 1 0 true).seq ≠ (s.link l).expect
      ∧ (s.link l).inRow ≤ 8 ∧ (s.link l).inWindow ≤ 128 ∧ 9 ≤ (({ s with fabric := [worn] } : State).link l).inRow
      ∧ Traffic.readData.response = true ∧ Traffic.read.response = false ∧ 1 ∉ s.halvesDown ∧ s.mainUp = true
      ∧ (1 ∈ ({ s with halvesDown := [1] } : State).halvesDown ∧ 3 ∉ s.clocksLost)
      ∧ (([2, 3] : List Nat).all fun q => (s.part (s.lowQ q)).pstate == .standby) = false := by decide +kernel

/-- A symbol error at a codeword. -/
def faulty (fs : List SymFault) : State := { State.reset with faults := fs }

theorem witness_ScrubbingAndMerging :
    State.reset.scrubs .scratchpad 255 = true ∧ State.reset.scrubs .hbm 8 = false ∧ (State.reset.scrubber .hbm 0).granule < State.reset.unitGranules .hbm 0
      ∧ State.reset.addrOf .hbm 0 0 = 0 ∧ State.reset.decodeCw 0 = .clean ∧ (faulty [⟨0, 3, 1, false⟩]).decodeCw 0 = .corrected 3 1
      ∧ (faulty [⟨0, 3, 1, false⟩, ⟨0, 4, 1, false⟩]).decodeCw 0 = .uncorrectable ∧ 0 ∈ granuleCodewords 0
      ∧ (∀ cw ∈ granuleCodewords 0, cw ≠ 0 → (faulty [⟨0, 3, 1, false⟩]).decodeCw cw = .clean)
      ∧ State.reset.unitGranules .scratchpad 0 ≤ (({ State.reset with scrubbers := [⟨.scratchpad, 0, 0, 49152⟩] } : State).scrubber .scratchpad 0).granule
      ∧ ({ State.reset with merge := [⟨64, 3, []⟩] } : State).merge.find? (·.granule == 64) = some ⟨64, 3, []⟩
      ∧ (3 : BitVec 64) ≠ BitVec.allOnes 64 := by decide

theorem witness_ArraysRetire :
    let s : State := { State.reset with retiring := [60, 2] }
    s.fatal = false ∧ 60 ∈ s.retiring ∧ 60 ∉ s.retired ∧ (∀ k ∈ (s.part (s.lowQ (60 / 64))).packets, ∀ sn, k.snap = some sn → 60 ∉ sn.leaves)
      ∧ 60 ∈ s.reserve ∧ 2 ∉ s.reserve ∧ (s.reserve.filter fun b => b / 64 == 2 / 64) = [60, 61, 62, 63]
      ∧ (({ s with reserve := [] } : State).reserve.filter fun b => b / 64 == 2 / 64) = [] :=
  ⟨rfl, by decide, by decide, fun k hk => absurd hk List.not_mem_nil, by decide, by decide, by decide, by decide⟩

/-! Messages and peers. -/

/-- A message from endpoint 7 to endpoint 0. -/
def msg (mtype addr : Nat) (data : List Byte) : Msg := ⟨mtype, 0, 0, 7, 0, 5, addr, data.length, 0, data⟩

/-- The module in a group of endpoints 0 and 7. -/
def grouped : State := withPart fun pt => { pt with members := [0, 7] }

theorem arrives (i : Nat) (a : Nat) (d : List Byte) (t : Nat) (s : State) (h : s.runsLanug i = true) (hu : (s.port i).state = .up) (hh : portHalf i ∉ s.halvesDown)
    (he : s.endpoint = 0) (hc : (s.port i).carrying (msg t a d) = none) : Claims.Arrives s i (msg t a d) t :=
  ⟨⟨h, hu, hh⟩, rfl, he.symm, fun v hv => by rw [hc] at hv; cases hv⟩

theorem witness_EpochCheck :
    (∀ x ∈ [M_WRITE, M_READ_REQ, M_ATOMIC], Claims.Arrives grouped 15 (msg x 0 [1]) x)
      ∧ Claims.Listens grouped 15 0 ∧ grouped.ownerOf (0 % 2 ^ 49) = some 0 ∧ (grouped.part 0).members ≠ [] ∧ (State.reset.part 0).members = []
      ∧ (8 ∉ (grouped.part 0).members) ∧ (7 ∈ (grouped.part 0).members) ∧ (grouped.part 0).epoch < 1 ∧ 9 < 10
      ∧ ((withPart fun pt => { pt with confidential := true }).part 0).confidential = true ∧ (State.reset.port 15).keys = none := by
  refine ⟨fun x hx => arrives _ _ _ _ _ (by decide) (by decide) (by decide) (by decide) ?_, ⟨by decide, by decide, by decide, by decide⟩, by decide, by decide, by decide,
    by decide, by decide, by decide, by decide, by decide, by decide⟩
  fin_cases hx <;> decide +kernel

theorem witness_DataMessages :
    (∀ x ∈ [M_WRITE, M_READ_REQ, M_ATOMIC], Claims.Arrives grouped 15 (msg x 0x1000 [1, 2, 3, 4]) x) ∧ Claims.Accepts grouped 15 0 (msg M_WRITE 0x1000 [1, 2, 3, 4])
      ∧ grouped.ownerOf (0x1000 % 2 ^ 49) = some 0 ∧ grouped.mayReach 0 (msg M_WRITE 0x1000 [1, 2, 3, 4]) 0x1000 4 = true ∧ grouped.reachable 0x1000 4 = true
      ∧ (grouped.modPort 15 (·.consume (msg M_WRITE 0x1000 [1, 2, 3, 4]))).keyLanding 15 0 (msg M_WRITE 0x1000 [1, 2, 3, 4]) = none
      ∧ (grouped.modPort 15 (·.consume (msg M_WRITE 0x1000 [1, 2, 3, 4]))).gatherLanding 0 (msg M_WRITE 0x1000 [1, 2, 3, 4]) = none
      ∧ grouped.inLanding 0 (msg M_WRITE 0x1000 [1, 2, 3, 4]) = false ∧ grouped.faults = [] ∧ grouped.poison = []
      ∧ grouped.mayReach 0 (msg M_WRITE 0 []) (4 * hbmQuarter - 4) 4 = false ∧ grouped.ownerOf (4 * hbmQuarter - 4096) = some 0 := by
  refine ⟨fun x hx => arrives _ _ _ _ _ (by decide) (by decide) (by decide) (by decide) ?_, ⟨⟨by decide, by decide, by decide, by decide⟩, by decide, by decide, by decide, by decide⟩,
    by decide, by decide, by decide, by decide +kernel, by decide +kernel, by decide, by decide, by decide, by decide, by decide⟩
  fin_cases hx <;> decide +kernel

theorem witness_ResponsesReturn :
    let q : BridgeReq := ⟨5, 0, 0, 0, false, true, 8, 0⟩
    let s : State := { grouped with bridgeReqs := [q] }
    (∀ x ∈ [M_READ_RESP, M_WRITE_ACK, M_ATOMIC_RESP, M_REG, M_REG_RESP], Claims.Arrives s 15 (msg x 0x0F0000000020 [1, 2, 3, 4]) x)
      ∧ s.bridgeReqs.find? (fun r => r.msgId == 5 && r.aperture && !r.isWrite) = some q ∧ Claims.Accepts s 15 q.fn (msg M_READ_RESP 0 [])
      ∧ State.reset.ackOwner 5 = none ∧ 0x0F0000000020 % 2 ^ 49 = 0x0F0000000000 + 0x10000 * 0 + 0x20 ∧ (0x0F0000050000 ≤ 0x0FFFFFFFFFFF) ∧ s.windows.length = 5 := by
  refine ⟨fun x hx => arrives _ _ _ _ _ (by decide) (by decide) (by decide) (by decide) ?_, by decide, ⟨⟨by decide, by decide, by decide, by decide⟩, by decide, by decide, by decide, by decide⟩,
    by decide, by decide, by decide, by decide⟩
  fin_cases hx <;> decide +kernel

/-- A packet that waits for the acknowledgement of message 5. -/
theorem witness_ResponsesReturn_packet :
    let r : Remote := ⟨[0, 28], 0, 0, 0, 0, [], [], [], [], [], [], [], [], [(1, 5, 0)], 0, [], [], 0, 0, 0⟩
    let k := { pkt 0x0603 .running [] with remote := some r }
    let s := withPart fun pt => { pt with members := [0, 7], packets := [k] }
    s.ackOwner 5 = some ref ∧ s.packet ref = some k ∧ Claims.Accepts s 15 0 (msg M_WRITE_ACK 0 []) :=
  ⟨by decide, by decide, ⟨⟨by decide, by decide, by decide, by decide⟩, by decide, by decide, by decide, by decide⟩⟩

/-- The bytes of a control message of a kind. -/
def control (kind : Nat) : List Byte := toLe 8 kind ++ List.replicate 48 0

theorem witness_ControlMessages :
    ∀ kind ∈ [1, 2, 3, 4, 5, 6, 7],
      Claims.Arrives grouped 15 (msg M_CONTROL 0 (control kind)) M_CONTROL ∧ (Control.parse (control kind)).kind = kind ∧ (Control.parse (control kind)).dstPart = 0
        ∧ Claims.Accepts grouped 15 0 (msg M_CONTROL 0 (control kind)) ∧ grouped.matching 0 (Control.parse (control kind)) = none ∧ (grouped.part 0).early.length < 1024
        ∧ grouped.fatal = false := by
  intro kind hk
  refine ⟨arrives _ _ _ _ _ (by decide) (by decide) (by decide) (by decide) ?_, ?_, ?_, ⟨⟨by decide, by decide, by decide, by decide⟩, by decide, by decide, (by decide : (7 : Nat) ∈ (grouped.part 0).members), rfl⟩, ?_,
    by decide, by decide⟩ <;> (revert hk; revert kind) <;> decide +kernel

theorem witness_PeersWatched :
    let r : Remote := ⟨[0, 28], 0, 0, 0, 0, [], [], [], [], [], [], [], [], [], 0, [], [], 0, 0, 0⟩
    (∀ x ∈ [(0x0501, 200 * 500000), (0x0606, 60000 * 500000)],
      let k := { pkt x.1 .running [] with remote := some r }
      let s : State := { withPart fun pt => { pt with members := [0, 7], packets := [k] } with mclk := x.2 }
      let c : Ctx := ⟨s, 0, k, snapOf []⟩
      s.packet ref = some k ∧ s.isPart 0 = true ∧ s.fatal = false ∧ (s.part 0).members ≠ [] ∧ Tbl.get 0 (s.part 0).heartbeats 7 + (s.part 0).hbTime * 500000 ≤ s.mclk
        ∧ (x.1 = 0x0501 → c.owes r 1 = true ∧ 1 < r.keys.length ∧ c.snap.time + (s.part 0).hbTime * 500000 ≤ s.mclk)
        ∧ (x.1 = 0x0606 → 1 ∈ c.awaits r ∧ (s.part 0).collLimit ≠ 0 ∧ c.snap.time + (s.part 0).collLimit * 500000 ≤ s.mclk))
    ∧ (State.reset.part 0).members = [] := by decide

/-! Collectives, experts, snapshots, keys and the bridge. -/

/-- The part of a packet alone in its group. -/
def alone : Remote := ⟨[0], 0, 0, 0x1000, 0, [], [], [], [], [], [], [], [], [], 0, [], [], 0, 0, 0⟩

/-- A packet with a remote part. -/
def remotePkt (opcode : Nat) (phase : Phase) (params : List Byte) (r : Remote) : Packet := { pkt opcode phase params with remote := some r }

theorem witness_CollectivesStart :
    ∀ row ∈ Claims.collectives ref,
      let k := remotePkt row.code .ready [] alone
      let c := ctxOf k []
      Claims.Ready (holding k) ref row.code k c ∧ k.remote = some alone ∧ Claims.Reached (holding k) k (row.own c alone).1
        ∧ alone.keys.length = 1 ∧ alone.ready = [] ∧ alone.sentTo = [] ∧ alone.round = 0 := by
  intro row hr
  simp only [Claims.collectives, List.mem_cons, List.not_mem_nil, or_false] at hr
  rcases hr with rfl | rfl | rfl | rfl | rfl | rfl <;> exact ⟨⟨rfl, rfl, rfl, rfl, rfl⟩, rfl, ⟨by decide, by decide⟩, rfl, rfl, rfl, rfl⟩

theorem witness_BucketsReduced :
    let ps := padTo 64 (List.replicate 0x28 0 ++ [1])
    let k := remotePkt 0x0602 .running ps alone
    let c := ctxOf k ps
    Claims.Running (holding k) ref 0x0602 k c ∧ 0 < c.buckets ∧ c.buckets ≤ 1 ∧ 0 ∉ alone.finishedUnits ∧ c.allLanded alone = true
      ∧ Claims.Reached (holding k) k (c.bucketReduceWork alone 0).1 :=
  ⟨⟨rfl, rfl, rfl, rfl, rfl⟩, by decide, by decide, by decide, by decide, ⟨by decide, by decide⟩⟩

theorem witness_ExpertsExchange :
    (∀ op ∈ [0x0501, 0x0502, 0x0503, 0x0504],
      let k := remotePkt op .ready [] alone
      Claims.Ready (holding k) ref op k (ctxOf k []) ∧ k.remote = some alone ∧ (holding k).engineDown k = false)
    ∧ (∀ defer ∈ [0, 2],
      let ps := padTo 64 (List.replicate 0x28 0 ++ [defer])
      let k := remotePkt 0x0501 .ready ps alone
      let c := ctxOf k ps
      (c.defer = true ↔ defer = 2) ∧ Claims.Reached (holding k) k (c.routeWork c.gate (c.assigned c.gate) 1))
    ∧ (∀ op ∈ [0x0502, 0x0503, 0x0504], (ctxOf (remotePkt op .ready [] alone) []).wave < (ctxOf (remotePkt op .ready [] alone) []).waveCount)
    ∧ (let ps := padTo 64 (List.replicate 0x2A 0 ++ [1])
       let c := ctxOf (remotePkt 0x0502 .ready ps alone) ps
       c.waveCount ≤ c.wave)
    ∧ (ctxOf (remotePkt 0x0502 .running [] alone) []).dispatchComplete alone [] = true := by
  refine ⟨fun op h => ⟨⟨rfl, rfl, rfl, rfl, rfl⟩, rfl, by fin_cases h <;> decide +kernel⟩, ?_, by decide, by decide, by decide⟩
  intro d hd
  fin_cases hd <;> exact ⟨by decide, ⟨by decide, by decide⟩⟩

/-- A placement object with a revision that is due. -/
def object : PlaceObj := ⟨[0], 0, 1, 1, 1, 1, 0, 0, 0, 0, [[0]], 0, 0, [0]⟩

theorem witness_PlacementChanges :
    ∀ op ∈ [0, 1, 2],
      let k := remotePkt 0x0505 .ready [0, 0, op] alone
      let s := withPart fun pt => { pt with packets := [k], objects := [(0, some object)] }
      let c : Ctx := ⟨s, 0, k, snapOf [0, 0, op]⟩
      s.packet ref = some k ∧ s.ctx 0 k = some c ∧ k.hdr.opcode = 0x0505 ∧ s.fatal = false ∧ s.engineDown k = false ∧ c.placeOp = op.toNat
        ∧ (op = 1 → c.o.due = true ∧ ({ object with pmode := 0 } : PlaceObj).due = false) ∧ (s.part 0).objHeld c.objNo = false := by
  intro op h
  fin_cases h <;> exact ⟨rfl, rfl, rfl, rfl, rfl, by decide, by decide, by decide⟩

/-- A due STEP whose partition has no membership, and one in quarantine. -/
theorem witness_PlacementChanges_alone :
    let k := { remotePkt 0x0505 .ready [0, 0, 1] alone with remote := none }
    let s := withPart fun pt => { pt with packets := [k], objects := [(0, some object)] }
    let c : Ctx := ⟨s, 0, k, snapOf [0, 0, 1]⟩
    s.packet ref = some k ∧ s.ctx 0 k = some c ∧ c.placeOp = 1 ∧ c.o.due = true ∧ (s.part 0).members = []
      ∧ ((s.modPart 0 fun pt => { pt with members := [0], quarantined := true }).part 0).quarantined = true :=
  ⟨rfl, rfl, by decide, by decide, rfl, rfl⟩

theorem witness_PlacementChanges_held :
    let k := pkt 0x0501 .running []
    ((holding k).part 0).objHeld (exchangeObj 0x0501 []) = true := by decide

/-- A catalogue with one open generation 3, and a free entry. -/
def opened : List Generation := [{ Generation.free with state := .opened, gen := 3, noParity := true }, Generation.free]

theorem witness_SnapshotsRun :
    (∀ x ∈ [(0x0801, Phase.ready), (0x0801, .refWait), (0x0802, .ready), (0x0805, .ready), (0x0804, .ready), (0x0803, .ready), (0x0803, .running), (0x0806, .ready),
        (0x0806, .running)],
      let k := remotePkt x.1 x.2 [] alone
      (holding k).packet ref = some k ∧ (holding k).ctx 0 k = some (ctxOf k []) ∧ (holding k).fatal = false ∧ (holding k).engineDown k = false)
    ∧ Part.reset.beginFails 1 = false ∧ ({ Part.reset with catalogue := opened } : Part).beginFails 4 = true ∧ Part.reset.genUsed 3 1 0 = false
    ∧ ((holding { pkt 0x0802 .ready [] with ring := 2 }).part 0).genUsed (snapGen 0x0802 []) 1 0 = true := by
  refine ⟨fun x h => ⟨rfl, rfl, rfl, by fin_cases h <;> decide +kernel⟩, by decide, by decide, by decide, by decide⟩

theorem witness_SnapshotsRun_clauses :
    (∀ sched ∈ [(0 : Byte), 1], let ps := padTo 32 (List.replicate 0x18 0 ++ [sched])
      ((ctxOf (pkt 0x0802 .ready ps) ps).writesSchedule = true ↔ sched = 1))
    ∧ (ctxOf (pkt 0x0805 .ready []) []).restoreWaits = false ∧ (ctxOf (pkt 0x0805 .ready []) []).restorePlans = []
    ∧ (∀ nopar ∈ [true, false], ∃ g, ({ Part.reset with catalogue := [{ Generation.free with state := .opened, noParity := nopar }] } : Part).generation 0 = some g ∧ g.noParity = nopar)
    ∧ State.reset.freeUnits 0 ≠ 0
    ∧ (let r := { alone with vec := [1], rank := 0 }
       let k := remotePkt 0x0803 .running [] r
       0 = r.round ∧ (0 : Int) < r.vec.headD 0 ∧ (∀ t ∈ r.others.map fun x => (x, 0 % 256), t ∈ r.done)
         ∧ Claims.Reached (holding k) k { WorkOut.of k.res with reads := [(r.bufferAt 0 0 0, 0 * unitBytes)] }) := by
  refine ⟨by decide, by decide, by decide, ?_, by decide, by decide, by decide, by decide, by decide, by decide⟩
  intro b hb
  fin_cases hb <;> exact ⟨_, rfl, rfl⟩

/-- A spare that rebuilds a group of one other member. -/
theorem witness_SnapshotsRun_rebuild :
    let ps := padTo 32 (List.replicate 0xC 0 ++ [1] ++ List.replicate 9 0 ++ [1])
    let r : Remote := { alone with keys := [28, 0], rank := 1, vec := [1, 1] }
    let sn := { snapOf ps with items := [(0, toLe 4 (7 * 2 ^ 8)), (7, toLe 4 0)] }
    let k : Packet := { remotePkt 0x0806 .running ps r with snap := some sn }
    let c : Ctx := ⟨holding k, 0, k, sn⟩
    c.ranks = 1 ∧ c.survivors = [] ∧ c.isSpare = true ∧ r.chosen = some r.rank ∧ 0 = r.round ∧ (0 : Int) < r.vec[1]?.getD 0
      ∧ Claims.Reached (holding k) k { WorkOut.of k.res with reads := [(r.bufferAt 0 0 0, 0 * unitBytes)] } :=
  ⟨by decide, by decide, by decide, by decide, by decide, by decide, ⟨by decide, by decide⟩⟩

theorem witness_KeysAndBounce :
    (∀ op ∈ [2, 4], let k := remotePkt 0x0B02 .ready [op, 16] alone
      Claims.Ready (holding k) ref 0x0B02 k (ctxOf k [op, 16]) ∧ (ctxOf k [op, 16]).keyOp = op.toNat ∧ (holding k).engineDown k = false)
    ∧ (State.reset.port 16).state = .down ∧ (State.reset.port 0).state ≠ .down
    ∧ (∀ ph ∈ [Phase.ready, .running], let k := pkt 0x0B03 ph [2, 0]
      (holding k).packet ref = some k ∧ (ctxOf k [2, 0]).bounceOp = 2 ∧ (ctxOf k [2, 0]).sendLen = 64 ∧ (k.work.headD 0).toNat < 64)
    ∧ (let q := (bouncing.part 0).queue 0
       q.room = true ∧ q.waiting = [] ∧ ({ q with outProd := 16 } : BounceQueue).room = false)
    ∧ (let s := bouncing.modQueue 0 0 fun b => { b with inProd := 1 }
       let b := (s.part 0).queue 0
       s.isPart 0 = true ∧ b.bound = true ∧ b.stopped = false ∧ b.inCons ≠ b.inProd ∧ s.fatal = false
         ∧ s.bounceRefusal 0 0 (padTo 4096 (List.replicate 0x10 0 ++ toLe 4 4033)) = 3) := by
  refine ⟨?_, by decide, by decide, by decide, by decide, by decide, by decide, by decide, by decide, by decide, by decide +kernel⟩
  intro op h
  fin_cases h <;> exact ⟨⟨rfl, rfl, rfl, rfl, rfl⟩, by decide, by decide⟩

theorem witness_BridgeAccesses :
    State.reset.pathUp (.bar0 0) = true ∧ State.reset.isPart 0 = true ∧ State.reset.isPart 1 = false ∧ 0x7FFFFF < 0x800000 ∧ State.reset.board.group.length = 1
      ∧ State.reset.lowQ 3 = 0 ∧ State.reset.board.group[0]?.getD 0 = State.reset.endpoint
      ∧ ({ State.reset with board := { State.reset.board with group := [7, 0] } } : State).board.group[0]?.getD 0 ≠ State.reset.endpoint
      ∧ State.reset.configItem 0 0xD0000 % 2 ^ 49 = 0 ∧ 0 ∈ State.reset.board.group ∧ State.reset.ownerOf 0 = some 0
      ∧ State.reset.inMemory 0 0 512 = true ∧ State.reset.hostMayReach 0 0 512 = true ∧ State.reset.reachable 0 512 = true ∧ State.reset.quarterOff 0 = false
      ∧ ({ State.reset with bridgeReqs := [⟨9, 0, 0, 0, false, false, 8, 0⟩] } : State).bridgeReqs.find? (fun r => r.msgId == 9 && !r.aperture && !r.isWrite)
          = some ⟨9, 0, 0, 0, false, false, 8, 0⟩
      ∧ (0, 63) ∉ State.reset.msixPending ∧ State.reset.mainUp = true ∧ State.reset.board.xLanug = false ∧ 40 ∉ State.reset.clocksLost := by decide

theorem witness_AddressesDecode :
    State.reset.quartersPer ∈ [1, 2, 4] ∧ State.reset.isPart 0 = true ∧ ({ State.reset with quartersPer := 2 } : State).isPart 2 = true
      ∧ ({ State.reset with quartersPer := 1 } : State).isPart 3 = true := by decide

/-! Operands out of range (Instr.wf): each check refuses a command that breaks it alone. -/

/-- Commands with one operand out of its range each: packets, paths, rings, resources and partitions. -/
def badPackets : List Instr :=
  [.packetComplete ⟨4, 1, 0⟩, .matmul ⟨0, 256, 0⟩, .configSet ⟨0, 1, 2 ^ 32⟩, .splitKCombine ⟨4, 1, 0⟩ 0, .exchangeTimeout ⟨4, 1, 0⟩ 0,
   .bucketReduce ⟨4, 1, 0⟩ 0, .collTimeout ⟨4, 1, 0⟩ 0, .parityUnitXor ⟨4, 1, 0⟩ 0, .rebuildStripe ⟨4, 1, 0⟩ 0, .reinstate ⟨4, 1, 0⟩ true,
   .slotFetch 4 0, .packetIssue 0 256, .ringServiceGrant 4 (.core 0) 1 true, .ringServiceGrant 0 (.array 256) 1 true,
   .ringServiceGrant 0 (.vector 256) 1 true, .ringServiceGrant 0 (.haul 64) 1 true, .emptyGrant 0 (.dressing 16), .emptyGrant 0 (.core 32),
   .emptyGrant 4 (.core 0), .quotaWindowEnd 4, .heartbeatTimer 4, .peerLost 4 0, .peerLost 0 32768, .arrayAutoRetire 256,
   .bounceRecord 4 0 (List.replicate 4096 0), .bounceRecord 0 16 (List.replicate 4096 0), .bounceRecord 0 0 [], .benchIdleGate 32]

theorem test_wf_packets : badPackets.all (fun i => !i.wf) = true := by decide +kernel

/-- The same for registers, resets, links, memory, messages, the bridge and the sideband. -/
def badAccesses : List Instr :=
  [.doorbellWrite (.bar0 4) 0 0 0, .doorbellWrite .smbus 4 0 0, .bounceDoorbellWrite .smbus 0 64 0, .registerWrite (.reg 4) 0 0 8 0,
   .registerWrite .smbus 8 0 8 0, .registerWrite .smbus 0 65536 8 0, .registerWrite .smbus 0 0 0 0, .rcRegisterRead .smbus 5 0,
   .linkCounterRead .smbus 0 65536, .wideSelWrite .smbus 5 0, .wideCapture 5, .badAccessRead .smbus 8 0 8, .badAccessRead .smbus 0 0 0,
   .streamReset .smbus 4 .F, .partitionReset .smbus 4, .moduleReset (.bar0 4), .aclkStep 2, .thermalTrip (.junction 2), .pllLossOfLock 43, .geoIdSample 32,
   .coldReset 10 { bootEnv with dimms := [] }, .coldReset 10 { bootEnv with badArrays := [256] }, .coldReset 10 { bootEnv with badSlices := [256] },
   .coldReset 10 { bootEnv with badStacks := [8] }, .coldReset 10 { bootEnv with portLanes := [(20, 0)] }, .coldReset 10 { bootEnv with portLanes := [(0, 16)] },
   .scrubRead .scratchpad 256, .scrubPassEnd .hbm 8, .mergeEntryTimeout 63, .fabricFlitReceive (.mesh 128 0) (fabFlit .read 0 0 true),
   .fabricFlitReceive (.mesh 0 0) (fabFlit .read 0 2 true), .fabricFlitReceive (.mesh 0 0) { fabFlit .read 0 0 true with payload := [] },
   .fabricFlitReceive (.crossing 0 true) { fabFlit .read 0 0 true with msg := { fabMsg .read with flits := 65 } }, .meshLinkFailed (.mesh 0 10), .meshLinkFailed (.crossing 64 true),
   .flitReceive 20 true (List.replicate 256 0), .flitReceive 0 true [], .retryReq 20 0 true, .retryReq 0 4096 true, .laneFault 20 0, .laneFault 3 4,
   .retrain 20, .retrainDone 20 [], .retrainDone 0 [4], .writeMsg 20 (msg 1 0 []), .bar2Access 4 0 8 none, .bar2Access 0 0x800000 8 none,
   .bar2Access 0 0 0 none, .apertureAccess 4 0 (.read 1), .apertureAccess 0 (2 ^ 36) (.read 1), .apertureAccess 0 0 (.read 4097),
   .apertureAccess 0 0 (.write (List.replicate 513 0)), .bridgeReadTimeout (2 ^ 33), .msixUnmask 4 0, .msixUnmask 0 64,
   .regWrite true (List.replicate 256 0), .pcieLinkUp 0 1, .pcieLinkUp 7 1, .pcieLinkUp 1 2]

theorem test_wf_accesses : badAccesses.all (fun i => !i.wf) = true := by decide +kernel

/-- Messages with one field out of its width, or with data of another length than LEN. -/
theorem test_wf_messages :
    [{ msg 1 0 [] with mtype := 256 }, { msg 1 0 [] with mflags := 256 }, { msg 1 0 [] with dstEp := 32768 }, { msg 1 0 [] with srcEp := 32768 },
     { msg 1 0 [] with epoch := 2 ^ 32 }, { msg 1 0 [] with msgId := 2 ^ 32 }, { msg 1 0 [] with addr := 2 ^ 64 }, { msg 1 0 [] with len := 4097 },
     { msg 1 0 [] with poisonMap := 2 ^ 64 }, { msg 1 0 [1] with len := 2 }].all (fun m => !m.ok) = true := by decide +kernel

/-- What stands at the edge of its range is well formed. -/
theorem test_wf_edges :
    [Instr.packetComplete ⟨3, 255, 2 ^ 32 - 1⟩, .emptyGrant 3 (.array 255), .registerWrite (.bar0 3) 7 65535 8 0, .retryReq 19 4095 true, .laneFault 19 3,
     .msixUnmask 3 63, .pllLossOfLock 42, .apertureAccess 3 (2 ^ 36 - 1) (.read 4096), .pcieLinkUp 6 16, .coldReset 10 bootEnv].all Instr.wf = true := by decide +kernel

/-! Worked examples of the spec. -/

/-- The example of R248: the address under four partitions and under one. -/
theorem test_decode_example :
    ({ State.reset with quartersPer := 1 } : State).localOf 0x3123456780 = some (.hbm, 4, 0x91A2B * 4096 + 0x780)
      ∧ ({ State.reset with quartersPer := 4 } : State).localOf 0x3123456780 = some (.hbm, 6, 0x62468A * 4096 + 0x780) := by decide

/-- The example of R290: array A010 reads from H6 through pseudo-channel 10, column first, over crossing port 40; the answer goes row first. -/
theorem test_route_example :
    let a := (FabUnit.slice 10).attach
    let h := (FabUnit.hbm 6 10).attach
    a.router = 5 ∧ h = ⟨routerAt 1 10 3, 6⟩
      ∧ ([5, 37, 41, 40, 104, 106, 107] : List Nat).map (State.reset.nextLink 0 a h) =
          [some (.mesh 9 2), some (.mesh 41 2), some (.mesh 40 5), some (.crossing 40 true), some (.mesh 105 4), some (.mesh 107 4), some (.unit 107 6)]
      ∧ ([107, 105, 104, 40, 41, 9, 5] : List Nat).map (State.reset.nextLink 1 h a) =
          [some (.mesh 106 5), some (.mesh 104 5), some (.crossing 40 false), some (.mesh 41 4), some (.mesh 37 3), some (.mesh 5 3), some (.unit 5 0)] := by
  decide +kernel

/-- Table 12.5: a crossing from 1.2 GHz to 600 MHz, with the sender's credits of VC0 and the flits queued after each edge; `true` is a sending edge. -/
theorem test_crossing_table :
    let edge := fun (x : FabLink) (sending : Bool) =>
      if sending then (let y := x.sendEdge; if y.ready 0 then (y.send (fabFlit .read 0 0 true)).take true (fabFlit .read 0 0 true) else y) else x.recvEdge
    let rows := ([true, false, true, true, false, true, true, false, true, true, false, true, true] : List Bool).foldl
      (fun (acc : FabLink × List (Nat × Nat)) e => let y := edge acc.1 e; (y, acc.2 ++ [(6 - y.taken.headD 0, y.queued.length)]))
      (FabLink.start (.crossing 40 true), [])
    rows.2 = [(5, 1), (5, 1), (4, 2), (3, 3), (3, 2), (2, 3), (2, 4), (2, 3), (1, 4), (1, 5), (1, 4), (0, 5), (0, 6)] := by decide +kernel

/-- Table 3.9: the last words of the generator and the bits it puts out. -/
theorem test_generator_vector : gen16 1 3 5 = 0xD581 := by decide +kernel

/-- The FP4 dot product worked at the end of chapter 3: V, the anchor and the loss. -/
theorem test_fp4_dot :
    let v := fun (code : Nat) (e : Int) => (decodeElt 4 code).mul (.fin (pow2 e))
    let sp := windowOf 4 3 [⟨some 2, [(v 3 3, v 6 (-1)), (v 0xD 3, v 1 (-1))]⟩, ⟨some 0, [(v 7 0, v 7 0)]⟩,
      ⟨some (-150), [(v 1 (-70), v 9 (-80))]⟩]
    sp.w.v = 54 * 2 ^ 144 ∧ sp.w.anchor = 17 ∧ sp.w.sticky = true ∧ sp.w.loss = true ∧ sp.losses = 1 := by decide +kernel

/-- The WIDE160 adds of the example of R265 (R73). -/
theorem test_wide_adds :
    let w := fun (n : Int) => ({ W160.zero with v := n * 2 ^ 131, anchor := 30 } : W160)
    ((((w 0).add (w (2 ^ 24))).1.add (w 1)).1.add (w 1)).1.v = (2 ^ 24 + 2) * 2 ^ 131 := by decide +kernel


end Sys2Proof.Tests
end

section
/-! PROOF. The completion record of a packet (R47) and the codes it reports (R48). -/

namespace Sys2Proof.Machine

/-! Fields of bytes laid one after another. -/

theorem fieldAt_toLe (n x : Nat) : fieldAt (toLe n x) 0 n = x % 2 ^ (8 * n) := by
  rw [fieldAt, List.drop_zero, List.take_of_length_le (toLe_length n x).le, leNat_toLe]

theorem fieldAt_toLe_append (n x : Nat) (rest : List Byte) : fieldAt (toLe n x ++ rest) 0 n = x % 2 ^ (8 * n) := by
  rw [fieldAt, List.drop_zero, List.take_left' (toLe_length n x), leNat_toLe]

/-- A field that begins after the first number stands in the rest. -/
theorem fieldAt_toLe_append_of_le {n off : Nat} (h : n ≤ off) (x w : Nat) (rest : List Byte) :
    fieldAt (toLe n x ++ rest) off w = fieldAt rest (off - n) w := by
  rw [fieldAt, List.drop_append, toLe_length, List.drop_of_length_le (by rwa [toLe_length]), List.nil_append, fieldAt]

/-! NOTES as a number of seven bits. -/

theorem ite_eq_mul_toNat (b : Bool) (n : Nat) : (if b = true then n else 0) = n * b.toNat := by cases b <;> simp

theorem notesOf_eq_ofBits (codes : List Nat) : notesOf codes = Nat.ofBits fun i : Fin 7 => decide (i.val ≠ 0) && codes.contains i.val := by
  simp only [notesOf, List.range_succ, List.range_zero, List.nil_append, List.cons_append, List.map_cons, List.map_nil, List.sum_cons, List.sum_nil,
    ite_eq_mul_toNat]
  simp [Nat.ofBits, Fin.foldr_succ, -List.contains_eq_mem]
  omega

theorem notesOf_lt (codes : List Nat) : notesOf codes < 2 ^ 7 := by
  rw [notesOf_eq_ofBits]
  exact Nat.ofBits_lt_two_pow _

theorem testBit_notesOf {n : Nat} (codes : List Nat) (h1 : 1 ≤ n) (h6 : n ≤ 6) : (notesOf codes).testBit n = true ↔ n ∈ codes := by
  rw [notesOf_eq_ofBits, Nat.testBit_ofBits_lt _ n (by omega)]
  simp [Nat.ne_of_gt h1]

/-! STATUS and MORE_ERR over the codes that apply. -/

theorem max?_eq_statusOf {codes : List Nat} (h : codes ≠ []) : codes.max? = some (statusOf codes) := by
  cases codes with
  | nil => contradiction
  | cons c cs => rw [List.max?_cons', statusOf, List.foldl_cons, Nat.zero_max]

theorem statusOf_mem {codes : List Nat} (h : codes ≠ []) : statusOf codes ∈ codes :=
  List.max?_mem (max?_eq_statusOf h)

theorem le_statusOf {codes : List Nat} {c : Nat} (h : c ∈ codes) : c ≤ statusOf codes :=
  (List.max?_eq_some_iff.mp (max?_eq_statusOf (List.ne_nil_of_mem h))).2 c h

theorem dedupNat_eq_dedup (l : List Nat) : dedupNat l = l.dedup := by
  induction l with
  | nil => rfl
  | cons x l ih =>
    by_cases h : x ∈ l
    · rw [dedupNat, if_pos (by simpa using h), ih, List.dedup_cons_of_mem h]
    · rw [dedupNat, if_neg (by simpa using h), ih, List.dedup_cons_of_notMem h]

theorem moreErr_iff (codes : List Nat) :
    moreErr codes = true ↔ ∃ c d, c ∈ codes ∧ d ∈ codes ∧ c ≠ d ∧ 0x10 ≤ c ∧ 0x10 ≤ d := by
  have hnodup : (codes.dedup.filter isError).Nodup := (List.nodup_dedup codes).filter _
  rw [moreErr, dedupNat_eq_dedup, decide_eq_true_iff, ← List.toFinset_card_of_nodup hnodup, Finset.one_lt_card_iff]
  simp only [List.mem_toFinset, List.mem_filter, List.mem_dedup, isError, decide_eq_true_iff]
  constructor
  · rintro ⟨c, d, ⟨hc, hcErr⟩, ⟨hd, hdErr⟩, hne⟩
    exact ⟨c, d, hc, hd, hne, hcErr, hdErr⟩
  · rintro ⟨c, d, hc, hd, hne, hcErr, hdErr⟩
    exact ⟨c, d, ⟨hc, hcErr⟩, ⟨hd, hdErr⟩, hne⟩

/-! The record's fields. -/

theorem Packet.record_length (k : Packet) (i cqLog2 : Nat) : (k.record i cqLog2).length = 32 := by
  simp only [Packet.record, List.length_append, toLe_length]

/-- Each field of Table 2.7 as the value stored in it, cut to the field's width. -/
theorem Packet.record_fields (k : Packet) (i cqLog2 : Nat) :
    let b := k.record i cqLog2
    fieldAt b 0x00 4 = k.hdr.tag % 2 ^ 32 ∧ fieldAt b 0x04 2 = k.status % 2 ^ 16 ∧ fieldAt b 0x06 2 = k.hdr.opcode % 2 ^ 16
      ∧ fieldAt b 0x08 4 = k.hdr.seq % 2 ^ 32 ∧ fieldAt b 0x0C 4 = clampMapOf k.allClamps % 2 ^ 32 ∧ fieldAt b 0x10 4 = k.detail % 2 ^ 32
      ∧ fieldAt b 0x14 4 = min k.res.count0 0xFFFFFFFF % 2 ^ 32 ∧ fieldAt b 0x18 4 = min k.res.count1 0xFFFFFFFF % 2 ^ 32
      ∧ fieldAt b 0x1C 2 = k.ring % 2 ^ 16 ∧ fieldAt b 0x1E 1 = 0 ∧ fieldAt b 0x1F 1 = phaseOf i cqLog2 % 2 ^ 8 := by
  simp (disch := decide) [Packet.record, List.append_assoc, fieldAt_toLe_append_of_le, fieldAt_toLe_append, fieldAt_toLe]

theorem phaseOf_eq_mod (i cqLog2 : Nat) : phaseOf i cqLog2 % 2 ^ 8 = 1 - (i / 2 ^ cqLog2) % 2 :=
  Nat.mod_eq_of_lt (by unfold phaseOf; omega)

/-- The fields of DETAIL do not overlap (Table 2.8a), and DETAIL fits its four bytes. -/
theorem Packet.detail_fields (k : Packet) :
    k.detail < 2 ^ 32 ∧ k.detail / 2 ^ 24 = k.res.opflags % 256 ∧ k.detail / 2 ^ 16 % 2 ^ 8 = k.res.field % 256
      ∧ k.detail / 2 ^ 9 % 2 ^ 7 = 0 ∧ k.detail / 2 ^ 8 % 2 = (if moreErr k.codes then 1 else 0) ∧ k.detail % 2 ^ 8 = notesOf k.codes := by
  have hnotes := notesOf_lt k.codes
  unfold Packet.detail
  split <;> omega

/-- Settles O22: each field is found by passing the numbers stored before it; DETAIL's parts stay below its next field. -/
theorem recordLayout : Obligations.RecordLayout := by
  intro k i cqLog2
  obtain ⟨htag, hstatus, hopcode, hseq, hclamp, hdetail, hcount0, hcount1, hring, hzero, hphase⟩ := k.record_fields i cqLog2
  obtain ⟨hlt, hparts⟩ := k.detail_fields
  rw [Nat.mod_eq_of_lt hlt] at hdetail
  rw [Nat.mod_eq_of_lt (by omega)] at hcount0 hcount1
  rw [phaseOf_eq_mod] at hphase
  simp only [hdetail]
  exact ⟨k.record_length i cqLog2, htag, hstatus, hopcode, hseq, hclamp, hcount0, hcount1, hring, hzero, hphase, hparts⟩

/-- Settles O23: STATUS of a packet that was not aborted is the maximum of its codes; NOTES and MORE_ERR are read from them. -/
theorem statusHighest : Obligations.StatusHighest := by
  intro k hk
  have hstatus : k.status = statusOf k.codes := by simp [Packet.status, hk]
  rw [hstatus]
  refine ⟨fun c => le_statusOf, fun h => ?_, statusOf_mem, fun n => testBit_notesOf k.codes, moreErr_iff k.codes⟩
  rw [h]
  rfl

end Sys2Proof.Machine
end

section
/-! PROOF. The ranges of a partition and the decoding of its addresses (R247 to R250). -/

namespace Sys2Proof.Machine

/-! The map by kind of memory: each kind's window is four quarters of one span (Table 10.1, R247, R250). -/

/-- The base of a kind's window (Table 10.1). -/
def windowBase : MemKind → Nat
  | .hbm => 0 | .sump => sumpBase | .scratchpad => scratchBase

/-- The bytes of one quarter in a kind's window (R247, R250). -/
def quarterSpan : MemKind → Nat
  | .hbm => hbmQuarter | .sump => sumpQuarter | .scratchpad => 64 * sliceBytes

/-- The granules that one stack or channel holds: a quarter has two of them (R248, R249). -/
def granulesPerUnit (k : MemKind) : Nat := quarterSpan k / 8192

/-- Whether an address lies in the range of the `q` quarters from `p` on in a kind's window. -/
def InRange (k : MemKind) (p q a : Nat) : Prop :=
  windowBase k + p * quarterSpan k ≤ a ∧ a < windowBase k + (p + q) * quarterSpan k

theorem quarterSpan_pos (k : MemKind) : 0 < quarterSpan k := by cases k <;> decide

theorem quarterSpan_eq_granules (k : MemKind) : quarterSpan k = granulesPerUnit k * 8192 := by cases k <;> decide

theorem memKindOf_eq_some_iff (a : Nat) (k : MemKind) : memKindOf a = some k ↔ InRange k 0 4 a := by
  have hsize : hbmQuarter = 0x1800000000 ∧ sumpBase = 0x10000000000 ∧ sumpQuarter = 0x8000000000 ∧ scratchBase = 0x80000000000
      ∧ sliceBytes = 0x300000 := by decide
  unfold memKindOf InRange
  cases k <;> simp only [windowBase, quarterSpan, ite_eq_iff, Option.some.injEq, reduceCtorEq, and_true, and_false, or_false, false_or] <;> omega

theorem quarterOfAddr_of_memKindOf {a : Nat} {k : MemKind} (h : memKindOf a = some k) :
    quarterOfAddr a = some ((a - windowBase k) / quarterSpan k) := by
  unfold quarterOfAddr
  rw [h]
  cases k
  case scratchpad => rw [quarterSpan, Nat.mul_comm 64, ← Nat.div_div_eq_div_mul]; rfl
  all_goals rfl

theorem quarterOfAddr_eq_none {a : Nat} (h : memKindOf a = none) : quarterOfAddr a = none := by
  unfold quarterOfAddr
  rw [h]

/-- An address of a window lies in a range exactly when its quarter is one of the range's. -/
theorem inRange_iff_quarter {k : MemKind} {a p q : Nat} (h : windowBase k ≤ a) :
    InRange k p q a ↔ p ≤ (a - windowBase k) / quarterSpan k ∧ (a - windowBase k) / quarterSpan k < p + q := by
  rw [Nat.le_div_iff_mul_le (quarterSpan_pos k), Nat.div_lt_iff_lt_mul (quarterSpan_pos k), InRange]
  omega

/-- A range of some of the four quarters lies in its kind's window. -/
theorem InRange.memKindOf {k : MemKind} {a p q : Nat} (h : InRange k p q a) (hle : p + q ≤ 4) : memKindOf a = some k := by
  obtain ⟨hlo, hhi⟩ := h
  have := Nat.mul_le_mul_right (quarterSpan k) hle
  rw [memKindOf_eq_some_iff, InRange]
  omega

/-! The arithmetic of granules taken in turn from `n` units. -/

theorem place_lt {n w x : Nat} (h : x < n * w * 4096) : x / 4096 / n * 4096 + x % 4096 < w * 4096 := by
  have : x / 4096 / n < w := Nat.div_lt_of_lt_mul (by omega)
  omega

theorem interleave_lt {n w j off : Nat} (hj : j < n) (h : off < w * 4096) :
    (off / 4096 * n + j) * 4096 + off % 4096 < n * w * 4096 := by
  have : off / 4096 * n + j < n * w :=
    calc off / 4096 * n + j < (off / 4096 + 1) * n := by rw [Nat.succ_mul]; omega
      _ ≤ w * n := Nat.mul_le_mul_right n (by omega)
      _ = n * w := Nat.mul_comm w n
  omega

/-- The byte of an offset is found again from its granule's turn and its place in the unit. -/
theorem interleave_place (n x : Nat) :
    ((x / 4096 / n * 4096 + x % 4096) / 4096 * n + x / 4096 % n) * 4096 + (x / 4096 / n * 4096 + x % 4096) % 4096 = x := by
  have hdiv : (x / 4096 / n * 4096 + x % 4096) / 4096 = x / 4096 / n := by omega
  rw [hdiv, Nat.div_add_mod']
  omega

/-- A unit's place comes back from the offset at which its turn puts it. -/
theorem place_interleave {n j : Nat} (hj : j < n) (off : Nat) :
    let x := (off / 4096 * n + j) * 4096 + off % 4096
    x / 4096 % n = j ∧ x / 4096 / n * 4096 + x % 4096 = off := by
  intro x
  have hx : x / 4096 = j + off / 4096 * n := by omega
  have hn : 0 < n := by omega
  rw [hx, Nat.add_mul_mod_self_right, Nat.mod_eq_of_lt hj, Nat.add_mul_div_right _ _ hn, Nat.div_eq_of_lt hj]
  omega

/-! The quarters of a partition. -/

theorem State.lowQ_eq_iff {s : State} {p : Nat} (hq : 0 < s.quartersPer) (hp : s.lowQ p = p) (j : Nat) :
    s.lowQ j = p ↔ p ≤ j ∧ j < p + s.quartersPer := by
  unfold State.lowQ at hp ⊢
  rw [← hp, Nat.mul_left_inj hq.ne', Nat.div_eq_iff hq]
  rw [hp]
  omega

/-- A partition number is the lowest of its quarters, and all of these are among the module's four. -/
theorem State.quarters_of_isPart {s : State} {p : Nat} (hq : s.quartersPer ∈ [1, 2, 4]) (hp : s.isPart p = true) :
    0 < s.quartersPer ∧ s.lowQ p = p ∧ p + s.quartersPer ≤ 4 := by
  simp only [State.isPart, Bool.and_eq_true, decide_eq_true_eq] at hp
  simp only [List.mem_cons, List.not_mem_nil, or_false] at hq
  obtain ⟨hlt, hlow⟩ := hp
  refine ⟨by omega, hlow, ?_⟩
  unfold State.lowQ at hlow
  obtain hq | hq | hq := hq <;> rw [hq] at hlow ⊢ <;> omega

theorem inRange_slice {n i : Nat} (hi : i < sliceBytes) (hn : n < 256) : InRange .scratchpad 0 4 (scratchBase + n * sliceBytes + i) := by
  simp only [InRange, windowBase, quarterSpan, sliceBytes] at hi ⊢
  omega

/-- The scratchpad is not interleaved (R250). -/
theorem State.localOf_of_scratchpad (s : State) {a : Nat} (h : memKindOf a = some .scratchpad) :
    s.localOf a = some (.scratchpad, (a - scratchBase) / sliceBytes, (a - scratchBase) % sliceBytes) := by
  unfold State.localOf
  rw [h]

/-- The bytes of a slice stand one after another, and the slices too (R250). -/
theorem State.localOf_slice (s : State) {n i : Nat} (hn : n < 256) (hi : i < sliceBytes) :
    s.localOf (scratchBase + n * sliceBytes + i) = some (.scratchpad, n, i) := by
  have hslice : (scratchBase + n * sliceBytes + i - scratchBase) / sliceBytes = n := by
    rw [Nat.add_assoc, Nat.add_sub_cancel_left, Nat.add_comm, Nat.add_mul_div_right _ _ (by decide), Nat.div_eq_of_lt hi, Nat.zero_add]
  have hbyte : (scratchBase + n * sliceBytes + i - scratchBase) % sliceBytes = i := by
    rw [Nat.add_assoc, Nat.add_sub_cancel_left, Nat.add_comm, Nat.add_mul_mod_self_right, Nat.mod_eq_of_lt hi]
  rw [State.localOf_of_scratchpad s ((memKindOf_eq_some_iff _ _).mpr (inRange_slice hi hn)), hslice, hbyte]

section
variable {s : State} {p : Nat} (hq : s.quartersPer ∈ [1, 2, 4]) (hp : s.isPart p = true)
include hq hp

/-- A partition owns its range in each kind's window, and nothing else. -/
theorem State.ownerOf_eq_some_iff (a : Nat) : s.ownerOf a = some p ↔ ∃ k, InRange k p s.quartersPer a := by
  obtain ⟨hpos, hlow, hle⟩ := State.quarters_of_isPart hq hp
  unfold State.ownerOf
  cases hk : memKindOf a with
  | none =>
    rw [quarterOfAddr_eq_none hk]
    simp only [Option.map_none, reduceCtorEq, false_iff, not_exists]
    intro k h
    rw [h.memKindOf hle] at hk
    contradiction
  | some k =>
    have hbase : windowBase k ≤ a := (Nat.le_add_right ..).trans ((memKindOf_eq_some_iff a k).mp hk).1
    rw [quarterOfAddr_of_memKindOf hk, Option.map_some, Option.some_inj, State.lowQ_eq_iff hpos hlow, ← inRange_iff_quarter hbase]
    constructor
    · exact fun h => ⟨k, h⟩
    · rintro ⟨k', h⟩
      cases Option.some_inj.mp (hk.symm.trans (h.memKindOf hle))
      exact h

/-- Where an address of an interleaved range lies (R248, R249). -/
theorem State.localOf_of_inRange {k : MemKind} (hk : k ≠ .scratchpad) {a : Nat} (ha : InRange k p s.quartersPer a) :
    let x := a - (windowBase k + p * quarterSpan k)
    s.localOf a = some (k, 2 * p + x / 4096 % (2 * s.quartersPer), x / 4096 / (2 * s.quartersPer) * 4096 + x % 4096) := by
  have hmem := ha.memKindOf (State.quarters_of_isPart hq hp).2.2
  have hown := (State.ownerOf_eq_some_iff hq hp a).mpr ⟨k, ha⟩
  unfold State.localOf
  rw [hmem, hown]
  cases k with
  | scratchpad => contradiction
  | hbm => simp only [windowBase, quarterSpan, Nat.zero_add]
  | sump => simp only [windowBase, quarterSpan, Nat.sub_add_eq]

/-- The address of a place in a unit of an interleaved range. -/
theorem State.addrOf_of_unit {k : MemKind} (hk : k ≠ .scratchpad) {j : Nat} (hj : j < 2 * s.quartersPer) (off : Nat) :
    s.addrOf k (2 * p + j) off
      = windowBase k + p * quarterSpan k + ((off / 4096 * (2 * s.quartersPer) + j) * 4096 + off % 4096) := by
  obtain ⟨hpos, hlow, -⟩ := State.quarters_of_isPart hq hp
  have hunit : s.lowQ ((2 * p + j) / 2) = p := (State.lowQ_eq_iff hpos hlow _).mpr (by omega)
  unfold State.addrOf
  cases k with
  | scratchpad => contradiction
  | hbm => simp only [hunit, windowBase, quarterSpan, if_true, Nat.add_sub_cancel_left, Nat.zero_add, Nat.add_assoc]
  | sump => simp only [hunit, windowBase, quarterSpan, reduceCtorEq, if_false, Nat.add_sub_cancel_left, Nat.add_assoc]

/-- An address of an interleaved range has a place within a unit of the set, and that place has this address. -/
theorem State.exists_place_of_inRange {k : MemKind} (hk : k ≠ .scratchpad) {a : Nat} (ha : InRange k p s.quartersPer a) :
    let u := 2 * p + (a - (windowBase k + p * quarterSpan k)) / 4096 % (2 * s.quartersPer)
    ∃ off, s.localOf a = some (k, u, off) ∧ off < granulesPerUnit k * 4096 ∧ s.addrOf k u off = a := by
  intro u
  have hpos := (State.quarters_of_isPart hq hp).1
  refine ⟨_, State.localOf_of_inRange hq hp hk ha, place_lt ?_, ?_⟩
  · obtain ⟨hlo, hhi⟩ := ha
    have hspan : s.quartersPer * quarterSpan k = 2 * s.quartersPer * granulesPerUnit k * 4096 := by
      rw [quarterSpan_eq_granules]; ring
    rw [Nat.add_mul] at hhi
    omega
  · rw [State.addrOf_of_unit hq hp hk (Nat.mod_lt _ (by omega)), interleave_place]
    exact Nat.add_sub_of_le ha.1

/-- A place in a unit of the set has an address in the range, and that address has this place. -/
theorem State.inRange_addrOf {k : MemKind} (hk : k ≠ .scratchpad) {u off : Nat} (hlo : 2 * p ≤ u) (hhi : u < 2 * p + 2 * s.quartersPer)
    (hoff : off < granulesPerUnit k * 4096) :
    InRange k p s.quartersPer (s.addrOf k u off) ∧ s.localOf (s.addrOf k u off) = some (k, u, off) := by
  obtain ⟨j, rfl⟩ := Nat.exists_eq_add_of_le hlo
  have hj : j < 2 * s.quartersPer := by omega
  have haddr := State.addrOf_of_unit hq hp hk hj off
  have hin : InRange k p s.quartersPer (s.addrOf k (2 * p + j) off) := by
    have hlt := interleave_lt hj hoff
    have hspan : (p + s.quartersPer) * quarterSpan k = p * quarterSpan k + 2 * s.quartersPer * granulesPerUnit k * 4096 := by
      rw [Nat.add_mul, quarterSpan_eq_granules]; ring
    rw [InRange, haddr, hspan]
    omega
  refine ⟨hin, ?_⟩
  obtain ⟨hturn, hplace⟩ := place_interleave hj off
  rw [State.localOf_of_inRange hq hp hk hin, haddr, Nat.add_sub_cancel_left, hturn, hplace]

end

/-! The ranges and a unit's size in the numbers of R247 to R250. -/

theorem inRange_hbm_iff (p q a : Nat) : InRange .hbm p q a ↔ p * 0x1800000000 ≤ a ∧ a < (p + q) * 0x1800000000 := by
  simp only [InRange, windowBase, quarterSpan, hbmQuarter, gib]
  omega

theorem inRange_sump_iff (p q a : Nat) :
    InRange .sump p q a ↔ 0x010000000000 + p * 0x8000000000 ≤ a ∧ a < 0x010000000000 + (p + q) * 0x8000000000 := by
  simp only [InRange, windowBase, quarterSpan, sumpBase, sumpQuarter, gib]
  omega

theorem inRange_scratchpad_iff (p q a : Nat) :
    InRange .scratchpad p q a ↔ 0x080000000000 + 64 * p * 0x300000 ≤ a ∧ a < 0x080000000000 + 64 * (p + q) * 0x300000 := by
  simp only [InRange, windowBase, quarterSpan, scratchBase, sliceBytes]
  omega

theorem exists_inRange_iff (p q a : Nat) : (∃ k, InRange k p q a) ↔ InRange .hbm p q a ∨ InRange .sump p q a ∨ InRange .scratchpad p q a := by
  constructor
  · rintro ⟨k, h⟩
    cases k <;> simp only [h, true_or, or_true]
  · rintro (h | h | h) <;> exact ⟨_, h⟩

/-- Settles O60: an address's quarter names its owner, and taking granules in turn is undone by the place in the unit. -/
theorem addressesDecode : Obligations.AddressesDecode := by
  intro s p hq hp
  have hle := (State.quarters_of_isPart hq hp).2.2
  have hbase : windowBase .hbm + p * quarterSpan .hbm = p * 0x1800000000 := Nat.zero_add _
  simp only [← inRange_hbm_iff, ← inRange_sump_iff, ← inRange_scratchpad_iff, ← exists_inRange_iff, Nat.sub_sub]
  refine ⟨State.ownerOf_eq_some_iff hq hp, fun a ha => ?_, fun a ha => State.exists_place_of_inRange hq hp (by decide) ha,
    fun n hlo hhi i hi => ⟨rfl, State.localOf_slice s (by omega) hi⟩,
    fun u off hlo hhi => ⟨State.inRange_addrOf (k := .hbm) hq hp (by decide) hlo hhi,
      State.inRange_addrOf (k := .sump) hq hp (by decide) hlo hhi⟩⟩
  rw [← hbase]
  exact State.exists_place_of_inRange hq hp (by decide) ha

end Sys2Proof.Machine
end

section
/-! PROOF. Every command answers a next state and keeps the queue, the identity and the invariant. -/

namespace Sys2Proof.Machine

/-! Every command answers a next state. -/

theorem next_ite {c : Prop} [Decidable c] {a b : Host.Outcome State Fault Refusal} (ha : ∃ t, a = .next t) (hb : ∃ t, b = .next t) :
    ∃ t, (if c then a else b) = .next t := by
  split
  · exact ha
  · exact hb

theorem execPacketIssue_next (part ring : Nat) (s : State) : ∃ t, execPacketIssue part ring s = .next t := by
  unfold execPacketIssue
  dsimp only
  repeat' first
    | with_reducible apply next_ite
    | split
  all_goals exact ⟨_, rfl⟩

theorem execRoute_next (p : PacketRef) (s : State) : ∃ t, execRoute p s = .next t := by
  unfold execRoute
  dsimp only
  repeat' first
    | with_reducible apply next_ite
    | split
  all_goals exact ⟨_, rfl⟩

theorem execDispatchRows_next (p : PacketRef) (s : State) : ∃ t, execDispatchRows p s = .next t := by
  unfold execDispatchRows
  dsimp only
  repeat' first
    | with_reducible apply next_ite
    | split
  all_goals exact ⟨_, rfl⟩

theorem execExchangeTimeout_next (p : PacketRef) (member : Nat) (s : State) : ∃ t, execExchangeTimeout p member s = .next t := by
  unfold execExchangeTimeout
  repeat' first
    | with_reducible apply next_ite
    | split
  all_goals exact ⟨_, rfl⟩

theorem execCombineRows_next (p : PacketRef) (s : State) : ∃ t, execCombineRows p s = .next t := by
  unfold execCombineRows
  dsimp only
  repeat' first
    | with_reducible apply next_ite
    | split
  all_goals exact ⟨_, rfl⟩

theorem execCombineBwd_next (p : PacketRef) (s : State) : ∃ t, execCombineBwd p s = .next t := by
  unfold execCombineBwd
  dsimp only
  repeat' first
    | with_reducible apply next_ite
    | split
  all_goals exact ⟨_, rfl⟩

theorem execBucketReduce_next (p : PacketRef) (bucket : Nat) (s : State) : ∃ t, execBucketReduce p bucket s = .next t := by
  unfold execBucketReduce
  dsimp only
  repeat' first
    | with_reducible apply next_ite
    | split
  all_goals exact ⟨_, rfl⟩

theorem exec_next (c : Instr) (s : State) : ∃ t, exec c s = .next t := by
  cases c
  case packetIssue part ring => exact execPacketIssue_next part ring s
  case route p => exact execRoute_next p s
  case dispatchRows p => exact execDispatchRows_next p s
  case exchangeTimeout p member => exact execExchangeTimeout_next p member s
  case combineRows p => exact execCombineRows_next p s
  case combineBwd p => exact execCombineBwd_next p s
  case bucketReduce p bucket => exact execBucketReduce_next p bucket s
  case doorbellWrite | slotFetch | packetComplete | ringServiceGrant | emptyGrant | ringRebindApply | matmul | spsp | updateTurn | dispatchCompact
      | placeExpertsSet | placeExpertsStep | placementRevision | placeExpertsRelease | heartbeatTimer | peerLost | collTimeout | snapBegin |
      snapDiscard | snapWrite | snapParity | parityUnitXor | snapCommit | restoreGen | rebuild | rebuildStripe | retireDrainEnd | arrayAutoRetire
      | keyExchangePort | clearPort | bounceSend | bounceSendRoom | bounceDoorbellWrite | bounceRecord | partitionSet | partitionChange |
      partitionChangeComplete | poolRetry | poolResize | restoreEntryWaitEnd | quiesceReached | standbyReached | standbyWakeDone | benchIdleGate |
      registerWrite | rcRegisterRead | linkCounterRead | wideSelWrite | wideCapture | streamReset | partitionReset | perstNRise | vinPresent |
      coldReset | bootReady | pwrEnFall | powerFault | throttleTick | aclkStep | thermalTrip | watchdogExpiry | sytenFatalError | pllLossOfLock |
      geoIdSample | scrubRead | scrubPassEnd | fabricFlitReceive | meshLinkFailed | seamPeerDown | seamPeerUp | flitReceive | retryReq | laneFault
      | retrain | retrainDone | portRetrainAttempt | bar2Access | apertureAccess | bridgeReadTimeout | msixUnmask | pcieHotReset | regRead |
      cfgWriteDone | cfgStatus | alertResponse | pcieLinkUp | badAccessRead =>
    simp only [exec]
    delta execDoorbellWrite execSlotFetch execPacketComplete execRingServiceGrant execEmptyGrant execRingRebindApply execMatmul execSpsp
      execUpdateTurn execDispatchCompact execPlaceExpertsSet execPlaceExpertsStep execPlacementRevision execPlaceExpertsRelease execHeartbeatTimer
      execPeerLost execCollTimeout execSnapBegin execSnapDiscard execSnapWrite execSnapParity execParityUnitXor execSnapCommit execRestoreGen
      execRebuild execRebuildStripe execRetireDrainEnd execArrayAutoRetire execKeyExchangePort execClearPort execBounceSend execBounceSendRoom
      execBounceDoorbellWrite execBounceRecord execPartitionSet execPartitionChange execPartitionChangeComplete execPoolRetry execPoolResize
      execRestoreEntryWaitEnd execQuiesceReached execStandbyReached execStandbyWakeDone execBenchIdleGate execRegisterWrite execRcRegisterRead
      execLinkCounterRead execWideSelWrite execWideCapture execStreamReset execPartitionReset execPerstNRise execVinPresent execColdReset
      execBootReady execPwrEnFall execPowerFault execThrottleTick execAclkStep execThermalTrip execWatchdogExpiry execSytenFatalError
      execPllLossOfLock execGeoIdSample execScrubRead execScrubPassEnd execFabricFlitReceive execMeshLinkFailed execSeamPeerDown execSeamPeerUp
      execFlitReceive execRetryReq execLaneFault execRetrain execRetrainDone execPortRetrainAttempt execBar2Access execApertureAccess
      execBridgeReadTimeout execMsixUnmask execPcieHotReset execRegRead execCfgWriteDone execCfgStatus execAlertResponse execPcieLinkUp
      execBadAccessRead
    try dsimp only
    repeat' first
      | with_reducible apply next_ite
      | split
    all_goals exact ⟨_, rfl⟩
  all_goals exact ⟨_, rfl⟩

/-! Every command keeps the queue, the identity and the invariant. -/

theorem exec_kept {s t : State} : ∀ c : Instr, exec c s = .next t → Kept s t
  | .doorbellWrite .., e => execDoorbellWrite_kept e
  | .slotFetch .., e => execSlotFetch_kept e
  | .packetIssue .., e => execPacketIssue_kept e
  | .packetComplete .., e => execPacketComplete_kept e
  | .ringServiceGrant .., e => execRingServiceGrant_kept e
  | .emptyGrant .., e => execEmptyGrant_kept e
  | .quotaWindowEnd .., e => execQuotaWindowEnd_kept e
  | .configSet .., e => execConfigSet_kept e
  | .configGet .., e => execConfigGet_kept e
  | .ringBind .., e => execRingBind_kept e
  | .ringUnbind .., e => execRingUnbind_kept e
  | .ringRebindApply .., e => execRingRebindApply_kept e
  | .gangForm .., e => execGangForm_kept e
  | .gangDissolve .., e => execGangDissolve_kept e
  | .gangChangeTurn .., e => execGangChangeTurn_kept e
  | .matmul .., e => execMatmul_kept e
  | .splitKCombine .., e => execSplitKCombine_kept e
  | .spmmCsr .., e => execSpmmCsr_kept e
  | .spmmNm .., e => execSpmmNm_kept e
  | .spsp .., e => execSpsp_kept e
  | .sddmm .., e => execSddmm_kept e
  | .groupedMatmul .., e => execGroupedMatmul_kept e
  | .predictActive .., e => execPredictActive_kept e
  | .compress .., e => execCompress_kept e
  | .maskedit .., e => execMaskedit_kept e
  | .maskeditRefsReleased .., e => execMaskeditRefsReleased_kept e
  | .twinBuild .., e => execTwinBuild_kept e
  | .eltwise .., e => execEltwise_kept e
  | .reduceDim .., e => execReduceDim_kept e
  | .softmaxBwd .., e => execSoftmaxBwd_kept e
  | .normBwd .., e => execNormBwd_kept e
  | .quantize .., e => execQuantize_kept e
  | .updateWeight .., e => execUpdateWeight_kept e
  | .updateOldVersionReleased .., e => execUpdateOldVersionReleased_kept e
  | .updateTurn .., e => execUpdateTurn_kept e
  | .versionQueueRelease .., e => execVersionQueueRelease_kept e
  | .dress .., e => execDress_kept e
  | .copyTensor .., e => execCopyTensor_kept e
  | .windowExpand .., e => execWindowExpand_kept e
  | .route .., e => execRoute_kept e
  | .dispatchRows .., e => execDispatchRows_kept e
  | .dispatchCompact .., e => execDispatchCompact_kept e
  | .exchangeTimeout .., e => execExchangeTimeout_kept e
  | .combineRows .., e => execCombineRows_kept e
  | .combineBwd .., e => execCombineBwd_kept e
  | .placeExpertsSet .., e => execPlaceExpertsSet_kept e
  | .placeExpertsStep .., e => execPlaceExpertsStep_kept e
  | .placementRevision .., e => execPlacementRevision_kept e
  | .placeExpertsRelease .., e => execPlaceExpertsRelease_kept e
  | .scaleAgree .., e => execScaleAgree_kept e
  | .rsInt .., e => execRsInt_kept e
  | .bucketReduce .., e => execBucketReduce_kept e
  | .allgather .., e => execAllgather_kept e
  | .allgatherSlotFree .., e => execAllgatherSlotFree_kept e
  | .alltoall .., e => execAlltoall_kept e
  | .permuteShards .., e => execPermuteShards_kept e
  | .stagingSetFree .., e => execStagingSetFree_kept e
  | .barrier .., e => execBarrier_kept e
  | .epochSetAdvance .., e => execEpochSetAdvance_kept e
  | .epochSetJoin .., e => execEpochSetJoin_kept e
  | .heartbeatTimer .., e => execHeartbeatTimer_kept e
  | .peerLost .., e => execPeerLost_kept e
  | .collTimeout .., e => execCollTimeout_kept e
  | .tsDemux .., e => execTsDemux_kept e
  | .decodeVideo .., e => execDecodeVideo_kept e
  | .patchify .., e => execPatchify_kept e
  | .shufflePlan .., e => execShufflePlan_kept e
  | .snapBegin .., e => execSnapBegin_kept e
  | .snapDiscard .., e => execSnapDiscard_kept e
  | .snapWrite .., e => execSnapWrite_kept e
  | .snapParity .., e => execSnapParity_kept e
  | .snapParityHoldEnd .., e => execSnapParityHoldEnd_kept e
  | .parityUnitXor .., e => execParityUnitXor_kept e
  | .snapCommit .., e => execSnapCommit_kept e
  | .restoreGen .., e => execRestoreGen_kept e
  | .rebuild .., e => execRebuild_kept e
  | .rebuildStripe .., e => execRebuildStripe_kept e
  | .watchRead .., e => execWatchRead_kept e
  | .layerScaleSet .., e => execLayerScaleSet_kept e
  | .layerScaleUnbind .., e => execLayerScaleUnbind_kept e
  | .emulateSet .., e => execEmulateSet_kept e
  | .scrubSet .., e => execScrubSet_kept e
  | .remapAdd .., e => execRemapAdd_kept e
  | .retireUnit .., e => execRetireUnit_kept e
  | .retireDrainEnd .., e => execRetireDrainEnd_kept e
  | .arrayAutoRetire .., e => execArrayAutoRetire_kept e
  | .reinstate .., e => execReinstate_kept e
  | .errlogRead .., e => execErrlogRead_kept e
  | .attest .., e => execAttest_kept e
  | .hostGen .., e => execHostGen_kept e
  | .hostAccept .., e => execHostAccept_kept e
  | .clearHost .., e => execClearHost_kept e
  | .keyExchangePort .., e => execKeyExchangePort_kept e
  | .clearPort .., e => execClearPort_kept e
  | .bounceBind .., e => execBounceBind_kept e
  | .bounceUnbind .., e => execBounceUnbind_kept e
  | .bounceSend .., e => execBounceSend_kept e
  | .bounceSendRoom .., e => execBounceSendRoom_kept e
  | .bounceDoorbellWrite .., e => execBounceDoorbellWrite_kept e
  | .bounceRecord .., e => execBounceRecord_kept e
  | .partitionSet .., e => execPartitionSet_kept e
  | .partitionChange, e => execPartitionChange_kept e
  | .partitionChangeComplete .., e => execPartitionChangeComplete_kept e
  | .poolRetry .., e => execPoolRetry_kept e
  | .poolResize .., e => execPoolResize_kept e
  | .placementHoldRelease .., e => execPlacementHoldRelease_kept e
  | .restoreEntryWaitEnd .., e => execRestoreEntryWaitEnd_kept e
  | .rebuildHoldEnd .., e => execRebuildHoldEnd_kept e
  | .unitReset .., e => execUnitReset_kept e
  | .quiesceRequest .., e => execQuiesceRequest_kept e
  | .standbyRequest .., e => execStandbyRequest_kept e
  | .activeRequest .., e => execActiveRequest_kept e
  | .quiesceReached .., e => execQuiesceReached_kept e
  | .standbyReached .., e => execStandbyReached_kept e
  | .standbyWakeDone .., e => execStandbyWakeDone_kept e
  | .benchIdleGate .., e => execBenchIdleGate_kept e
  | .registerWrite .., e => execRegisterWrite_kept e
  | .rcRegisterRead .., e => execRcRegisterRead_kept e
  | .linkCounterRead .., e => execLinkCounterRead_kept e
  | .wideSelWrite .., e => execWideSelWrite_kept e
  | .wideCapture .., e => execWideCapture_kept e
  | .streamReset .., e => execStreamReset_kept e
  | .partitionReset .., e => execPartitionReset_kept e
  | .moduleReset .., e => execModuleReset_kept e
  | .perstNRise .., e => execPerstNRise_kept e
  | .vinPresent .., e => execVinPresent_kept e
  | .coldReset .., e => execColdReset_kept e
  | .bootReady .., e => execBootReady_kept e
  | .pwrEnFall .., e => execPwrEnFall_kept e
  | .powerFault kind, e => execPowerFault_kept (kind := kind) e
  | .throttleTick .., e => execThrottleTick_kept e
  | .aclkStep .., e => execAclkStep_kept e
  | .thermalTrip .., e => execThermalTrip_kept e
  | .watchdogExpiry, e => execWatchdogExpiry_kept e
  | .sytenFatalError cause, e => execSytenFatalError_kept (cause := cause) e
  | .pllLossOfLock .., e => execPllLossOfLock_kept e
  | .geoIdSample .., e => execGeoIdSample_kept e
  | .scrubRead .., e => execScrubRead_kept e
  | .scrubPassEnd .., e => execScrubPassEnd_kept e
  | .mergeEntryTimeout .., e => execMergeEntryTimeout_kept e
  | .fabricFlitReceive .., e => execFabricFlitReceive_kept e
  | .meshLinkFailed .., e => execMeshLinkFailed_kept e
  | .seamPeerDown .., e => execSeamPeerDown_kept e
  | .seamPeerUp .., e => execSeamPeerUp_kept e
  | .flitReceive .., e => execFlitReceive_kept e
  | .retryReq .., e => execRetryReq_kept e
  | .laneFault .., e => execLaneFault_kept e
  | .retrain .., e => execRetrain_kept e
  | .retrainDone .., e => execRetrainDone_kept e
  | .portRetrainAttempt .., e => execPortRetrainAttempt_kept e
  | .writeMsg .., e => execWriteMsg_kept e
  | .readReqMsg .., e => execReadReqMsg_kept e
  | .readRespMsg .., e => execReadRespMsg_kept e
  | .atomicMsg .., e => execAtomicMsg_kept e
  | .atomicRespMsg .., e => execAtomicRespMsg_kept e
  | .writeAckMsg .., e => execWriteAckMsg_kept e
  | .regMsg .., e => execRegMsg_kept e
  | .regRespMsg .., e => execRegRespMsg_kept e
  | .readyMsg .., e => execReadyMsg_kept e
  | .doneMsg .., e => execDoneMsg_kept e
  | .arriveMsg .., e => execArriveMsg_kept e
  | .heartbeatMsg .., e => execHeartbeatMsg_kept e
  | .staleMsg .., e => execStaleMsg_kept e
  | .lostMsg .., e => execLostMsg_kept e
  | .notifyMsg .., e => execNotifyMsg_kept e
  | .bar2Access .., e => execBar2Access_kept e
  | .apertureAccess .., e => execApertureAccess_kept e
  | .bridgeReadTimeout .., e => execBridgeReadTimeout_kept e
  | .msixUnmask .., e => execMsixUnmask_kept e
  | .pcieHotReset, e => execPcieHotReset_kept e
  | .regWrite .., e => execRegWrite_kept e
  | .regAddr .., e => execRegAddr_kept e
  | .regRead .., e => execRegRead_kept e
  | .cfgOpen .., e => execCfgOpen_kept e
  | .cfgData .., e => execCfgData_kept e
  | .cfgClose .., e => execCfgClose_kept e
  | .cfgWriteDone .., e => execCfgWriteDone_kept e
  | .cfgStatus .., e => execCfgStatus_kept e
  | .alertResponse, e => execAlertResponse_kept e
  | .unlockReq .., e => execUnlockReq_kept e
  | .answer .., e => execAnswer_kept e
  | .pcieLinkUp .., e => execPcieLinkUp_kept e
  | .badAccessRead .., e => execBadAccessRead_kept e

theorem step_of_cons {s : State} {c : Instr} {rest : List Instr} (h : s.pending = c :: rest) : step s = exec c { s with pending := rest } := by
  rw [step, h]

theorem step_of_nil {s : State} (h : s.pending = []) : step s = .next (idle s) := by
  rw [step, h]

/-- The invariant says nothing of the queue. -/
theorem inv_pending {s : State} (h : Safety.Inv s) (rest : List Instr) : Safety.Inv { s with pending := rest } := ⟨h.1, h.2, h.3, h.4, h.5, h.6⟩

/-- Settles O1: a step is defined by its queue's front. -/
theorem stepRunsFront : Obligations.StepRunsFront :=
  ⟨fun _ _ _ => step_of_cons, fun _ => step_of_nil⟩

/-- Settles O2: each command's meaning ends in a next state, and keeps the queue. -/
theorem queueUntouched : Obligations.QueueUntouched := by
  intro c s
  obtain ⟨t, e⟩ := exec_next c s
  exact ⟨t, e, (exec_kept c e).queue⟩

/-- Settles O3, field by field. -/
theorem resetHasInvariant : Obligations.ResetHasInvariant where
  memory := by decide
  layout := by decide
  parts := by decide
  windows := by decide
  ports := by decide
  halves := by decide

/-- Settles O4: a step is an idle cycle or a command on the queue's rest, and both keep the invariant. -/
theorem stepKeepsInvariant : Obligations.StepKeepsInvariant := by
  intro s t hs e
  cases hq : s.pending with
  | nil =>
    rw [step_of_nil hq, Host.Outcome.next.injEq] at e
    exact e ▸ (idle_kept s (Kept.refl s)).inv hs
  | cons c rest =>
    rw [step_of_cons hq] at e
    exact (exec_kept c e).inv (inv_pending hs rest)

/-- Settles O5: each command keeps the identity. -/
theorem identityKept : Obligations.IdentityKept :=
  fun c _ _ e => (exec_kept c e).identity

end Sys2Proof.Machine
end

section
/-! PROOF. The work of a packet: what a command that runs it makes of the module (R36, R40, R41). -/

namespace Sys2Proof.Machine

open Safety (OnlyData OnlyWork written)

/-! A packet that is ready, and the state that its work leaves. -/

section
variable {s : State} {p : PacketRef} {k : Packet} {c : Ctx} {code : Nat}

/-- A ready packet's opcode runs the work of the variant that its context takes. -/
theorem runOpcode_ready {variant : Ctx → Bool} {work : Ctx → WorkOut} (h : Claims.Ready s p code k c) (hv : variant c = true) :
    runOpcode code variant work p s = s.finish p.part k (work c) := by
  simp only [runOpcode, h.found, h.opcode, h.phase, h.alive, h.ctx, hv, and_self, if_true]

theorem runThen_ready {variant : Ctx → Bool} {work : Ctx → WorkOut} {eff : Ctx → State → State} (h : Claims.Ready s p code k c)
    (hv : variant c = true) (hw : (s.workCodes k (work c).reads (work c).writes).contains ERR_PEER_UNREACHABLE = false) :
    runThen code variant work eff p s = eff c (s.finish p.part k (work c)) := by
  simp only [runThen, h.found, h.opcode, h.phase, h.alive, h.ctx, hv, hw, and_self, if_true, Bool.false_eq_true, if_false]

theorem reached_workCodes {w : WorkOut} (h : Claims.Reached s k w) :
    s.workCodes k w.reads w.writes = s.accessCodes k.carriers w.reads w.writes := by
  rw [State.workCodes, h.1, if_neg Bool.false_ne_true]

theorem reached_workCodes_contains {w : WorkOut} (h : Claims.Reached s k w) :
    (s.workCodes k w.reads w.writes).contains ERR_PEER_UNREACHABLE = false :=
  reached_workCodes h ▸ h.2

/-- The code of a residue mismatch is not that of an unreachable granule. -/
theorem append_datapath_contains (codes : List Nat) (b : Bool) :
    (codes ++ if b then [] else [ERR_DATAPATH]).contains ERR_PEER_UNREACHABLE = codes.contains ERR_PEER_UNREACHABLE := by
  cases b <;> simp

/-- The packet of work that reached its memory. -/
theorem State.finished_of_reached {w : WorkOut} (h : Claims.Reached s k w) :
    s.finished k w = { k with phase := .finished, res := Claims.result s k w } := by
  simp only [State.finished, h.1, Bool.false_eq_true, if_false, reached_workCodes h, append_datapath_contains, h.2, Bool.not_false, if_true,
    Claims.result]

/-- Work that reached its memory leaves what Claims.Works says. -/
theorem State.finish_works (hk : s.packet p = some k) {w : WorkOut} (h : Claims.Reached s k w) :
    Claims.Works s (s.finish p.part k w) p w { k with phase := .finished, res := Claims.result s k w } := by
  obtain ⟨hp, ho, hf, hm⟩ := State.finish_spec hk w
  refine ⟨State.finished_of_reached h ▸ hp, ho, hf, fun hs => (hm hs).2.trans ?_⟩
  rw [h.1, if_neg Bool.false_ne_true, reached_workCodes_contains h, if_neg Bool.false_ne_true]

/-- Where the packet's engine has stopped or a granule cannot be reached, its codes say so. -/
theorem workCodes_unreachable {w : WorkOut} (h : s.engineDown k = true
      ∨ (s.engineDown k = false ∧ (s.accessCodes k.carriers w.reads w.writes).contains ERR_PEER_UNREACHABLE = true)) :
    (s.workCodes k (if s.engineDown k then [] else w.reads) w.writes).contains ERR_PEER_UNREACHABLE = true := by
  obtain h | ⟨h, hu⟩ := h
  · simp only [State.workCodes, h, if_true, List.contains_cons, BEq.rfl, Bool.true_or]
  · simpa only [State.workCodes, h, Bool.false_eq_true, if_false] using hu

/-- Work that cannot reach its memory leaves its packet finished with the codes it met, and nothing of itself in memory. -/
theorem State.finish_unreachable (hk : s.packet p = some k) {w : WorkOut}
    (h : (s.workCodes k (if s.engineDown k then [] else w.reads) w.writes).contains ERR_PEER_UNREACHABLE = true) :
    ∃ k', (s.finish p.part k w).packet p = some k' ∧ k'.phase = .finished ∧ k'.hdr = k.hdr ∧ k'.res.codes.contains ERR_PEER_UNREACHABLE = true
      ∧ (∀ r, r ≠ p → (s.finish p.part k w).packet r = s.packet r) ∧ OnlyWork p.part s (s.finish p.part k w)
      ∧ (s.faults = [] → (s.finish p.part k w).mem = s.mem) := by
  obtain ⟨hp, ho, hf, hm⟩ := State.finish_spec hk w
  refine ⟨s.finished k w, hp, rfl, rfl, ?_, ho, hf, fun hs => (hm hs).2.trans (if_pos h)⟩
  cases he : s.engineDown k with
  | true =>
    simp only [State.finished, he, if_true, State.workCodes, append_datapath_contains, List.contains_cons, BEq.rfl, Bool.true_or, Bool.not_true,
      Bool.false_eq_true, if_false]
  | false =>
    rw [he, if_neg Bool.false_ne_true] at h
    simp only [State.finished, he, Bool.false_eq_true, if_false, append_datapath_contains, h, Bool.not_true]

end

/-! The opcodes that do all their work when they run. -/

/-- A row's command does the row's work on a ready packet. -/
def RunsRow (p : PacketRef) (row : Claims.OpcodeRow) : Prop :=
  ∀ (s : State) (k : Packet) (c : Ctx), Claims.Ready s p row.code k c → row.variant c = true →
    exec row.cmd s = .next (s.finish p.part k (row.work c))

theorem runsRow_of_runOpcode {p : PacketRef} {row : Claims.OpcodeRow}
    (h : ∀ s, exec row.cmd s = .next (runOpcode row.code row.variant row.work p s)) : RunsRow p row := by
  intro s k c hr hv
  rw [h, runOpcode_ready hr hv]

theorem opcodeRows_run (p : PacketRef) : ∀ row ∈ Claims.opcodeRows p, RunsRow p row := by
  unfold Claims.opcodeRows
  simp only [List.forall_mem_cons, List.not_mem_nil, false_imp_iff, implies_true, and_true]
  refine ⟨?configGet, ?gangForm, ?gangDissolve, ?matmul, ?spsp, ?predictActive, ?compress, ?maskedit, ?twinBuild, ?eltwise, ?reduceDim,
    ?softmaxBwd, ?normBwd, ?quantize, ?updateWeight, ?dress, ?windowExpand, ?copyTensor, ?epochSetAdvance, ?epochSetJoin, ?decodeVideo, ?patchify,
    ?shufflePlan, ?layerScaleSet, ?layerScaleUnbind, ?emulateSet, ?retireUnit, ?reinstatePassed, ?reinstateFailed⟩
  case matmul =>
    intro s k c h hv
    have hsnap : (k.snap.map (·.c3) == some true) = true := by
      obtain ⟨sn, hsn, rfl⟩ := Option.map_eq_some_iff.mp h.ctx
      simpa [hsn] using hv
    simp only [exec, execMatmul, h.found, hsnap, if_true]
    rw [runOpcode_ready h rfl]
  case spsp =>
    intro s k c h hv
    have hcsr : (c.desc 2).kind = 1 ∧ c.spspJob.split = 1 := by simpa using hv
    simp only [exec, execSpsp, h.found, h.ctx, hcsr, and_self, if_true]
    rw [runOpcode_ready h rfl]
  case reinstatePassed =>
    intro s k c h _
    rw [exec, execReinstate, runOpcode_ready h rfl]
    by_cases hu : c.u 0 1 = 1 <;> simp only [hu, Bool.not_true, Bool.and_false, Bool.false_eq_true, if_true, if_false, Claims.effects]
  case reinstateFailed =>
    intro s k c h _
    rw [exec, execReinstate, runOpcode_ready h rfl]
    simp only [Bool.not_false, Bool.and_true, Claims.effects]
  all_goals exact runsRow_of_runOpcode fun _ => rfl

/-- Settles O6: each command runs its row's work, and State.finish leaves what Claims.Works says. -/
theorem opcodeRuns : Obligations.OpcodeRuns :=
  fun _ _ hrow _ _ _ h hv hw => ⟨_, opcodeRows_run _ _ hrow _ _ _ h hv, State.finish_works h.found hw⟩

/-- Settles O7: each command runs its row's work, and State.finish writes nothing of work that cannot reach its memory. -/
theorem unreachableWritesNothing : Obligations.UnreachableWritesNothing := by
  intro p row hrow s k c h hv hw
  obtain ⟨k', hk'⟩ := State.finish_unreachable h.found (workCodes_unreachable hw)
  exact ⟨_, k', opcodeRows_run p row hrow s k c h hv, hk'⟩

end Sys2Proof.Machine
end

section
/-! PROOF. Products and the areas of their split tiles, settings, keys, turns, waits and bindings: commands that finish a packet's work with
a further change (R29, R41, R115, R206, R429). -/

namespace Sys2Proof.Machine

open Safety (OnlyData OnlyWork written)

section
variable {s : State} {p : PacketRef} {k k' : Packet} {c : Ctx} {code : Nat}

/-! Work without an access. -/

theorem accessCodes_nil (s : State) (v : Carriers) : s.accessCodes v [] [] = [] := rfl

theorem reached_of_no_access (h : s.engineDown k = false) (r : Result) : Claims.Reached s k (WorkOut.of r) :=
  ⟨h, rfl⟩

/-- Work that reads and writes nothing changes its packet alone. -/
theorem State.finish_of_no_access (h : s.engineDown k = false) (r : Result) (part : Nat) :
    s.finish part k (WorkOut.of r) = s.setPacket part { k with phase := .finished, res := Claims.result s k (WorkOut.of r) } := by
  have hfin := State.finished_of_reached (reached_of_no_access h r)
  rw [← hfin]
  unfold State.finish State.finished
  simp only [h, Bool.false_eq_true, if_false]
  cases hb : !(s.workCodes k (WorkOut.of r).reads (WorkOut.of r).writes ++ if (WorkOut.of r).mismatched.isEmpty then [] else [ERR_DATAPATH]).contains
    ERR_PEER_UNREACHABLE <;> rfl

/-! A packet replaced after an access to memory. -/

/-- What an access to memory and a packet's replacement leave. -/
theorem works_of_onlyData {u : State} {w : WorkOut} (hk : s.packet p = some k) (hr : k'.ring = p.ring) (hi : k'.idx = p.idx) (hd : OnlyData s u)
    (hm : s.faults = [] → u.mem = written s.mem w.writes) : Claims.Works s (u.setPacket p.part k') p w k' where
  packet := State.packet_setPacket (((OnlyData.parts hd).packet p).trans hk) hr hi
  others r hne := (State.packet_setPacket_ne (by rwa [hr, hi])).trans ((OnlyData.parts hd).packet r)
  frame := OnlyWork.trans (OnlyData.work _ hd) (State.setPacket_work _ _ _)
  memory := hm

/-- The packet of some work replaced again. -/
theorem works_setPacket {t : State} {w : WorkOut} (h : Claims.Works s t p w k) (hr : k'.ring = p.ring) (hi : k'.idx = p.idx) :
    Claims.Works s (t.setPacket p.part k') p w k' where
  packet := State.packet_setPacket h.packet hr hi
  others r hne := (State.packet_setPacket_ne (by rwa [hr, hi])).trans (h.others r hne)
  frame := OnlyWork.trans h.frame (State.setPacket_work _ _ _)
  memory := h.memory

/-! Products (R104, R115). -/

/-- A ready product's work is applied, and with split tiles its packet runs on. -/
theorem runProduct_ready {job : Ctx → Job} {w : WorkOut} {areas : List CombineArea} (h : Claims.Ready s p code k c)
    (hj : c.jobWork (job c) = (w, areas)) (hw : Claims.Reached s k w) :
    runProduct code job p s = if areas = [] then s.finish p.part k w
      else (s.finish p.part k w).setPacket p.part { k with phase := .running, res := Claims.result s k w, combine := areas } := by
  have hp := (State.finish_works h.found hw).packet
  simp only [runProduct, h.found, h.opcode, h.phase, h.alive, h.ctx, hj, and_self, if_true, List.isEmpty_iff, hp, reached_workCodes_contains hw,
    Bool.false_eq_true, if_false]

theorem runProduct_works {job : Ctx → Job} {w : WorkOut} {areas : List CombineArea} (h : Claims.Ready s p code k c)
    (hj : c.jobWork (job c) = (w, areas)) (hw : Claims.Reached s k w) :
    Claims.Works s (runProduct code job p s) p w
      (if areas = [] then { k with phase := .finished, res := Claims.result s k w }
       else { k with phase := .running, res := Claims.result s k w, combine := areas }) := by
  obtain ⟨hr, hi⟩ := State.packet_keys h.found
  rw [runProduct_ready h hj hw]
  split
  · exact State.finish_works h.found hw
  · exact works_setPacket (State.finish_works h.found hw) hr hi

end

/-- A row's command runs the row's product on a ready packet. -/
def RunsProduct (p : PacketRef) (row : Instr × Nat × (Ctx → Bool) × (Ctx → Job)) : Prop :=
  ∀ (s : State) (k : Packet) (c : Ctx), Claims.Ready s p row.2.1 k c → row.2.2.1 c = true →
    exec row.1 s = .next (runProduct row.2.1 row.2.2.2 p s)

theorem productRows_run (p : PacketRef) : ∀ row ∈ Claims.productRows p, RunsProduct p row := by
  unfold Claims.productRows
  simp only [List.forall_mem_cons, List.not_mem_nil, false_imp_iff, implies_true, and_true]
  refine ⟨?matmul, fun _ _ _ _ _ => rfl, fun _ _ _ _ _ => rfl, ?spsp, fun _ _ _ _ _ => rfl, fun _ _ _ _ _ => rfl⟩
  case matmul =>
    intro s k c h hv
    have hsnap : (k.snap.map (·.c3) == some true) = false := by
      obtain ⟨sn, hsn, rfl⟩ := Option.map_eq_some_iff.mp h.ctx
      simpa [hsn] using hv
    simp only [exec, execMatmul, h.found, hsnap, Bool.false_eq_true, if_false]
  case spsp =>
    intro s k c h hv
    have hcsr : ¬((c.desc 2).kind = 1 ∧ c.spspJob.split = 1) := by simpa [-not_and, not_and_or] using hv
    simp only [exec, execSpsp, h.found, h.ctx, hcsr, if_false]

/-- Settles O8: each command runs its row's product, whose work State.finish applies. -/
theorem productRuns : Obligations.ProductRuns := by
  intro p row hrow s k c h hv w areas hj hw
  exact ⟨_, productRows_run p row hrow s k c h hv, runProduct_works h hj hw⟩

/-- Settles O9: the writes are an access to memory, and the packet is replaced. -/
theorem splitTileCombines : Obligations.SplitTileCombines := by
  intro p tile s k c w areas h hc hw
  obtain ⟨hr, hi⟩ := State.packet_keys h.found
  refine ⟨_, rfl, ?_⟩
  simp only [combineStep, h.found, h.phase, h.alive, h.ctx, hc, hw, and_self, if_true, Bool.not_false]
  exact works_of_onlyData h.found hr hi (State.storeAll_only s w.writes rfl) fun hs => (State.storeAll_bytes hs w.writes).1

/-! What a byte reads as after writes (R139). -/

theorem get_putBytes {m : Tbl Byte} (hm : Tbl.ok 0 m = true) (a : Nat) (bs : List Byte) (x : Nat) :
    Tbl.get 0 (putBytes m a bs) x = if a ≤ x ∧ x < a + bs.length then bs[x - a]?.getD 0 else Tbl.get 0 m x := by
  induction bs generalizing m a with
  | nil => simp only [putBytes, List.length_nil, Nat.add_zero, if_neg (show ¬(a ≤ x ∧ x < a) by omega)]
  | cons b bs ih =>
    rw [putBytes, ih (Tbl.ok_set hm), Tbl.get_set hm, List.length_cons]
    by_cases hx : x = a
    · simp [hx]
    · by_cases hin : a + 1 ≤ x ∧ x < a + 1 + bs.length
      · rw [if_pos hin, if_pos (by omega), show x - a = (x - (a + 1)) + 1 by omega, List.getElem?_cons_succ]
      · rw [if_neg hin, if_neg hx, if_neg (by omega)]

theorem written_ok {m : Tbl Byte} (hm : Tbl.ok 0 m = true) (ws : List Write) : Tbl.ok 0 (written m ws) = true := by
  induction ws generalizing m with
  | nil => exact hm
  | cons w ws ih => exact ih (ok_putBytes w.bytes hm)

theorem written_append (m : Tbl Byte) (ws : List Write) (w : Write) : written m (ws ++ [w]) = putBytes (written m ws) w.addr w.bytes := by
  rw [written, List.foldl_append]
  rfl

theorem get_written_of_outside {m : Tbl Byte} (hm : Tbl.ok 0 m = true) (ws : List Write) {x : Nat}
    (h : ∀ v ∈ ws, x < v.addr ∨ v.addr + v.bytes.length ≤ x) : Tbl.get 0 (written m ws) x = Tbl.get 0 m x := by
  induction ws generalizing m with
  | nil => rfl
  | cons w ws ih =>
    obtain ⟨hw, hws⟩ := List.forall_mem_cons.mp h
    have hput := get_putBytes hm w.addr w.bytes x
    rw [if_neg (by omega)] at hput
    exact (ih (ok_putBytes w.bytes hm) hws).trans hput

theorem State.byte_of_no_faults {s : State} (h : s.faults = []) (a : Nat) : s.byte a = Tbl.get 0 s.mem a := by
  rw [State.byte, h, if_pos (by simp)]

/-- Settles O10: the list's last write is put over the memory that the others leave. -/
theorem writtenBytes : Obligations.WrittenBytes := by
  intro s t ws w hm hs ht hmem
  refine ⟨fun a ha => ?_, fun i hi => ?_⟩
  · rw [State.byte_of_no_faults ht, State.byte_of_no_faults hs, hmem, get_written_of_outside hm _ ha]
  · rw [State.byte_of_no_faults ht, hmem, written_append, get_putBytes (written_ok hm ws), if_pos (by omega), Nat.add_sub_cancel_left]

/-! Settings (R41). -/

/-- A row's command makes the row's change after the work of a ready packet. -/
def RunsSetting (p : PacketRef) (row : Claims.SettingRow) : Prop :=
  ∀ s, exec row.cmd s = .next (runThen row.code row.variant row.work row.change p s)

theorem settingRows_run (p : PacketRef) : ∀ row ∈ Claims.settingRows p, RunsSetting p row := by
  unfold Claims.settingRows
  simp only [List.forall_mem_cons, List.not_mem_nil, false_imp_iff, implies_true, and_true]
  refine ⟨?_, ?_, ?_, ?_, ?_, ?_, ?_, ?_, ?_, ?_, ?_, ?_, ?_, ?_⟩ <;> exact fun _ => rfl

/-- Settles O11: each command applies its row's work with State.finish, and then its row's change. -/
theorem settingsRun : Obligations.SettingsRun := by
  intro p row hrow s k c h hv hw
  refine ⟨_, State.finish_works h.found hw, ?_⟩
  rw [settingRows_run p row hrow s, runThen_ready h hv (reached_workCodes_contains hw)]

/-! The keys of a partition (R429). -/

/-- Settles O12: HOST_ACCEPT's work and change, with a pair pending and without one. -/
theorem hostKeysAccepted : Obligations.HostKeysAccepted := by
  intro p s k c h hop
  obtain ⟨hs, hp, -⟩ := State.ctx_state h.ctx
  have hv : (c.keyOp == 1) = true := by rw [hop]; rfl
  constructor
  · intro hacc w hpend hw
    refine ⟨_, State.finish_works h.found hw, ?_⟩
    rw [exec, execHostAccept, runThen_ready h hv]
    · simp only [hs, hp, hacc, hpend, if_true, Bool.not_true, Bool.false_eq_true, if_false, w]
    · simpa only [hacc, if_true] using reached_workCodes_contains hw
  · intro hpend hacc w hw
    refine ⟨_, State.finish_works h.found hw, ?_⟩
    rw [exec, execHostAccept, runThen_ready h hv]
    · simp only [hs, hp, hacc, hpend, Option.isSome_none, if_true, Bool.not_false, Bool.false_eq_true, if_false, w]
    · simpa only [hacc, Bool.false_eq_true, if_false] using reached_workCodes_contains hw

/-! Turns, and waits that end (R206, R212, R404). -/

theorem turnPhase_eq (opcode : Nat) (v : VersionEntry) : Claims.turnPhase opcode v = turnPhase opcode v := by
  unfold Claims.turnPhase turnPhase
  by_cases h : opcode = 0x0306 <;> simp only [h, if_true, if_false]

/-- Settles O14: each command's occasion, and the phase that it leaves. -/
theorem turnsAndWaitsEnd : Obligations.TurnsAndWaitsEnd := by
  intro p s k hk hal
  refine ⟨fun e v he => ⟨fun hph hturn => ?_, fun hph hop hold => ?_, fun hph hop hrefs => ?_⟩, fun c hc hop hph hwait => ?_⟩
  · simp only [exec, execUpdateTurn, hk, he, hph, hturn, hal, and_self, if_true, turnPhase_eq]
    rfl
  · have hready : turnPhase 0x0306 v = .ready := by rw [turnPhase, if_pos rfl, if_pos hold]
    simp only [exec, execUpdateOldVersionReleased, turnReady, hk, he, hop, hph, hready, hal, and_self, if_true]
  · have hready : turnPhase 0x0209 v = .ready := by rw [turnPhase, if_neg (by decide), if_pos hrefs]
    simp only [exec, execMaskeditRefsReleased, turnReady, hk, he, hop, hph, hready, hal, and_self, if_true]
  · simp only [exec, execRestoreEntryWaitEnd, hk, hc, hop, hph, hal, hwait, and_self, if_true]

/-! Packets that waited and run. -/

section
variable {s : State} {p : PacketRef} {k k' : Packet}

/-- What is done after a packet was replaced is done of the state before. -/
theorem works_of_setPacket {t : State} {w : WorkOut} {k2 : Packet} (hk : s.packet p = some k)
    (h : Claims.Works (s.setPacket p.part k') t p w k2) (hr : k'.ring = k.ring) (hi : k'.idx = k.idx) : Claims.Works s t p w k2 where
  packet := h.packet
  others r hne := by
    obtain ⟨hkr, hki⟩ := State.packet_keys hk
    exact (h.others r hne).trans (State.packet_setPacket_ne (by rwa [hr, hi, hkr, hki]))
  frame := OnlyWork.trans (State.setPacket_work _ _ _) h.frame
  memory := h.memory

/-- A packet that waited is ready once its phase says so. -/
theorem ready_of_setPacket {c : Ctx} {code : Nat} (hk : s.packet p = some k) (hal : s.fatal = false) (hop : k.hdr.opcode = code)
    (hc : (s.setPacket p.part { k with phase := .ready }).ctx p.part { k with phase := .ready } = some c) :
    Claims.Ready (s.setPacket p.part { k with phase := .ready }) p code { k with phase := .ready } c where
  found := State.packet_setPacket hk (State.packet_keys hk).1 (State.packet_keys hk).2
  opcode := hop
  phase := rfl
  alive := hal
  ctx := hc

end

/-- Settles O15: the packet is made ready, and its opcode's work runs. -/
theorem waitingPacketsRun : Obligations.WaitingPacketsRun := by
  intro p s k hk hal hph s1 c hc
  constructor
  · intro hop hdrained hw
    have hready := ready_of_setPacket hk hal hop hc
    have hworks := works_of_setPacket hk (State.finish_works hready.found hw) rfl rfl
    refine ⟨_, ?_, hworks⟩
    simp only [exec, execRetireDrainEnd, hk, hop, hph, hal, hdrained, and_self, if_true]
    rw [runOpcode_ready hready rfl]
  · intro hop hkind hreserved hw
    have hready := ready_of_setPacket hk hal hop hc
    have hworks := works_of_setPacket hk (State.finish_works hready.found hw) rfl rfl
    refine ⟨_, hworks, ?_⟩
    simp only [exec, execPoolResize, hk, hop, hph, hreserved, and_self, if_true]
    rw [runThen_ready hready (by rw [hkind]; rfl) (reached_workCodes_contains hw)]

/-! Bindings (R29). -/

theorem modRing_bindTo (s : State) (part r : Nat) (b : Option Binding) :
    s.modRing part r (·.bindTo b) = s.modRing part r fun _ => { Ring.unbound with binding := b, c3 := ((s.part part).ring r).c3 } :=
  State.modPart_congr rfl

theorem State.ring_setPacket (s : State) (part q r : Nat) (k : Packet) : ((s.setPacket part k).part q).ring r = (s.part q).ring r := by
  unfold State.setPacket
  by_cases hq : q = part
  · subst hq
    rcases Nat.lt_or_ge q s.parts.length with h | h
    · rw [State.part_modPart_self _ h]
      rfl
    · rw [State.modPart, List.modify_eq_self h]
  · rw [State.part_modPart_ne _ hq]

/-- Settles O16: a RING_BIND's work reads and writes nothing, so that its packet and the named ring alone change. -/
theorem ringBindApplies : Obligations.RingBindApplies := by
  intro p s k c unbind cmd old fresh done hrun
  have hcmd : exec cmd s = .next (ringBindStep unbind p s) := by cases unbind <;> rfl
  have hfin : ∀ n, (s.finish p.part k (WorkOut.of (Result.of [] n 0 0))).modRing p.part c.bindRing
      (·.bindTo (if c.unbinds then none else some c.binding)) = done n := by
    intro n
    rw [State.finish_of_no_access hrun, modRing_bindTo, State.ring_setPacket]
  refine ⟨fun h hun hold => ?_, fun h hun hold => ?_, fun hk hc hop hph hal hall => ?_⟩
  · rw [hcmd, ← hfin 0]
    simp only [ringBindStep, h.found, h.ctx, h.opcode, h.phase, h.alive, hun, and_self, if_true, hold, old, Option.isNone_none]
    rfl
  · rw [hcmd]
    simp only [ringBindStep, h.found, h.ctx, h.opcode, h.phase, h.alive, hun, and_self, if_true, Option.isNone_eq_false_iff.mpr hold,
      Bool.false_eq_true, if_false, old]
  · have hbusy : ((s.part p.part).packets.any fun x => x.ring == c.bindRing) = false := by
      simpa [List.all_eq_true, List.any_eq_false] using hall
    rw [← hfin]
    simp only [exec, execRingRebindApply, hk, hc, hop, hph, hal, hbusy, and_self, if_true]
    rfl

end Sys2Proof.Machine
end

section
/-! PROOF. A granule's contents as they move into its replacement, and REMAP_ADD (R280, R281). -/

namespace Sys2Proof.Machine

open Safety (OnlyData OnlyWork written)

/-! A state without what its logs and windows tell. -/

/-- The module without its partitions and register windows. -/
def bare (s : State) : State := { s with parts := [], windows := [] }

theorem bare_modPart (s : State) (p : Nat) (f : Part → Part) : bare (s.modPart p f) = bare s := rfl

theorem bare_log (s : State) (p : Nat) (r : LogRecord) : bare (s.log p r) = bare s := by
  obtain ⟨ps, ws, h⟩ := s.log_eq p r
  rw [h]
  rfl

theorem bare_memEvent (s : State) (ev a position status ring : Nat) : bare (s.memEvent ev a position status ring) = bare s := by
  unfold State.memEvent
  split
  · exact bare_log _ _ _
  · rfl

/-- What two states that agree so hold of stored data. -/
theorem stored_of_bare {s t : State} (h : bare s = bare t) :
    s.mem = t.mem ∧ s.poison = t.poison ∧ s.faults = t.faults ∧ s.remaps = t.remaps := by
  have hmem := congrArg State.mem h
  have hpoison := congrArg State.poison h
  have hfaults := congrArg State.faults h
  have hremaps := congrArg State.remaps h
  exact ⟨hmem, hpoison, hfaults, hremaps⟩

theorem bare_moveCw (s : State) (cw : Nat) : bare (s.moveCw cw) = bare ((bare s).moveCw cw) := by
  unfold State.moveCw
  rw [show (bare s).decodeCw cw = s.decodeCw cw from rfl]
  split
  · rw [bare_memEvent, bare_memEvent]
    rfl
  · rfl
  · rfl

theorem bare_moveCws (l : List Nat) {s t : State} (h : bare s = bare t) : bare (l.foldl State.moveCw s) = bare (l.foldl State.moveCw t) := by
  induction l generalizing s t with
  | nil => exact h
  | cons cw l ih =>
    refine ih ?_
    rw [bare_moveCw, bare_moveCw t, h]

/-- The state of a granule's contents once they can move (R280): codewords that read uncorrectable are poisoned. -/
def State.moved (s : State) (g : Nat) : State := if s.faults = [] then s else (granuleCodewords g).foldl State.moveCw s

theorem bare_moved {s t : State} (g : Nat) (h : bare s = bare t) : bare (s.moved g) = bare (t.moved g) := by
  obtain ⟨-, -, hf, -⟩ := stored_of_bare h
  unfold State.moved
  rw [hf]
  split
  · exact h
  · exact bare_moveCws _ h

/-- What moves in a granule is its bytes and its poison; records tell of it. -/
theorem State.moveCw_eq (s : State) (cw : Nat) :
    ∃ m po ps ws, s.moveCw cw = { s with mem := m, poison := po, parts := ps, windows := ws } := by
  unfold State.moveCw
  split
  · unfold State.memEvent
    split
    · obtain ⟨ps, ws, h⟩ := State.log_eq ((s.writeBack cw).addPoison (poisonUnit cw)) ‹_› _
      exact ⟨_, _, ps, ws, h⟩
    · exact ⟨_, _, s.parts, s.windows, rfl⟩
  · exact ⟨_, s.poison, s.parts, s.windows, rfl⟩
  · exact ⟨s.mem, s.poison, s.parts, s.windows, rfl⟩

theorem State.moveCws_eq (l : List Nat) (s : State) :
    ∃ m po ps ws, l.foldl State.moveCw s = { s with mem := m, poison := po, parts := ps, windows := ws } := by
  induction l generalizing s with
  | nil => exact ⟨s.mem, s.poison, s.parts, s.windows, rfl⟩
  | cons cw l ih =>
    obtain ⟨m, po, ps, ws, h⟩ := s.moveCw_eq cw
    obtain ⟨m', po', ps', ws', h'⟩ := ih (s.moveCw cw)
    exact ⟨m', po', ps', ws', by rw [List.foldl_cons, h', h]⟩

theorem State.moved_eq (s : State) (g : Nat) : ∃ m po ps ws, s.moved g = { s with mem := m, poison := po, parts := ps, windows := ws } := by
  unfold State.moved
  split
  · exact ⟨s.mem, s.poison, s.parts, s.windows, rfl⟩
  · exact State.moveCws_eq _ s

theorem State.moved_only {s0 s : State} (g : Nat) (h : OnlyData s0 s) : OnlyData s0 (s.moved g) := by
  unfold State.moved
  split
  · exact h
  · exact State.moveCws_only _ _ h

/-! The codewords of a granule (R267). -/

/-- The sump begins and ends with a granule. -/
theorem inSump_of_granule {g x : Nat} (hg : g % 64 = 0) (hlo : g ≤ x) (hhi : x < g + 64) : inSump x = inSump g := by
  have hbase : sumpBase = 0x10000000000 := by decide
  have hquarter : sumpQuarter = 0x8000000000 := by decide
  unfold inSump
  rw [hbase, hquarter, decide_eq_decide]
  omega

theorem mem_granuleCodewords {g cw : Nat} (hg : g % 64 = 0) (h : cw ∈ granuleCodewords g) : g ≤ cw ∧ cw + codewordBytes cw ≤ g + 64 := by
  unfold granuleCodewords codewordsIn at h
  rw [if_neg (by decide), List.mem_map] at h
  obtain ⟨i, hi, rfl⟩ := h
  rw [List.mem_range] at hi
  unfold codewordBytes
  cases hs : inSump g with
  | true =>
    simp only [hs, if_true] at hi ⊢
    have hin : inSump (g / 4 * 4 + i * 4) = true := (inSump_of_granule hg (by omega) (by omega)).trans hs
    rw [hin, if_pos rfl]
    omega
  | false =>
    simp only [hs, Bool.false_eq_true, if_false] at hi ⊢
    have hin : inSump (g / 16 * 16 + i * 16) = false := (inSump_of_granule hg (by omega) (by omega)).trans hs
    rw [hin, if_neg Bool.false_ne_true]
    omega

/-! No byte outside the granule changes. -/

theorem State.read_length (s : State) (a n : Nat) : (s.read a n).length = n := by
  rw [State.read, List.length_map, List.length_range]

theorem State.writeBack_mem (s : State) (cw : Nat) : (s.writeBack cw).mem = putBytes s.mem cw (s.read cw (codewordBytes cw)) := rfl

theorem State.moveCw_mem (s : State) (cw : Nat) : (s.moveCw cw).mem = s.mem ∨ (s.moveCw cw).mem = (s.writeBack cw).mem := by
  unfold State.moveCw
  split
  · exact .inr (State.memEvent_bytes _ _ _ _ _ _).1
  · exact .inr rfl
  · exact .inl rfl

theorem State.moveCws_mem_outside {g : Nat} (hg : g % 64 = 0) {b : Nat} (hb : b < g ∨ g + 64 ≤ b) (l : List Nat)
    (hl : ∀ cw ∈ l, cw ∈ granuleCodewords g) {s : State} (hs : Tbl.ok 0 s.mem = true) :
    Tbl.get 0 (l.foldl State.moveCw s).mem b = Tbl.get 0 s.mem b := by
  induction l generalizing s with
  | nil => rfl
  | cons cw l ih =>
    obtain ⟨hcw, hl⟩ := List.forall_mem_cons.mp hl
    obtain ⟨hlo, hhi⟩ := mem_granuleCodewords hg hcw
    obtain h | h := s.moveCw_mem cw
    · rw [List.foldl_cons, ih hl (h ▸ hs), h]
    · have hput : (s.moveCw cw).mem = putBytes s.mem cw (s.read cw (codewordBytes cw)) := h.trans (s.writeBack_mem cw)
      rw [List.foldl_cons, ih hl (hput ▸ ok_putBytes _ hs), hput, get_putBytes hs, State.read_length, if_neg (by omega)]

theorem State.moved_mem_outside {g : Nat} (hg : g % 64 = 0) {b : Nat} (hb : b < g ∨ g + 64 ≤ b) {s : State} (hs : Tbl.ok 0 s.mem = true) :
    Tbl.get 0 (s.moved g).mem b = Tbl.get 0 s.mem b := by
  unfold State.moved
  split
  · rfl
  · exact State.moveCws_mem_outside hg hb _ (fun _ h => h) hs

/-! What the granule's own cells hold is kept with its entry. -/

theorem ok_foldl_set {f : Nat → Byte} (l : List Nat) {t : Tbl Byte} (h : Tbl.ok 0 t = true) :
    Tbl.ok 0 (l.foldl (fun t i => Tbl.set 0 t i (f i)) t) = true := by
  induction l generalizing t with
  | nil => exact h
  | cons i l ih => exact ih (Tbl.ok_set h)

theorem get_foldl_set {f : Nat → Byte} (n : Nat) {i : Nat} (hi : i < n) :
    Tbl.get 0 ((List.range n).foldl (fun t i => Tbl.set 0 t i (f i)) ([] : Tbl Byte)) i = f i := by
  induction n with
  | zero => omega
  | succ n ih =>
    rw [List.range_succ, List.foldl_append, List.foldl_cons, List.foldl_nil, Tbl.get_set (ok_foldl_set _ rfl)]
    by_cases h : i = n
    · rw [if_pos h, h]
    · rw [if_neg h, ih (by omega)]

/-- The entry that a granule gets when it is remapped. -/
def State.remapEntry (s : State) (a : Nat) (k : MemKind) (u granule : Nat) (persist : Bool) : Remap :=
  ⟨k, u, granule, persist, s.unitSerial k u, (List.range 64).foldl (fun t i => Tbl.set 0 t i (s.beneath (a / 64 * 64 + i))) ([] : Tbl Byte),
    ((unitsIn (a / 64 * 64) 64).filter s.poison.contains).map (· - a / 64 * 64)⟩

theorem State.remapGranule_eq (s : State) (a : Nat) (k : MemKind) (u granule : Nat) (persist : Bool) :
    s.remapGranule a k u granule persist = { s.moved (a / 64 * 64) with remaps := s.remaps ++ [s.remapEntry a k u granule persist] } := by
  obtain ⟨m, po, ps, ws, h⟩ := s.moved_eq (a / 64 * 64)
  have hmoved : (if s.faults.isEmpty then s else (granuleCodewords (a / 64 * 64)).foldl State.moveCw s) = s.moved (a / 64 * 64) := by
    simp only [State.moved, List.isEmpty_iff]
  unfold State.remapGranule
  simp only [hmoved, h]
  rfl

/-- What a granule that is remapped and logged leaves of stored data. -/
theorem stored_remapGranule {s s' : State} (h : bare s' = bare s) (a : Nat) (k : MemKind) (u granule : Nat) (persist : Bool)
    (ev position status ring : Nat) :
    let t := (s'.remapGranule a k u granule persist).memEvent ev a position status ring
    t.mem = (s.moved (a / 64 * 64)).mem ∧ t.poison = (s.moved (a / 64 * 64)).poison ∧ t.faults = s.faults
      ∧ t.remaps = s.remaps ++ [s.remapEntry a k u granule persist] := by
  intro t
  obtain ⟨hmem, hpoison, hfaults, hremaps⟩ := stored_of_bare (bare_memEvent (s'.remapGranule a k u granule persist) ev a position status ring)
  obtain ⟨hm, hp, hf, -⟩ := stored_of_bare (bare_moved (a / 64 * 64) h)
  obtain ⟨m, po, ps, ws, hmoved⟩ := s.moved_eq (a / 64 * 64)
  obtain ⟨-, -, -, hr⟩ := stored_of_bare h
  have hentry : (bare s').remapEntry a k u granule persist = (bare s).remapEntry a k u granule persist := by rw [h]
  refine ⟨hmem.trans (Eq.trans ?_ hm), hpoison.trans (Eq.trans ?_ hp), hfaults.trans (Eq.trans ?_ (hf.trans ?_)), hremaps.trans ?_⟩
  case refine_4 => rw [hmoved]
  case refine_5 =>
    rw [State.remapGranule_eq, hr]
    exact congrArg (s.remaps ++ [·]) hentry
  all_goals rw [State.remapGranule_eq]

/-! REMAP_ADD. -/

/-- The work of a REMAP_ADD: its result alone (R281). -/
def Ctx.remapResult (c : Ctx) : Result :=
  if !c.s.addrUp (c.addr 0) then Result.of [ERR_PEER_UNREACHABLE] 0 0 0
  else if c.s.isRemapped (c.addr 0) then Result.of [] 0 (c.s.remapRoom (c.addr 0)) 0
  else if c.s.remapRoom (c.addr 0) = 0 then { Result.of [ERR_DESCRIPTOR] 0 0 0 with field := 0 }
  else Result.of [] 1 (c.s.remapRoom (c.addr 0) - 1) 0

/-- What a REMAP_ADD changes apart from its packet (R280, R281). -/
def Ctx.remapChange (c : Ctx) (s : State) : State :=
  if !s.addrUp (c.addr 0) || s.isRemapped (c.addr 0) then s
  else if s.remapRoom (c.addr 0) = 0 then s.remapRefused (c.addr 0) c.pkt.ring else c.remapNow s

theorem execRemapAdd_eq (p : PacketRef) (s : State) : execRemapAdd p s =
    .next (runThen 0x0A02 (fun _ => true) (fun c => WorkOut.of c.remapResult) Ctx.remapChange p s) := by
  unfold execRemapAdd Ctx.remapResult Ctx.remapChange
  simp only [apply_ite WorkOut.of]

section
variable {s : State} {p : PacketRef} {k : Packet} {c : Ctx}

/-- The packet of a REMAP_ADD once it has run. -/
def remapDone (s : State) (k : Packet) (r : Result) : Packet := { k with phase := .finished, res := Claims.result s k (WorkOut.of r) }

/-- A ready REMAP_ADD finishes its packet, and then changes what it changes. -/
theorem remapAdd_ready (h : Claims.Ready s p 0x0A02 k c) (hrun : s.engineDown k = false) :
    exec (.remapAdd p) s = .next (c.remapChange (s.setPacket p.part (remapDone s k c.remapResult))) := by
  rw [exec, execRemapAdd_eq, runThen_ready h rfl (reached_workCodes_contains (reached_of_no_access hrun _)), State.finish_of_no_access hrun]
  rfl

/-- What an access to memory after a packet's replacement leaves. -/
theorem packets_of_onlyData {k' : Packet} {u : State} (hk : s.packet p = some k) (hr : k'.ring = k.ring) (hi : k'.idx = k.idx)
    (hd : OnlyData (s.setPacket p.part k') u) :
    u.packet p = some k' ∧ (∀ r, r ≠ p → u.packet r = s.packet r) ∧ OnlyWork p.part s u := by
  obtain ⟨hkr, hki⟩ := State.packet_keys hk
  refine ⟨((OnlyData.parts hd).packet p).trans (State.packet_setPacket hk (hr.trans hkr) (hi.trans hki)), fun r hne => ?_,
    OnlyWork.trans (State.setPacket_work _ _ _) (OnlyData.work _ hd)⟩
  exact ((OnlyData.parts hd).packet r).trans (State.packet_setPacket_ne (by rwa [hr, hi, hkr, hki]))

/-- A packet's replacement, and what the logs tell, leave the rest of the module. -/
theorem bare_memEvent_setPacket (s : State) (part : Nat) (k' : Packet) (ev a position status ring : Nat) :
    bare ((s.setPacket part k').memEvent ev a position status ring) = bare s := bare_memEvent _ _ _ _ _ _

/-- A REMAP_ADD that adds nothing changes its packet alone. -/
theorem remapAdd_nothing (h : Claims.Ready s p 0x0A02 k c) (hrun : s.engineDown k = false)
    (hnot : s.addrUp (c.addr 0) = false ∨ s.isRemapped (c.addr 0) = true) :
    exec (.remapAdd p) s = .next (s.setPacket p.part (remapDone s k c.remapResult)) := by
  have hcond : (!s.addrUp (c.addr 0) || s.isRemapped (c.addr 0)) = true := by
    obtain hnot | hnot := hnot <;> simp [hnot]
  rw [remapAdd_ready h hrun]
  exact congrArg _ (if_pos hcond)

/-- A REMAP_ADD at a full table is logged. -/
theorem remapAdd_full (h : Claims.Ready s p 0x0A02 k c) (hrun : s.engineDown k = false) (hup : s.addrUp (c.addr 0) = true)
    (hmap : s.isRemapped (c.addr 0) = false) (hroom : s.remapRoom (c.addr 0) = 0) :
    exec (.remapAdd p) s = .next ((s.setPacket p.part (remapDone s k c.remapResult)).memEvent 7 (c.addr 0) 0 ERR_DESCRIPTOR c.pkt.ring) := by
  have hcond : (!s.addrUp (c.addr 0) || s.isRemapped (c.addr 0)) = false := by rw [hup, hmap]; rfl
  rw [remapAdd_ready h hrun]
  exact congrArg _ ((if_neg (hcond ▸ Bool.false_ne_true)).trans (if_pos hroom))

/-- A REMAP_ADD with room remaps its granule and logs it. -/
theorem remapAdd_room (h : Claims.Ready s p 0x0A02 k c) (hrun : s.engineDown k = false) (hup : s.addrUp (c.addr 0) = true)
    (hmap : s.isRemapped (c.addr 0) = false) (hroom : 0 < s.remapRoom (c.addr 0)) {m : MemKind} {u off : Nat}
    (hloc : s.localOf (c.addr 0) = some (m, u, off)) :
    exec (.remapAdd p) s = .next (((s.setPacket p.part (remapDone s k c.remapResult)).remapGranule (c.addr 0) m u (off / 64)
      ((c.u 8 1).testBit 0)).memEvent 5 (c.addr 0) 0 0 c.pkt.ring) := by
  have hcond : (!s.addrUp (c.addr 0) || s.isRemapped (c.addr 0)) = false := by rw [hup, hmap]; rfl
  have hnow : c.remapNow (s.setPacket p.part (remapDone s k c.remapResult)) = ((s.setPacket p.part (remapDone s k c.remapResult)).remapGranule
      (c.addr 0) m u (off / 64) ((c.u 8 1).testBit 0)).memEvent 5 (c.addr 0) 0 0 c.pkt.ring := by
    have hloc' : (s.setPacket p.part (remapDone s k c.remapResult)).localOf (c.addr 0) = some (m, u, off) := hloc
    rw [Ctx.remapNow, hloc']
  rw [remapAdd_ready h hrun, ← hnow]
  exact congrArg _ ((if_neg (hcond ▸ Bool.false_ne_true)).trans (if_neg hroom.ne'))

end

/-- Settles O13: the occasions of REMAP_ADD; with room, State.remapGranule moves the granule's contents and lists its entry. -/
theorem remapAdds : Obligations.RemapAdds := by
  intro p s k c h hrun a g end_
  have hs : c.s = s := (State.ctx_state h.ctx).1
  refine ⟨fun hup hmap hroom m u off hloc => ?_, fun hup hmap => ?_, fun hup hmap hroom => ?_, fun hup => ?_⟩
  · have hres : remapDone s k c.remapResult = end_ (Result.of [] 1 (s.remapRoom a - 1) 0) := by
      simp only [remapDone, end_, Ctx.remapResult, hs, a, hup, hmap, hroom.ne', Bool.not_true, Bool.false_eq_true, if_false]
    have hexec := remapAdd_room h hrun hup hmap hroom hloc
    rw [hres] at hexec
    generalize hk' : end_ (Result.of [] 1 (s.remapRoom a - 1) 0) = k' at hexec
    have hd := State.memEvent_only _ 5 a 0 0 c.pkt.ring
      (State.remapGranule_only (s.setPacket p.part k') a m u (off / 64) ((c.u 8 1).testBit 0) rfl)
    obtain ⟨hp, ho, hw⟩ := packets_of_onlyData h.found (hk' ▸ rfl) (hk' ▸ rfl) hd
    obtain ⟨hmem, hpoison, hfaults, hremaps⟩ := stored_remapGranule (s := s) (s' := s.setPacket p.part k') rfl a m u (off / 64)
      ((c.u 8 1).testBit 0) 5 0 0 c.pkt.ring
    refine ⟨_, hexec, hp, ⟨_, hremaps, rfl, rfl, rfl, rfl, rfl, fun i hi => get_foldl_set (f := fun i => s.beneath (g + i)) 64 hi, rfl⟩, ho, hw, hfaults, ⟨hmem, hpoison⟩,
      fun hok b hb => ?_⟩
    rw [hmem]
    exact State.moved_mem_outside (by omega) hb hok
  · have hres : remapDone s k c.remapResult = end_ (Result.of [] 0 (s.remapRoom a) 0) := by
      simp only [remapDone, end_, Ctx.remapResult, hs, a, hup, hmap, Bool.not_true, Bool.false_eq_true, if_true, if_false]
    obtain ⟨hp, ho, hw⟩ := packets_of_onlyData (k' := remapDone s k c.remapResult) h.found rfl rfl rfl
    exact ⟨_, remapAdd_nothing h hrun (.inr hmap), hres ▸ hp, rfl, ho, hw, rfl⟩
  · have hres : remapDone s k c.remapResult = end_ { Result.of [ERR_DESCRIPTOR] 0 0 0 with field := 0 } := by
      simp only [remapDone, end_, Ctx.remapResult, hs, a, hup, hmap, hroom, Bool.not_true, Bool.false_eq_true, if_true, if_false]
    obtain ⟨hp, ho, hw⟩ := packets_of_onlyData (k' := remapDone s k c.remapResult) h.found rfl rfl
      (State.memEvent_only _ 7 a 0 ERR_DESCRIPTOR c.pkt.ring rfl)
    obtain ⟨hmem, -, -, hremaps⟩ := stored_of_bare (bare_memEvent_setPacket s p.part (remapDone s k c.remapResult) 7 a 0 ERR_DESCRIPTOR c.pkt.ring)
    exact ⟨_, remapAdd_full h hrun hup hmap hroom, hp.trans (congrArg some hres), hremaps, ho, hw, hmem⟩
  · have hres : remapDone s k c.remapResult = end_ (Result.of [ERR_PEER_UNREACHABLE] 0 0 0) := by
      simp only [remapDone, end_, Ctx.remapResult, hs, a, hup, Bool.not_false, if_true]
    obtain ⟨hp, ho, hw⟩ := packets_of_onlyData (k' := remapDone s k c.remapResult) h.found rfl rfl rfl
    exact ⟨_, remapAdd_nothing h hrun (.inl hup), hp.trans (congrArg some hres), rfl, ho, hw, rfl⟩

end Sys2Proof.Machine
end

section
/-! PROOF. Doorbells that wake a partition or that it does not take, the fetch of a slot, and issue (R26 to R28, R34, R431, R461). -/

namespace Sys2Proof.Machine

open Safety (OnlyData OnlyWork written)

/-! Doorbells. -/

theorem State.lowQ_le (s : State) (q : Nat) : s.lowQ q ≤ q := Nat.div_mul_le_self _ _

theorem State.lt_four_of_pathReaches {s : State} {path : Path} {q : Nat} (h : s.pathReaches path q = true) : q < 4 := by
  simp only [State.pathReaches, Bool.and_eq_true, decide_eq_true_eq] at h
  exact h.1.1

/-- The window and the bit of a doorbell's ring are the doorbell's own (R379). -/
theorem ringWindow_doorbell {p q k : Nat} (hp : p ≤ q) (hk : k < 64) : ringWindow p (64 * (q - p) + k) = (q, k) := by
  exact congrArg₂ (fun w i => (w, i)) (by omega) (by omega)

theorem execDoorbellWrite_of_reaches {s : State} {path : Path} {q k : Nat} {data : Word} (h : s.pathReaches path q = true) (hk : k < 64) :
    exec (.doorbellWrite path q k data) s = .next (s.doorbellAccess q k data) := by
  simp only [exec, execDoorbellWrite, h, hk, decide_true, Bool.and_self, if_true]

/-- A doorbell that is flagged: its window alone changes. -/
theorem markRing_rejected (s : State) {q : Nat} (k : Nat) (hq : q < s.windows.length) : Claims.DoorbellRejected s (s.markRing 0 q k) q k := by
  unfold State.markRing
  refine ⟨rfl, fun w hw => ?_, ?_⟩
  · rw [State.window_modWindow_ne _ hw, State.window_modWindow_ne _ hw]
  · rw [State.window_modWindow_self _ (by rw [State.modWindow, List.length_modify]; exact hq), State.window_modWindow_self _ hq]
    rfl

/-- Settles O19: from QUIESCE the partition is ACTIVE when the doorbell acts; from STANDBY, and where the ring is closed, the doorbell's window
alone is written. -/
theorem doorbellWakes : Obligations.DoorbellWakes := by
  intro path q k data s hreach hk hwin hparts p ring
  have hq := State.lt_four_of_pathReaches hreach
  have hp : p < s.parts.length := by
    have := s.lowQ_le q
    omega
  have hexec := fun t => execDoorbellWrite_of_reaches (s := t) (path := path) (q := q) (data := data) (hk := hk)
  have hring : ringWindow p ring = (q, k) := ringWindow_doorbell (s.lowQ_le q) hk
  refine ⟨fun hst => ?_, fun hst => ⟨_, ?_, markRing_rejected _ k (by rw [State.modPart_windows, hwin]; omega)⟩,
    fun hst hserved hconf hkeys => ⟨_, ?_, markRing_rejected s k (by omega)⟩⟩
  · have hact : ((s.modPart p Part.activate).part p).pstate = .active := by rw [State.part_modPart_self _ hp]; rfl
    refine ⟨?_, hact⟩
    have hl : (s.modPart p Part.activate).doorbellRing q k = s.doorbellRing q k := rfl
    rw [hexec s hreach, hexec (s.modPart p Part.activate) hreach, State.doorbellAccess, State.doorbellAccess, hl]
    have hring' : s.doorbellRing q k = (p, ring) := rfl
    simp only [hring', hst, hact, State.wake]
  · rw [hexec s hreach, State.doorbellAccess]
    have hring' : s.doorbellRing q k = (p, ring) := rfl
    simp only [hring', hst, State.wake]
  · rw [hexec s hreach, State.doorbellAccess]
    have hring' : s.doorbellRing q k = (p, ring) := rfl
    simp only [hring', hst, State.doorbell, hserved, hconf, hkeys, Bool.and_self, if_true, hring]

/-! The fetch of a slot (R27). -/

/-- Settles O20: the read's own effects are an access to memory; what it read decides whether the ring holds the slot or stops. -/
theorem slotFetches : Obligations.SlotFetches := by
  intro part ring s b hmay hb head a hreach
  have hstep : exec (.slotFetch part ring) s =
      if (!(s.badOf a 64).isEmpty || s.readNat (a + 4) 4 != head) = true then .next ((s.readEffects a 64 0 ring).stopRing 1 part ring)
      else .next ((s.readEffects a 256 (if (Header.parse (s.read a 256)).flag 0 then statusOf ((s.badOf (a + 64) 192).map BadRead.code) else OK)
        ring).modRing part ring fun r => { r with fetched := some ⟨s.read a 256, s.badOf (a + 64) 192⟩ }) := by
    have hslot : b.slotAddr head = a := rfl
    simp only [exec, execSlotFetch, hb, hslot, hmay, hreach, Bool.and_self, if_true, head]
  by_cases hgood : s.badOf a 64 = [] ∧ s.readNat (a + 4) 4 = head
  · obtain ⟨hbad, hseq⟩ := hgood
    refine ⟨_, State.readEffects_only s a 256 _ ring rfl, fun hs => (State.readEffects_bytes hs a 256 _ ring).1,
      fun _ _ => hstep.trans (if_neg ?_), fun h => ?_⟩
    · simp [hbad, hseq]
    · simp [hbad, hseq] at h
  · refine ⟨_, State.readEffects_only s a 64 0 ring rfl, fun hs => (State.readEffects_bytes hs a 64 0 ring).1,
      fun hbad hseq => absurd ⟨hbad, hseq⟩ hgood, fun h => hstep.trans (if_pos ?_)⟩
    simpa [bne_iff_ne] using h

/-! Issue (R28, R34). -/

theorem State.waitMet_iff (s : State) (p : Nat) (enabled : Bool) (ctr val : Nat) :
    s.waitMet p enabled ctr val = true ↔ enabled = false ∨ 4096 * s.quartersPer ≤ ctr ∨ val ≤ Tbl.get 0 (s.part p).counters ctr := by
  simp only [State.waitMet, Bool.or_eq_true, Bool.not_eq_true', decide_eq_true_eq, or_assoc]

/-- Settles O21: each condition of PACKET_ISSUE is one of R28, R34 and R460. -/
theorem packetIssues : Obligations.PacketIssues := by
  intro part ring s f b pt r h mine met hf hb may
  have hmay : s.mayIssue part ring h = true ↔ may := by
    have hroom : r.cqRoom = true ↔ (r.cqTail + 2 ^ 32 - r.cqHead) % 2 ^ 32 < 2 ^ b.cqLog2 := by
      simp only [Ring.cqRoom, hb, decide_eq_true_eq]
    have hheld : (!mine.any fun k => k.phase == .recordHeld) = true ↔ ∀ k ∈ mine, k.phase ≠ .recordHeld := by
      simp only [Bool.not_eq_true', List.any_eq_false, beq_iff_eq, ne_eq]
    have hserial : (!h.flag 4 || mine.isEmpty) = true ↔ (h.flags.testBit 4 = true → mine = []) := by
      rw [Header.flag, Bool.or_eq_true, Bool.not_eq_true', List.isEmpty_iff, ← Bool.not_eq_true, imp_iff_not_or]
    have hactive : (pt.pstate == .active) = true ↔ pt.pstate = .active := beq_iff_eq
    have hdef : s.mayIssue part ring h = (s.isPart part && !s.fatal && !r.stopped && pt.pstate == .active && decide (mine.length < 64) && r.cqRoom
        && !(mine.any fun k => k.phase == .recordHeld) && (!h.flag 4 || mine.isEmpty) && !s.rebinding part ring
        && s.waitMet part (h.flag 1) h.wait0Ctr h.wait0Val && s.waitMet part (h.flag 2) h.wait1Ctr h.wait1Val) := rfl
    rw [hdef]
    simp only [Bool.and_eq_true, hroom, hheld, hserial, hactive, State.waitMet_iff, decide_eq_true_eq]
    simp only [Bool.not_eq_true']
    constructor
    · rintro ⟨⟨⟨⟨⟨⟨⟨⟨⟨⟨hpart, hfatal⟩, hstopped⟩, hact⟩, hlen⟩, hcq⟩, hrec⟩, hser⟩, hreb⟩, hw0⟩, hw1⟩
      exact ⟨hpart, hfatal, hact, hstopped, hreb, hlen, hcq, hrec, hser, hw0, hw1⟩
    · rintro ⟨hpart, hfatal, hact, hstopped, hreb, hlen, hcq, hrec, hser, hw0, hw1⟩
      exact ⟨⟨⟨⟨⟨⟨⟨⟨⟨⟨hpart, hfatal⟩, hstopped⟩, hact⟩, hlen⟩, hcq⟩, hrec⟩, hser⟩, hreb⟩, hw0⟩, hw1⟩
  constructor
  · intro hm k
    simp only [exec, execPacketIssue]
    rw [hf, hb]
    exact if_pos (hmay.mpr hm)
  · intro hm
    simp only [exec, execPacketIssue]
    rw [hf, hb]
    exact if_neg fun e => hm (hmay.mp e)

end Sys2Proof.Machine
end

section
/-! PROOF. Ring service: the winner of a grant, what it leaves of waits, quota and progress, and the QUOTA window (R44, R46, R110, R293). -/

namespace Sys2Proof.Machine

/-! Sorted lists. -/

theorem insertBy_perm {α : Type} (before : α → α → Bool) (x : α) (l : List α) : (insertBy before x l).Perm (x :: l) := by
  induction l with
  | nil => exact List.Perm.refl _
  | cons y l ih =>
    rw [insertBy]
    split
    · exact List.Perm.refl _
    · exact (ih.cons y).trans (List.Perm.swap x y l)

theorem sortBy_perm {α : Type} (before : α → α → Bool) (l : List α) : (sortBy before l).Perm l := by
  have hfold : ∀ acc : List α, (l.foldl (fun acc x => insertBy before x acc) acc).Perm (acc ++ l) := by
    induction l with
    | nil => exact fun acc => by rw [List.append_nil]; exact List.Perm.refl _
    | cons x l ih =>
      intro acc
      exact (ih _).trans (((insertBy_perm before x acc).append_right l).trans List.perm_middle.symm)
  exact hfold []

/-! Rings of a partition. -/

/-- A ring whose new state is not that of an unbound ring is found so, and every other ring as before. -/
theorem Part.ring_modRing (pt : Part) {r : Nat} {f : Ring → Ring} (h : f (pt.ring r) ≠ Ring.unbound) (i : Nat) :
    (pt.modRing r f).ring i = if i = r then f (pt.ring r) else pt.ring i := by
  unfold Part.ring Part.modRing Tbl.set
  rw [if_neg h, Tbl.get_put]
  rfl

theorem ne_unbound_of_binding {r : Ring} (h : r.binding.isSome = true) : r ≠ Ring.unbound := by
  rintro rfl
  contradiction

/-- A change of every listed ring that leaves an unbound ring as it is. -/
theorem Tbl.get_map {α : Type} {d : α} {f : α → α} (hf : f d = d) (t : Tbl α) (i : Nat) :
    Tbl.get d (t.map fun e => (e.1, f e.2)) i = f (Tbl.get d t i) := by
  induction t with
  | nil => exact hf.symm
  | cons e t ih =>
    rw [List.map_cons, Tbl.get, Tbl.get, ih]
    split
    · rfl
    · split
      · exact hf.symm
      · rfl

/-! The QUOTA window (R46). -/

theorem Part.closeWindow_of_lt {pt : Part} (h : pt.window < 256) : pt.closeWindow = pt := if_pos h

theorem Part.closeWindow_of_le {pt : Part} (h : 256 ≤ pt.window) :
    pt.closeWindow = { pt with window := 0, rings := pt.rings.map fun e => (e.1, { e.2 with granted := 0, masked := false }) } :=
  if_neg (by omega)

theorem Part.closeWindow_ring {pt : Part} (h : 256 ≤ pt.window) (i : Nat) :
    pt.closeWindow.ring i = { pt.ring i with granted := 0, masked := false } := by
  rw [Part.closeWindow_of_le h]
  exact Tbl.get_map (f := fun r : Ring => { r with granted := 0, masked := false }) rfl pt.rings i

theorem State.modPart_self {s : State} {p : Nat} {f : Part → Part} (h : f (s.part p) = s.part p) : s.modPart p f = s := by
  rw [State.modPart_congr (g := id) h, State.modPart, List.modify_id]

/-- Settles O26: EMPTY_GRANT counts a step of the window, and QUOTA_WINDOW_END closes it at 256. -/
theorem quotaWindows : Obligations.QuotaWindows := by
  intro part res s hp
  refine ⟨fun hpart hfatal hown hwin hreq hmask => ?_, fun hwin => ?_, fun hwin => ⟨_, rfl, ?_⟩⟩
  · have hcont : (s.part part).contenders res = [] := by
      rw [Part.contenders, List.filter_eq_nil_iff]
      intro i hi
      simp [hmask i hi]
    have hreq' : ((s.part part).requesters res).isEmpty = false := List.isEmpty_eq_false_iff.mpr hreq
    simp only [exec, execEmptyGrant, hpart, hfatal, hown, Part.closeWindow_of_lt hwin, hcont, hreq', Bool.not_true, Bool.or_self,
      Bool.false_eq_true, if_false, List.isEmpty_nil]
    exact congrArg _ (State.modPart_const (fun pt => { pt with window := pt.window + 1 }) hp).symm
  · exact congrArg _ (State.modPart_self (Part.closeWindow_of_lt hwin))
  · rw [State.part_modPart_self _ hp]
    exact ⟨by rw [Part.closeWindow_of_le hwin], Part.closeWindow_ring hwin, fun q hq => State.part_modPart_ne _ hq,
      by rw [Part.closeWindow_of_le hwin], rfl, rfl⟩

/-! The arbiter (R44). -/

theorem foldl_max_mem_le (l : List Nat) (x : Nat) : l.foldl max x ∈ x :: l ∧ ∀ i ∈ x :: l, i ≤ l.foldl max x := by
  have hmax : (x :: l).max? = some (l.foldl max x) := List.max?_cons'
  exact ⟨List.max?_mem hmax, (List.max?_eq_some_iff.mp hmax).2⟩

/-- The winner is the highest ring whose wait has reached its limit, or with none of those the highest of all. -/
theorem arbiterWinner_spec {cs : List Nat} (hcs : cs ≠ []) (wait limit : Nat → Nat) :
    ∃ w, arbiterWinner cs wait limit = some w ∧ w ∈ cs
      ∧ if ∃ i ∈ cs, limit i ≤ wait i then limit w ≤ wait w ∧ ∀ i ∈ cs, limit i ≤ wait i → i ≤ w else ∀ i ∈ cs, i ≤ w := by
  generalize hforced : cs.filter (fun i => decide (limit i ≤ wait i)) = forced
  have hmem : ∀ i, i ∈ forced ↔ i ∈ cs ∧ limit i ≤ wait i := by
    intro i
    rw [← hforced, List.mem_filter, decide_eq_true_eq]
  unfold arbiterWinner
  simp only [hforced]
  cases forced with
  | nil =>
    obtain ⟨x, l, rfl⟩ := List.exists_cons_of_ne_nil hcs
    obtain ⟨hw, hle⟩ := foldl_max_mem_le l x
    refine ⟨_, rfl, hw, ?_⟩
    rw [if_neg]
    · exact hle
    · rintro ⟨i, hi, hlim⟩
      exact absurd ((hmem i).mpr ⟨hi, hlim⟩) List.not_mem_nil
  | cons x l =>
    obtain ⟨hw, hle⟩ := foldl_max_mem_le l x
    obtain ⟨hwcs, hwlim⟩ := (hmem _).mp hw
    refine ⟨_, rfl, hwcs, ?_⟩
    rw [if_pos ⟨_, hwcs, hwlim⟩]
    exact ⟨hwlim, fun i hi hlim => hle i ((hmem i).mpr ⟨hi, hlim⟩)⟩

theorem Part.contenders_nodup (pt : Part) (res : Resource) : (pt.contenders res).Nodup := by
  refine List.Nodup.filter _ ((sortBy_perm _ _).nodup_iff.mpr ?_)
  rw [dedupNat_eq_dedup]
  exact List.nodup_dedup _

/-! A grant (R293). -/

/-- Each listed ring changed once. -/
theorem Part.foldl_modRing_ring {f : Nat → Ring → Ring} (hf : ∀ i r, (f i r).binding = r.binding) (cs : List Nat) (hcs : cs.Nodup) {pt : Part}
    (hb : ∀ i ∈ cs, (pt.ring i).binding.isSome = true) (i : Nat) :
    (cs.foldl (fun pt i => pt.modRing i (f i)) pt).ring i = if i ∈ cs then f i (pt.ring i) else pt.ring i := by
  induction cs generalizing pt with
  | nil => rfl
  | cons c cs ih =>
    obtain ⟨hc, hcs⟩ := List.nodup_cons.mp hcs
    obtain ⟨hbc, hb⟩ := List.forall_mem_cons.mp hb
    have hstep := pt.ring_modRing (f := f c) (r := c) (ne_unbound_of_binding (by rw [hf]; exact hbc))
    rw [List.foldl_cons, ih hcs]
    · rw [hstep]
      by_cases hi : i = c
      · subst hi
        rw [if_neg hc, if_pos rfl, if_pos List.mem_cons_self]
      · rw [if_neg hi]
        simp only [List.mem_cons, hi, false_or]
    · intro j hj
      rw [hstep, if_neg (fun e : j = c => hc (e ▸ hj))]
      exact hb j hj

theorem foldl_modRing_fields {f : Nat → Ring → Ring} (cs : List Nat) (pt : Part) :
    ∃ rs, cs.foldl (fun pt i => pt.modRing i (f i)) pt = { pt with rings := rs } := by
  induction cs generalizing pt with
  | nil => exact ⟨pt.rings, rfl⟩
  | cons c cs ih =>
    obtain ⟨rs, h⟩ := ih (pt.modRing c (f c))
    exact ⟨rs, by rw [List.foldl_cons, h]; rfl⟩

/-- A ring's state after a grant that it did not win. -/
def Ring.lost (r : Ring) : Ring := { r with wait := min (r.wait + 1) r.limit }

/-- A grant counted towards a ring's mask, where the ring has a quota (R46). -/
def Ring.counted (r : Ring) : Ring :=
  match r.binding with
  | some b => if b.quota then { r with granted := r.granted + 1, masked := decide (b.quotaGrants ≤ r.granted + 1) } else r
  | none => r

theorem Ring.counted_binding (r : Ring) : r.counted.binding = r.binding := by
  unfold Ring.counted
  split
  · split <;> rfl
  · rfl

/-- A ring's state after a grant that it won. -/
def Ring.won (r : Ring) : Ring := { r with wait := 0 }.counted

/-- The wait of a contender's ring after a grant to ring w. -/
def Ring.waited (w i : Nat) (r : Ring) : Ring := if i = w then { r with wait := 0 } else r.lost

theorem Ring.waited_binding (w i : Nat) (r : Ring) : (r.waited w i).binding = r.binding := by
  unfold Ring.waited
  split <;> rfl

theorem Part.grant_eq (pt : Part) (cs : List Nat) (w : Nat) :
    pt.grant cs w = { (cs.foldl (fun pt i => pt.modRing i (Ring.waited w i)) pt).modRing w Ring.counted with
      window := (cs.foldl (fun pt i => pt.modRing i (Ring.waited w i)) pt).window + 1 } := by
  have hwait : (fun (pt : Part) (i : Nat) => pt.modRing i fun r => { r with wait := if i = w then 0 else min (r.wait + 1) r.limit })
      = fun pt i => pt.modRing i (Ring.waited w i) := by
    funext pt i
    congr 1
    funext r
    unfold Ring.waited
    split <;> rfl
  unfold Part.grant
  rw [hwait]
  rfl

/-- A grant changes the waits of those who contend, the winner's count, and the window. -/
theorem Part.grant_spec {pt : Part} {cs : List Nat} (hcs : cs.Nodup) (hb : ∀ i ∈ cs, (pt.ring i).binding.isSome = true) {w : Nat} (hw : w ∈ cs) :
    (∃ rs, pt.grant cs w = { pt with rings := rs, window := pt.window + 1 })
      ∧ ∀ i, (pt.grant cs w).ring i = if i = w then (pt.ring w).won else if i ∈ cs then (pt.ring i).lost else pt.ring i := by
  rw [Part.grant_eq]
  obtain ⟨rs, hrs⟩ := foldl_modRing_fields (f := Ring.waited w) cs pt
  have hring := Part.foldl_modRing_ring (Ring.waited_binding w) cs hcs hb
  generalize cs.foldl (fun pt i => pt.modRing i (Ring.waited w i)) pt = pt1 at hrs hring ⊢
  have hringw : pt1.ring w = { pt.ring w with wait := 0 } := by rw [hring, if_pos hw, Ring.waited, if_pos rfl]
  refine ⟨⟨_, by rw [hrs]; rfl⟩, fun i => ?_⟩
  refine (pt1.ring_modRing (ne_unbound_of_binding (by rw [Ring.counted_binding, hringw]; exact hb w hw)) i).trans ?_
  by_cases hi : i = w
  · rw [if_pos hi, if_pos hi, hringw, Ring.won]
  · simp only [if_neg hi, hring, Ring.waited]

theorem State.wakeBenches_parts (s : State) (leaves : List Nat) : (s.wakeBenches leaves).parts = s.parts := by
  unfold State.wakeBenches
  split <;> rfl

/-- What the banks of an array spill is kept with the partition (R110). -/
theorem State.bankGrant_part {s : State} {p : Nat} (hp : p < s.parts.length) (array w : Nat) :
    ∃ sp, (s.bankGrant p array w).part p = { s.part p with spilled := sp }
      ∧ ∀ b ∈ Tbl.get [] s.banks array, b.part = p → b.ring ≠ w → (∃ x ∈ (s.part p).progress, x.1 = .array array ∧ x.2.1 = b.ring) →
        (array, b) ∈ sp := by
  refine ⟨_, State.part_modPart_self s hp, fun b hb hbp hbr hx => List.mem_append_right _ (List.mem_map.mpr ⟨b, List.mem_filter.mpr ⟨hb, ?_⟩, rfl⟩)⟩
  obtain ⟨x, hx, hx1, hx2⟩ := hx
  simp only [Bool.and_eq_true, beq_iff_eq, bne_iff_ne, List.any_eq_true]
  exact ⟨⟨hbp, hbr⟩, x, hx, hx1, hx2⟩

/-- The module after a grant whose partition has been brought up to date: the array's banks, and the benches in its way. -/
def State.granted (s : State) (part : Nat) (res : Resource) (w : Nat) : State :=
  match res with
  | .array n => (s.bankGrant part n w).wakeBenches [n]
  | .vector n => s.wakeBenches [n]
  | _ => s

theorem State.granted_part {s : State} {p : Nat} (hp : p < s.parts.length) (res : Resource) (w : Nat) :
    ∃ sp, (s.granted p res w).part p = { s.part p with spilled := sp }
      ∧ ∀ n, res = .array n → ∀ b ∈ Tbl.get [] s.banks n, b.part = p → b.ring ≠ w →
        (∃ x ∈ (s.part p).progress, x.1 = res ∧ x.2.1 = b.ring) → (n, b) ∈ sp := by
  cases res with
  | array n =>
    obtain ⟨sp, hpart, hsp⟩ := State.bankGrant_part hp n w
    refine ⟨sp, (congrArg (fun l : List Part => l[p]?.getD Part.reset) (State.wakeBenches_parts _ _)).trans hpart, ?_⟩
    rintro m ⟨⟩
    exact hsp
  | vector n =>
    exact ⟨(s.part p).spilled, congrArg (fun l : List Part => l[p]?.getD Part.reset) (State.wakeBenches_parts s [n]), nofun⟩
  | gang n | haul n | dressing n | core n => exact ⟨(s.part p).spilled, rfl, nofun⟩

theorem Part.progressed_rest {pt : Part} {res : Resource} {w : Nat} (units : Nat) (jobDone : Bool) {x : Resource × Nat × Nat}
    (hx : x ∈ pt.progress) (hne : ¬(x.1 = res ∧ x.2.1 = w)) : x ∈ (pt.progressed res w units jobDone).progress := by
  have hrest : x ∈ pt.progress.filter fun x => !(x.1 == res && x.2.1 == w) := by
    rw [List.mem_filter]
    simpa [hx, not_and_or, -not_and] using hne
  unfold Part.progressed
  cases jobDone
  · exact List.mem_append_left _ hrest
  · exact hrest

theorem Part.progressed_winner (pt : Part) (res : Resource) (w units : Nat) (jobDone : Bool) :
    if jobDone then ∀ x ∈ (pt.progressed res w units jobDone).progress, ¬(x.1 = res ∧ x.2.1 = w)
    else (res, w, ((pt.progress.find? fun x => x.1 == res && x.2.1 == w).map (·.2.2)).getD 0 + units) ∈ (pt.progressed res w units jobDone).progress := by
  cases jobDone
  · exact List.mem_append_right _ List.mem_cons_self
  · intro x hx
    obtain ⟨-, hx⟩ := List.mem_filter.mp hx
    simpa [-not_and, not_and_or] using hx

/-- The state after a grant to ring w of a partition whose QUOTA window is open. -/
def State.grantTo (s : State) (part : Nat) (res : Resource) (units : Nat) (jobDone : Bool) (pt : Part) (cs : List Nat) (w : Nat) : State :=
  (s.modPart part fun _ => (pt.grant cs w).progressed res w units jobDone).granted part res w

theorem execRingServiceGrant_of_winner {s : State} {part w : Nat} {res : Resource} (units : Nat) (jobDone : Bool) (hpart : s.isPart part = true)
    (hfatal : s.fatal = false) (hown : s.ownsResource part res = true)
    (hwin : arbiterWinner ((s.part part).closeWindow.contenders res) (fun i => ((s.part part).closeWindow.ring i).wait)
      (fun i => ((s.part part).closeWindow.ring i).limit) = some w) :
    exec (.ringServiceGrant part res units jobDone) s
      = .next (s.grantTo part res units jobDone (s.part part).closeWindow ((s.part part).closeWindow.contenders res) w) := by
  simp only [exec, execRingServiceGrant, hpart, hfatal, hown, Bool.not_true, Bool.or_self, Bool.false_eq_true, if_false, hwin]
  cases res <;> rfl

/-- The partition after a grant: the grant's rings and window, the winner's progress, and what its array's banks had to give up. -/
theorem State.grantTo_part {s : State} {part : Nat} (hp : part < s.parts.length) (res : Resource) (units : Nat) (jobDone : Bool) {pt : Part}
    {cs : List Nat} (hcs : cs.Nodup) (hb : ∀ i ∈ cs, (pt.ring i).binding.isSome = true) {w : Nat} (hw : w ∈ cs) :
    ∃ rs sp, (s.grantTo part res units jobDone pt cs w).part part
          = { pt with rings := rs, window := pt.window + 1, progress := (pt.progressed res w units jobDone).progress, spilled := sp }
      ∧ (∀ i, Tbl.get Ring.unbound rs i = if i = w then (pt.ring w).won else if i ∈ cs then (pt.ring i).lost else pt.ring i)
      ∧ ∀ n, res = .array n → ∀ b ∈ Tbl.get [] s.banks n, b.part = part → b.ring ≠ w →
        (∃ x ∈ (pt.progressed res w units jobDone).progress, x.1 = res ∧ x.2.1 = b.ring) → (n, b) ∈ sp := by
  obtain ⟨⟨rs, hgrant⟩, hring⟩ := Part.grant_spec hcs hb hw
  obtain ⟨sp, hpt, hsp⟩ := State.granted_part (s := s.modPart part fun _ => (pt.grant cs w).progressed res w units jobDone)
    (by rw [State.modPart, List.length_modify]; exact hp) res w
  rw [State.part_modPart_self _ hp, hgrant] at hpt hsp
  rw [hgrant] at hring
  unfold State.grantTo
  rw [hgrant]
  exact ⟨rs, sp, hpt, hring, hsp⟩

/-- Settles O25: the arbiter's winner, and the partition that the grant leaves. -/
theorem ringServiceGrants : Obligations.RingServiceGrants := by
  intro part res units jobDone s hpart hfatal hown hparts pt cs forced hcs hb
  have hp : part < s.parts.length := by
    simp only [State.isPart, Bool.and_eq_true, decide_eq_true_eq] at hpart
    omega
  obtain ⟨w, hwin, hwcs, hmax⟩ := arbiterWinner_spec hcs (fun i => (pt.ring i).wait) (fun i => (pt.ring i).limit)
  obtain ⟨rs, sp, hpt, hring, hsp⟩ := State.grantTo_part hp res units jobDone (pt.contenders_nodup res) hb hwcs
  have hrings : ∀ i, (Part.ring ((s.grantTo part res units jobDone pt cs w).part part) i)
      = if i = w then (pt.ring w).won else if i ∈ cs then (pt.ring i).lost else pt.ring i := fun i => by rw [hpt]; exact hring i
  refine ⟨w, _, execRingServiceGrant_of_winner units jobDone hpart hfatal hown hwin, hwcs, hmax, fun i hi hne => ?_, fun i hi => ?_, ?_, ?_, ?_,
    fun x hx hne => ?_, ?_, ?_⟩
  · exact (hrings i).trans (by rw [if_neg hne, if_pos hi, Ring.lost])
  · exact (hrings i).trans (by rw [if_neg (fun e : i = w => hi (e ▸ hwcs)), if_neg hi])
  · exact (hrings w).trans (if_pos rfl)
  · exact (congrArg Part.window hpt).trans rfl
  · exact (congrArg Part.packets hpt).trans rfl
  · rw [show ((s.grantTo part res units jobDone pt cs w).part part).progress = _ from congrArg Part.progress hpt]
    exact Part.progressed_rest units jobDone hx hne
  · rw [show ((s.grantTo part res units jobDone pt cs w).part part).progress = _ from congrArg Part.progress hpt]
    exact pt.progressed_winner res w units jobDone
  · rw [show ((s.grantTo part res units jobDone pt cs w).part part) = _ from hpt]
    exact hsp

end Sys2Proof.Machine
end

section
/-! PROOF. The completion of a packet whose results are visible already: its record, its signal, and its leaving (R25, R28, R39, R40). -/

namespace Sys2Proof.Machine

open Safety (OnlyData written)

variable {s : State} {p : Nat} {k : Packet}

theorem State.modPart_modPart (s : State) (p : Nat) (f g : Part → Part) : (s.modPart p f).modPart p g = s.modPart p fun pt => g (f pt) := by
  unfold State.modPart
  exact congrArg (fun l => { s with parts := l }) (List.modify_modify_eq _ _ _ _)

theorem State.modPart_parts_length (s : State) (p : Nat) (f : Part → Part) : (s.modPart p f).parts.length = s.parts.length := List.length_modify ..

/-- A view of a partition that a change of one does not touch. -/
theorem State.view_modPart {β : Type} {g : Part → β} {f : Part → Part} (h : ∀ pt, g (f pt) = g pt) (s : State) (p q : Nat) :
    g ((s.modPart p f).part q) = g (s.part q) := by
  by_cases hq : q = p
  · subst hq
    by_cases hp : q < s.parts.length
    · rw [State.part_modPart_self _ hp, h]
    · rw [State.modPart, List.modify_eq_self (by omega)]
  · rw [State.part_modPart_ne _ hq]

/-- A view of a partition that its rings do not touch. -/
theorem State.view_modRing {β : Type} {g : Part → β} (h : ∀ pt rs, g { pt with rings := rs } = g pt) (s : State) (p q r : Nat) (f : Ring → Ring) :
    g ((s.modRing p r f).part q) = g (s.part q) :=
  State.view_modPart (fun pt => h pt _) s p q

theorem State.retryWhere_of_none {f : Packet → Bool} (h : ∀ x ∈ (s.part p).packets, f x = false) : s.retryWhere p f = s := by
  unfold State.retryWhere
  rw [show (s.part p).packets.filter f = [] from List.filter_eq_nil_iff.mpr fun x hx => by rw [h x hx]; decide]
  rfl

/-! Step 1 of R40, where nothing is left to make visible or to give back. -/

/-- A packet with no results that its completion makes visible. -/
structure Packet.Plain (k : Packet) : Prop where
  late : k.res.late = []
  watch : k.res.watch = []
  slots : k.res.slots = []
  effects : k.res.effects = []
  clipped : k.res.clipped = 0
  refs : k.refs = []
  pool : k.pool = []

/-- TERN_INVALID and the clip count with a packet's own added (R40). -/
def Part.tallied (k : Packet) (pt : Part) : Part :=
  { pt with ternInvalid := satAdd (2 ^ 64 - 1) pt.ternInvalid k.res.ternInvalid, clips := satAdd (2 ^ 64 - 1) pt.clips k.res.clipped }

/-- What a packet with nothing to make visible leaves of its partition when it gives back what it holds: its spill records go. -/
def Part.plainly (k : Packet) (pt : Part) : Part := ((pt.tallied k).dropSpills k).setPacket k

theorem State.makeVisible_plain (h : k.Plain) : s.makeVisible p k = (s.modPart p (Part.tallied k), k) := by
  unfold State.makeVisible
  simp only [h.late, h.watch, h.slots, h.effects, List.all_nil, List.foldl_nil, if_true, Bool.false_eq_true, if_false]
  refine congrArg₂ (fun a b => (a, b)) ?_ ?_
  · exact State.modPart_self rfl
  · simp only [h.clipped, if_true]
    rw [← h.watch, ← h.slots, ← h.late, ← h.effects, ← h.clipped]

theorem Part.leaveTurns_of_no_versions {pt : Part} (h : pt.versions = []) (ring idx : Nat) : pt.leaveTurns ring idx = pt := by
  rw [Part.leaveTurns, h]
  rfl

theorem Part.extentEnd_of_ne {pt : Part} (h : k.hdr.opcode ≠ 0x0802) : pt.extentEnd k = pt := by
  unfold Part.extentEnd
  split
  · exact if_neg h
  · rfl

theorem State.complete_plain (h : k.Plain) (hab : k.aborted = false) (hop : k.hdr.opcode ≠ 0x0802)
    (hv : (s.part p).versions = []) (hh : ((s.modPart p (Part.plainly k)).part p).halts k = false) :
    s.complete p k = (s.modPart p (Part.plainly k)).record p k := by
  have hk : { k with refs := [], pool := [] } = k := by rw [← h.pool, ← h.refs]
  have hrel : (s.modPart p (Part.tallied k)).release p k = s.modPart p (Part.plainly k) := by
    unfold State.release
    rw [State.modPart_modPart]
    refine State.modPart_congr ?_
    rw [h.refs, List.filter_nil, List.filter_nil, hk, Part.releaseRefs, List.foldl_nil,
      Part.leaveTurns_of_no_versions (pt := (s.part p).tallied k) hv, Part.extentEnd_of_ne hop]
    rfl
  have hvis : (if k.aborted = true then (s, k) else s.makeVisible p k) = (s.modPart p (Part.tallied k), k) := by
    rw [hab]
    exact State.makeVisible_plain h
  unfold State.complete
  simp only [hvis, hrel, h.refs, List.filter_nil, hk, hh, Bool.false_eq_true, if_false]

/-! Steps 2 and 3 of R40. -/

/-- What leaving leaves of a partition: the counter is raised where the packet signals, and the packet is gone. -/
def Part.left (signals : Bool) (k : Packet) (pt : Part) : Part :=
  { pt with
    counters := if signals then Tbl.set 0 pt.counters k.hdr.sigCtr (satAdd (2 ^ 64 - 1) (Tbl.get 0 pt.counters k.hdr.sigCtr) (clampNat 1 0xFFFFFFFF k.hdr.sigInc))
                else pt.counters,
    packets := pt.packets.filter fun x => !(x.ring == k.ring && x.idx == k.idx) }

theorem Part.left_counters {pt pt' : Part} (h : pt.counters = pt'.counters) (signals : Bool) (k : Packet) :
    (pt.left signals k).counters = (pt'.left signals k).counters := by
  unfold Part.left
  dsimp only
  rw [h]

theorem Part.left_counters_eq (pt : Part) (signals : Bool) (k : Packet) :
    (pt.left signals k).counters =
      if signals then Tbl.set 0 pt.counters k.hdr.sigCtr (min (2 ^ 64 - 1) (Tbl.get 0 pt.counters k.hdr.sigCtr + clampNat 1 0xFFFFFFFF k.hdr.sigInc))
      else pt.counters := by
  unfold Part.left satAdd
  dsimp only

theorem Part.plainly_counters (pt : Part) (k : Packet) : (pt.plainly k).counters = pt.counters := by
  unfold Part.plainly Part.setPacket Part.dropSpills Part.tallied
  dsimp only

theorem Part.plainly_ring (pt : Part) (k : Packet) (i : Nat) : (pt.plainly k).ring i = pt.ring i := by
  unfold Part.plainly Part.setPacket Part.dropSpills Part.tallied Part.ring
  dsimp only

theorem State.leave_eq (h : k.hdr.flag 5 = false) : s.leave p k = s.modPart p (Part.left (s.signals p k) k) := by
  unfold State.leave
  simp only [h, Bool.false_eq_true, if_false]
  cases s.signals p k
  · rfl
  · exact State.modPart_modPart _ _ _ _

theorem bounceCompletion_none (h : (s.part p).bounce = []) (ring addr : Nat) (record : List Byte) : s.bounceCompletion p ring addr record = s := by
  unfold State.bounceCompletion Part.queuesOf
  rw [h]
  rfl

/-- The module with a record at a packet's completion tail, before the tail advances. -/
def State.recorded (s : State) (p : Nat) (k : Packet) (b : Binding) : State :=
  let i := ((s.part p).ring k.ring).cqTail
  let a := b.cqBase + 32 * (i % 2 ^ b.cqLog2)
  if s.reachable a 32 then s.store ⟨a, k.record i b.cqLog2, false⟩ else s

theorem State.recorded_only (s : State) (p : Nat) (k : Packet) (b : Binding) : OnlyData s (s.recorded p k b) := by
  unfold State.recorded
  dsimp only
  split
  · exact State.store_only s _ rfl
  · rfl

theorem State.writeRecord_eq (b : Binding) (h : (s.part p).bounce = []) :
    s.writeRecord p k b = (s.recorded p k b).modRing p k.ring fun r => { r with cqTail := (((s.part p).ring k.ring).cqTail + 1) % 2 ^ 32 } := by
  unfold State.writeRecord
  refine bounceCompletion_none ?_ _ _ _
  have hb : ((s.recorded p k b).part p).bounce = [] :=
    (congrArg Part.bounce ((OnlyData.parts (s.recorded_only p k b)).part p)).trans h
  exact (State.view_modRing (g := Part.bounce) (fun _ _ => rfl) (s.recorded p k b) p p _ _).trans hb

/-- What an access to memory leaves of a partition's view that its log is no part of. -/
theorem view_of_onlyData {β : Type} {g : Part → β} (h : ∀ pt, g (Safety.sansLog pt) = g pt) {t : State} (hd : OnlyData s t) (q : Nat) :
    g (t.part q) = g (s.part q) := by
  rw [← h, ← h (s.part q), (OnlyData.parts hd).part]

theorem length_of_onlyData {t : State} (hd : OnlyData s t) : t.parts.length = s.parts.length := by
  have h := congrArg List.length (OnlyData.parts hd)
  rwa [List.length_map, List.length_map] at h

/-- The partition after its record is written: the completion tail has advanced. -/
theorem State.writeRecord_part {b : Binding} (hp : p < s.parts.length) (hbounce : (s.part p).bounce = [])
    (hb : ((s.part p).ring k.ring).binding = some b) :
    (s.writeRecord p k b).mem = (s.recorded p k b).mem ∧ (s.writeRecord p k b).parts.length = s.parts.length
      ∧ (s.writeRecord p k b).quartersPer = s.quartersPer
      ∧ (∀ j, ((s.writeRecord p k b).part p).ring j
          = if j = k.ring then { (s.part p).ring k.ring with cqTail := (((s.part p).ring k.ring).cqTail + 1) % 2 ^ 32 } else (s.part p).ring j)
      ∧ ((s.writeRecord p k b).part p).packets = (s.part p).packets ∧ ((s.writeRecord p k b).part p).counters = (s.part p).counters := by
  have hd := s.recorded_only p k b
  have hlen := length_of_onlyData hd
  have hq : (s.recorded p k b).quartersPer = s.quartersPer := by
    have h := congrArg State.quartersPer hd
    exact h
  have hring : ∀ j, ((s.recorded p k b).part p).ring j = (s.part p).ring j := fun j => view_of_onlyData (g := fun pt => pt.ring j) (fun _ => rfl) hd p
  rw [State.writeRecord_eq b hbounce]
  refine ⟨rfl, (State.modPart_parts_length _ _ _).trans hlen, hq, fun j => ?_,
    (State.view_modRing (g := Part.packets) (fun _ _ => rfl) _ p p _ _).trans (view_of_onlyData (g := Part.packets) (fun _ => rfl) hd p),
    (State.view_modRing (g := Part.counters) (fun _ _ => rfl) _ p p _ _).trans (view_of_onlyData (g := Part.counters) (fun _ => rfl) hd p)⟩
  rw [State.modRing, State.part_modPart_self _ (by rw [hlen]; exact hp), Part.ring_modRing, hring, hring]
  exact ne_unbound_of_binding (by rw [hring]; exact Option.isSome_iff_exists.mpr ⟨b, hb⟩)

theorem State.recorded_mem {b : Binding} {i : Nat} (hi : ((s.part p).ring k.ring).cqTail = i) (hfaults : s.faults = [])
    (hreach : s.reachable (b.cqBase + 32 * (i % 2 ^ b.cqLog2)) 32 = true) :
    (s.recorded p k b).mem = written s.mem [⟨b.cqBase + 32 * (i % 2 ^ b.cqLog2), k.record i b.cqLog2, false⟩] := by
  subst hi
  exact (congrArg State.mem (if_pos hreach)).trans (State.store_bytes hfaults _).1

/-- A ring's packet whose record is the only one that waits: the record is written and the packet leaves. -/
theorem State.flush_one {pkts : List Packet} {b : Binding} (hpk : (s.part p).packets = pkts ++ [{ k with phase := .recordHeld }])
    (hno : ∀ x ∈ pkts, x.phase ≠ .recordHeld) (hb : ((s.part p).ring k.ring).binding = some b) (hroom : ((s.part p).ring k.ring).cqRoom = true)
    (hleft : ∀ x ∈ (((s.writeRecord p k b).leave p k).part p).packets, x.phase ≠ .recordHeld) :
    s.flush p k.ring = (s.writeRecord p k b).leave p k := by
  have hfind : (s.part p).packets.find? (fun x => x.ring == k.ring && x.phase == .recordHeld) = some { k with phase := .recordHeld } := by
    rw [hpk, List.find?_append, List.find?_eq_none.mpr]
    · simp
    · intro x hx
      simp [hno x hx]
  unfold State.flush
  rw [show (s.part p).packets.length = pkts.length + 1 by rw [hpk]; simp, State.flushRing]
  simp only [hfind, hb, hroom, if_true]
  exact State.flushRing_none hleft

theorem Part.halts_of_binding {pt : Part} {b : Binding} (hb : (pt.ring k.ring).binding = some b) (h : (b.haltOnError && isError k.status) = false) :
    pt.halts k = false := by
  unfold Part.halts
  rw [hb]
  simp only [h, Bool.false_and]

theorem State.signals_eq {b : Binding} (hb : ((s.part p).ring k.ring).binding = some b) (h : (b.haltOnError && isError k.status) = false)
    (hab : k.aborted = false) : s.signals p k = (k.hdr.flag 3 && decide (k.hdr.sigCtr < 4096 * s.quartersPer)) := by
  rw [State.signals, Part.halts_of_binding hb h, hab, Bool.not_false, Bool.and_true, Bool.and_true]

/-- The partition after a packet has left it. -/
theorem State.leave_part {b : Binding} (hp : p < s.parts.length) (hflag : k.hdr.flag 5 = false) (hb : ((s.part p).ring k.ring).binding = some b)
    (h : (b.haltOnError && isError k.status) = false) (hab : k.aborted = false) :
    (s.leave p k).mem = s.mem ∧ (s.leave p k).part p = (s.part p).left (k.hdr.flag 3 && decide (k.hdr.sigCtr < 4096 * s.quartersPer)) k := by
  rw [State.leave_eq hflag, State.signals_eq hb h hab, State.part_modPart_self _ hp]
  exact ⟨rfl, rfl⟩

/-- The module in which a packet's record is the last that waits. -/
def State.holding (s : State) (p : Nat) (k : Packet) : State :=
  s.modPart p fun pt => { pt with packets := ((s.part p).packets.filter fun x => !(x.ring == k.ring && x.idx == k.idx)) ++ [{ k with phase := .recordHeld }] }

/-- The last two steps of R40 for a packet whose record is written as it ends: the record's bytes, the completion tail, and its leaving. -/
theorem State.record_now {b : Binding} (hp : p < s.parts.length) (hfaults : s.faults = []) (hbare : (k.hdr.flag 6 && !isError k.status) = false)
    (hflag : k.hdr.flag 5 = false) (hbounce : (s.part p).bounce = []) (hno : ∀ x ∈ (s.part p).packets, x.phase ≠ .recordHeld)
    (hb : ((s.part p).ring k.ring).binding = some b) (h : (b.haltOnError && isError k.status) = false) (hab : k.aborted = false)
    (hroom : ((s.part p).ring k.ring).cqRoom = true) :
    let i := ((s.part p).ring k.ring).cqTail
    let a := b.cqBase + 32 * (i % 2 ^ b.cqLog2)
    let t := s.record p k
    (s.reachable a 32 = true → t.mem = written s.mem [⟨a, k.record i b.cqLog2, false⟩])
      ∧ (∀ j, (t.part p).ring j = if j = k.ring then { (s.part p).ring k.ring with cqTail := (i + 1) % 2 ^ 32 } else (s.part p).ring j)
      ∧ (t.part p).packets = (s.part p).packets.filter (fun x => !(x.ring == k.ring && x.idx == k.idx))
      ∧ (t.part p).counters = ((s.part p).left (k.hdr.flag 3 && decide (k.hdr.sigCtr < 4096 * s.quartersPer)) k).counters := by
  intro i a t
  generalize hothers : (s.part p).packets.filter (fun x => !(x.ring == k.ring && x.idx == k.idx)) = others
  have hmem : ∀ x ∈ others, x.phase ≠ .recordHeld ∧ (!(x.ring == k.ring && x.idx == k.idx)) = true := by
    rw [← hothers]
    exact fun x hx => ⟨hno x (List.mem_filter.mp hx).1, (List.mem_filter.mp hx).2⟩
  have hV : (s.holding p k).part p = { s.part p with packets := others ++ [{ k with phase := .recordHeld }] } := by
    rw [← hothers]
    exact State.part_modPart_self s hp
  have hVlen : p < (s.holding p k).parts.length := by rw [State.holding, State.modPart_parts_length]; exact hp
  have hVb : (((s.holding p k).part p).ring k.ring).binding = some b := by rw [hV]; exact hb
  have hVbounce : ((s.holding p k).part p).bounce = [] := by rw [hV]; exact hbounce
  obtain ⟨hWmem, hWlen, hWq, hWring, hWpk, hWc⟩ := State.writeRecord_part (k := k) hVlen hVbounce hVb
  have hWb : ((((s.holding p k).writeRecord p k b).part p).ring k.ring).binding = some b := by rw [hWring, if_pos rfl]; exact hVb
  obtain ⟨htmem, htpart⟩ := State.leave_part (by rw [hWlen]; exact hVlen) hflag hWb h hab
  have hpk : (((s.holding p k).writeRecord p k b).leave p k |>.part p).packets = others := by
    rw [htpart, Part.left, hWpk, hV, List.filter_append, List.filter_eq_self.mpr fun x hx => (hmem x hx).2]
    simp
  have hrecord : s.record p k = (s.holding p k).flush p k.ring := if_neg (by rw [hbare]; decide)
  have hroomV : (((s.holding p k).part p).ring k.ring).cqRoom = true := by rw [hV]; exact hroom
  have htail : (((s.holding p k).part p).ring k.ring).cqTail = i := by rw [hV]; rfl
  have hflush := State.flush_one (congrArg Part.packets hV) (fun x hx => (hmem x hx).1) hVb hroomV (by rw [hpk]; exact fun x hx => (hmem x hx).1)
  have ht : t = ((s.holding p k).writeRecord p k b).leave p k := hrecord.trans hflush
  rw [ht]
  refine ⟨fun hreach => ?_, fun j => ?_, hpk, ?_⟩
  · rw [htmem, hWmem]
    exact State.recorded_mem htail hfaults (((Same.modPart s p _).reachable a 32).trans hreach)
  · rw [htpart]
    exact (hWring j).trans (by rw [hV]; rfl)
  · have hc : (((s.holding p k).writeRecord p k b).part p).counters = (s.part p).counters := hWc.trans (by rw [hV])
    rw [htpart, hWq]
    exact Part.left_counters hc _ k

theorem Part.filter_setPacket (pt : Part) (k : Packet) :
    (pt.setPacket k).packets.filter (fun x => !(x.ring == k.ring && x.idx == k.idx)) = pt.packets.filter fun x => !(x.ring == k.ring && x.idx == k.idx) := by
  unfold Part.setPacket
  dsimp only
  induction pt.packets with
  | nil => rfl
  | cons x l ih =>
    rw [List.map_cons]
    by_cases hx : (x.ring == k.ring && x.idx == k.idx) = true
    · rw [if_pos hx, List.filter_cons_of_neg, List.filter_cons_of_neg, ih]
      · rw [hx]; decide
      · simp
    · rw [if_neg hx, List.filter_cons_of_pos, List.filter_cons_of_pos, ih] <;> rw [eq_false_of_ne_true hx] <;> rfl

theorem Part.mem_setPacket {pt : Part} {x : Packet} (h : x ∈ (pt.setPacket k).packets) : x = k ∨ x ∈ pt.packets := by
  obtain ⟨y, hy, rfl⟩ := List.mem_map.mp h
  split
  · exact Or.inl rfl
  · exact Or.inr hy

/-- The two ways in which a plain packet ends: with no record, or with one. -/
theorem State.record_plain {b : Binding} (hp : p < s.parts.length) (hfaults : s.faults = [])
    (hflag : k.hdr.flag 5 = false) (hbounce : (s.part p).bounce = []) (hno : ∀ x ∈ (s.part p).packets, x.phase ≠ .recordHeld)
    (hb : ((s.part p).ring k.ring).binding = some b) (h : (b.haltOnError && isError k.status) = false) (hab : k.aborted = false)
    (hroom : ((s.part p).ring k.ring).cqRoom = true) :
    let i := ((s.part p).ring k.ring).cqTail
    let a := b.cqBase + 32 * (i % 2 ^ b.cqLog2)
    let bare := k.hdr.flag 6 && !isError k.status
    let t := s.record p k
    (s.reachable a 32 = true → t.mem = if bare then s.mem else written s.mem [⟨a, k.record i b.cqLog2, false⟩])
      ∧ (t.part p).ring k.ring = (if bare then (s.part p).ring k.ring else { (s.part p).ring k.ring with cqTail := (i + 1) % 2 ^ 32 })
      ∧ (∀ j, j ≠ k.ring → (t.part p).ring j = (s.part p).ring j)
      ∧ (t.part p).packets = (s.part p).packets.filter (fun x => !(x.ring == k.ring && x.idx == k.idx))
      ∧ (t.part p).counters = ((s.part p).left (k.hdr.flag 3 && decide (k.hdr.sigCtr < 4096 * s.quartersPer)) k).counters := by
  intro i a bare t
  cases hbare : bare with
  | true =>
    obtain ⟨hmem, hpart⟩ := State.leave_part hp hflag hb h hab
    have ht : t = s.leave p k := if_pos hbare
    rw [ht, hpart, hmem]
    exact ⟨fun _ => rfl, rfl, fun _ _ => rfl, rfl, rfl⟩
  | false =>
    obtain ⟨hmem, hring, hpk, hc⟩ := State.record_now hp hfaults hbare hflag hbounce hno hb h hab hroom
    exact ⟨hmem, (hring k.ring).trans (if_pos rfl), fun j hj => (hring j).trans (if_neg hj), hpk, hc⟩

/-- Settles O24: a plain packet's completion is its record, where it has one, and its leaving. -/
theorem packetCompletes : Obligations.PacketCompletes := by
  intro p s k b hk hph hab hfatal hfaults hparts hrefs hpool hop hflag hlate hwatch hslots heff htern hclip pt r hver hbounce hothers hb hhalt hroom a bare
  obtain ⟨hkr, hki⟩ := State.packet_keys hk
  have hp := State.part_lt hk
  have hmem : k ∈ pt.packets := List.mem_of_find?_eq_some hk
  have hU : (s.modPart p.part (Part.plainly k)).part p.part = pt.plainly k := State.part_modPart_self s hp
  have hpk : ((pt.plainly k).packets.filter fun x => !(x.ring == k.ring && x.idx == k.idx)) = pt.packets.filter fun x => !(x.ring == p.ring && x.idx == p.idx) := by
    rw [← hkr, ← hki]
    exact Part.filter_setPacket _ k
  have hin : ∀ x ∈ (pt.plainly k).packets, x.heldOther = false ∧ x.phase ≠ .recordHeld := by
    intro x hx
    rcases Part.mem_setPacket hx with rfl | hx
    · exact hothers _ hmem
    · exact hothers x hx
  have hbU : ((pt.plainly k).ring k.ring).binding = some b := by rw [Part.plainly_ring, hkr]; exact hb
  have hroomU : ((pt.plainly k).ring k.ring).cqRoom = true := by
    rw [Ring.cqRoom, hbU, Part.plainly_ring, hkr]
    exact decide_eq_true hroom
  have hcomplete := State.complete_plain (s := s) (p := p.part) ⟨hlate, hwatch, hslots, heff, hclip, hrefs, hpool⟩ hab hop hver
    (by rw [hU]; exact Part.halts_of_binding hbU hhalt)
  obtain ⟨htmem, htring, htrings, htpk, htc⟩ := State.record_plain (s := s.modPart p.part (Part.plainly k)) (k := k) (b := b)
    (by rw [State.modPart_parts_length]; exact hp) hfaults hflag (by rw [hU]; exact hbounce) (by rw [hU]; exact fun x hx => (hin x hx).2)
    (by rw [hU]; exact hbU) hhalt hab (by rw [hU]; exact hroomU)
  rw [← hcomplete, hU] at htmem htring htrings htpk htc
  have hexec : exec (.packetComplete p) s = .next (s.complete p.part k) := by
    have hretry := State.retryWhere_of_none (s := s.complete p.part k) (p := p.part) (f := Packet.heldOther) (by
      rw [htpk]
      exact fun x hx => (hin x (List.mem_filter.mp hx).1).1)
    have hrun : exec (.packetComplete p) s = .next ((s.complete p.part k).retryWhere p.part Packet.heldOther) := by
      simp only [exec, execPacketComplete, hk, hph, hfatal, and_self, if_true]
    rw [hrun, hretry]
  simp only [Part.plainly_ring, hkr] at htmem htring htrings
  exact ⟨_, hexec, fun hreach => htmem (((Same.modPart s p.part _).reachable _ _).trans hreach), htring, htrings, htpk.trans hpk,
    (htc.trans (Part.left_counters (pt.plainly_counters k) _ k)).trans (pt.left_counters_eq _ k)⟩

end Sys2Proof.Machine
end

section
/-! PROOF. Packets that are held or wait for pool space: admission afresh, and the reservation tried again (R34, R35, R254, R255). -/

namespace Sys2Proof.Machine

open Safety (OnlyData)

/-! The packets of a partition, by their rings and indexes. -/

/-- Where a partition's packets stand. -/
def Part.keys (pt : Part) : List (Nat × Nat) := pt.packets.map fun k => (k.ring, k.idx)

theorem Part.mem_keys_iff {pt : Part} {ring idx : Nat} : (ring, idx) ∈ pt.keys ↔ ∃ k, pt.packet ring idx = some k := by
  rw [← Option.isSome_iff_exists, Part.packet, List.find?_isSome, Part.keys, List.mem_map]
  refine exists_congr fun k => and_congr_right fun _ => ?_
  rw [Bool.and_eq_true, beq_iff_eq, beq_iff_eq]
  exact ⟨fun h => ⟨congrArg (·.1) h, congrArg (·.2) h⟩, fun h => congrArg₂ (fun a b => (a, b)) h.1 h.2⟩

/-- The packets stand where they stood. -/
def SameKeys (s t : State) : Prop := ∀ q, (t.part q).keys = (s.part q).keys

theorem SameKeys.refl (s : State) : SameKeys s s := fun _ => rfl

theorem SameKeys.trans {s t u : State} (h : SameKeys s t) (g : SameKeys t u) : SameKeys s u := fun q => (g q).trans (h q)

theorem SameKeys.packet {s t : State} (h : SameKeys s t) {r : PacketRef} {k : Packet} (hk : s.packet r = some k) : ∃ k', t.packet r = some k' :=
  Part.mem_keys_iff.mp (h r.part ▸ Part.mem_keys_iff.mpr ⟨k, hk⟩)

theorem SameKeys.modPart {s0 s : State} (h : SameKeys s0 s) {p : Nat} {f : Part → Part} (hf : ∀ pt, (f pt).keys = pt.keys := by exact fun _ => rfl) :
    SameKeys s0 (s.modPart p f) := h.trans fun q => State.view_modPart hf s p q

theorem SameKeys.putPart {s0 s : State} (h : SameKeys s0 s) {p : Nat} {P : Part} (hk : P.keys = (s.part p).keys) : SameKeys s0 (s.modPart p fun _ => P) := by
  refine h.trans fun q => ?_
  by_cases hq : q = p
  · subst hq
    by_cases hp : q < s.parts.length
    · rw [State.part_modPart_self _ hp, hk]
    · rw [State.modPart, List.modify_eq_self (by omega)]
  · rw [State.part_modPart_ne _ hq]

theorem SameKeys.only {s0 s t : State} (h : SameKeys s0 s) (hd : OnlyData s t) : SameKeys s0 t := h.trans fun q => view_of_onlyData (fun _ => rfl) hd q

theorem SameKeys.foldl {α : Type} {f : State → α → State} {s0 s : State} (h : SameKeys s0 s) (hf : ∀ t x, SameKeys s0 t → SameKeys s0 (f t x)) (l : List α) :
    SameKeys s0 (l.foldl f s) := by
  induction l generalizing s with
  | nil => exact h
  | cons x l ih => exact ih (hf s x h)

theorem Part.keys_setPacket (pt : Part) (k : Packet) : (pt.setPacket k).keys = pt.keys := by
  unfold Part.keys Part.setPacket
  rw [List.map_map]
  refine List.map_congr_left fun x _ => ?_
  simp only [Function.comp_apply]
  split
  · next h =>
    simp only [Bool.and_eq_true, beq_iff_eq] at h
    rw [h.1, h.2]
  · rfl

/-! What a snapshot takes (R202, R331, R346, R396). -/

theorem takeRef_keys (cls : StreamClass) (ring idx ctx e : Nat) (pt : Part) : (takeRef cls ring idx ctx e pt).1.keys = pt.keys := by
  unfold takeRef
  dsimp only
  split
  · rfl
  · unfold Part.keys
    rw [List.map_map]
    refine List.map_congr_left fun x _ => ?_
    simp only [Function.comp_apply]
    split <;> rfl
  · rfl
  · rfl

theorem takeRefs_keys (cls : StreamClass) (ring idx ctx : Nat) (es : List Nat) (pt : Part) : (takeRefs cls ring idx ctx es pt).1.keys = pt.keys := by
  unfold takeRefs
  have hfold : ∀ acc : Part × List (Nat × Nat) × List VRef, (es.foldl (fun (acc : Part × List (Nat × Nat) × List VRef) e =>
      let (pt1, ver, r) := takeRef cls ring idx ctx e acc.1
      (pt1, acc.2.1 ++ [(e, ver)], acc.2.2 ++ [r])) acc).1.keys = acc.1.keys := by
    induction es with
    | nil => exact fun _ => rfl
    | cons e es ih => exact fun acc => (ih _).trans (takeRef_keys cls ring idx ctx e acc.1)
  exact hfold _

section
variable {s0 s : State} (h : SameKeys s0 s)
include h

theorem SameKeys.lateness (p ep us : Nat) : SameKeys s0 (s.lateness p ep us) := by
  have h1 := (h.modPart (p := p) (f := fun pt => { pt with lateHist := Tbl.set 0 pt.lateHist (lateBin us) (Tbl.get 0 pt.lateHist (lateBin us) + 1) }))
  unfold State.lateness
  dsimp only
  split
  · exact h1.modPart
  · exact h1.modPart.modPart.only (State.log_only _ _ _ rfl)

theorem SameKeys.takeEarly (p : Nat) (c : Ctx) (r : Remote) : SameKeys s0 (s.takeEarly p c r).1 := by
  unfold State.takeEarly
  exact SameKeys.foldl h.modPart (fun t e ht => ht.lateness p e.srcEp 0) _

theorem SameKeys.takeLayerCounts (p layer : Nat) : SameKeys s0 (s.takeLayerCounts p layer).1 := by
  unfold State.takeLayerCounts
  dsimp only
  split
  · exact h
  · split
    · exact h.modPart
    · exact h
  · exact h

theorem SameKeys.snapAdmit (c : Ctx) : SameKeys s0 (c.snapAdmit s).1 := by
  unfold Ctx.snapAdmit
  split
  · exact h.modPart
  · split
    · exact h.modPart
    · exact h

end

/-! Where a packet stands after its validation (R127, R206, R254, R255). -/

/-- The phases of a packet past its pool reservation. -/
def Phase.placed (ph : Phase) : Prop := ph = .ready ∨ ph = .turnWait ∨ ph = .refWait

theorem turnPhase_placed (opcode : Nat) (v : VersionEntry) : (turnPhase opcode v).placed := by
  unfold turnPhase
  split <;> split
  · exact Or.inl rfl
  · exact Or.inr (Or.inr rfl)
  · exact Or.inl rfl
  · exact Or.inr (Or.inr rfl)

/-- A packet that keeps its header, class, snapshot and pool space. -/
structure Packet.Goes (k k' : Packet) : Prop where
  ring : k'.ring = k.ring
  idx : k'.idx = k.idx
  hdr : k'.hdr = k.hdr
  cls : k'.cls = k.cls
  snap : k'.snap = k.snap
  pool : k'.pool = k.pool

/-- A packet found at its place after it is replaced by one that keeps its header, class, snapshot and pool space. -/
theorem State.setPacket_goes {s : State} {p : Nat} {k k' x : Packet} (hx : s.packet (k.ref p) = some x) (hk : k.Goes k') :
    (s.setPacket p k').packet (k.ref p) = some k' := State.packet_setPacket hx hk.ring hk.idx

section
variable {s : State} {p : Nat} {k x : Packet} {op : OpSpec} {c : Ctx} (hx : s.packet (k.ref p) = some x)
include hx

/-- A packet with its pool space stands at its place. -/
theorem State.place_packet : ∃ k', (s.place p k op c).packet (k.ref p) = some k' ∧ k.Goes k' ∧ k'.phase.placed := by
  have hgo : ∀ ph w, k.Goes { k with phase := ph, work := w } := fun _ _ => ⟨rfl, rfl, rfl, rfl, rfl, rfl⟩
  have hset : ∀ {t : State}, SameKeys s t → ∀ ph w, ph.placed → ∃ k', (t.setPacket p { k with phase := ph, work := w }).packet (k.ref p) = some k'
      ∧ k.Goes k' ∧ k'.phase.placed := by
    intro t ht ph w hph
    obtain ⟨y, hy⟩ := ht.packet hx
    exact ⟨_, State.setPacket_goes hy (hgo ph w), hgo ph w, hph⟩
  have hs := SameKeys.refl s
  unfold State.place
  split
  · dsimp only
    split
    · exact hset hs.modPart _ _ (turnPhase_placed _ _)
    · exact hset hs.modPart _ k.work (Or.inr (Or.inl rfl))
  · split
    · exact hset hs _ k.work (Or.inr (Or.inr rfl))
    · split
      · dsimp only
        split
        · exact hset hs _ _ (Or.inl rfl)
        · exact hset hs _ _ (Or.inr (Or.inr rfl))
      · obtain ⟨k', hk', h⟩ := hset hs .ready k.work (Or.inl rfl)
        refine ⟨k', ?_, h⟩
        have hparts := State.wakeBenches_parts (s.setPacket p { k with phase := .ready }) c.snap.leaves
        rw [State.packet, State.part, hparts]
        exact hk'

end

theorem State.view_setPacket {β : Type} {g : Part → β} (h : ∀ pt ks, g { pt with packets := ks } = g pt) (s : State) (p q : Nat) (k : Packet) :
    g ((s.setPacket p k).part q) = g (s.part q) := State.view_modPart (fun pt => h pt _) s p q

/-- A view of a partition that neither its packets nor its entries touch. -/
theorem State.place_view {β : Type} {g : Part → β} (hk : ∀ pt ks, g { pt with packets := ks } = g pt) (hv : ∀ pt vs, g { pt with versions := vs } = g pt)
    (s : State) (p q : Nat) (k : Packet) (op : OpSpec) (c : Ctx) : g ((s.place p k op c).part q) = g (s.part q) := by
  unfold State.place
  split
  · exact (State.view_setPacket hk _ p q _).trans (State.view_modPart (fun pt => hv pt _) s p q)
  · split
    · exact State.view_setPacket hk s p q _
    · split
      · exact State.view_setPacket hk s p q _
      · rw [State.part, State.wakeBenches_parts]
        exact State.view_setPacket hk s p q _

theorem opSpec_code {code : Nat} {op : OpSpec} (h : opSpec code = some op) : op.code = code := by
  have := List.find?_some h
  exact beq_iff_eq.mp this

/-- A packet that waits for pool space alone among its partition's packets: its reservation is all that POOL_RETRY tries. -/
theorem execPoolRetry_of_one {s : State} {part : Nat} {k : Packet} {op : OpSpec} {c : Ctx} (hpart : s.isPart part = true) (hfatal : s.fatal = false)
    (hone : ((s.part part).packets.filter fun k => k.phase == .poolWait || k.heldOther) = [k]) (hph : k.phase = .poolWait)
    (hk : s.packet (k.ref part) = some k) (hop : opSpec k.hdr.opcode = some op) (hc : s.ctx part k = some c) :
    exec (.poolRetry part) s = .next (s.reservePools part k op c false) := by
  have hretry : s.retry part k = s.reservePools part k op c false := by
    unfold State.retry
    rw [hph, hop, hc]
  simp only [exec, execPoolRetry, hpart, hfatal, Bool.not_false, Bool.and_self, if_true, State.retryWhere, hone]
  simp only [sortBy, insertBy, List.foldl_cons, List.foldl_nil, hk, hretry]

/-- Settles O28: the reservation is tried again by State.reservePools; its outcome is that of State.placesFor. -/
theorem poolWaitEnds : Obligations.PoolWaitEnds := by
  intro part s hpart hfatal waiting
  constructor
  · intro hnone
    simp only [exec, execPoolRetry, hpart, hfatal, Bool.not_false, Bool.and_self, if_true]
    rw [State.retryWhere_of_none]
    intro x hx
    exact eq_false_of_ne_true (List.filter_eq_nil_iff.mp hnone x hx)
  · intro k op c hone hph hk hop hc hres bufs hbufs room
    have hp : part < s.parts.length := State.part_lt hk
    have hexec := execPoolRetry_of_one hpart hfatal hone hph hk hop hc
    have hempty : bufs.isEmpty = false := List.isEmpty_eq_false_iff.mpr hbufs
    have hroom : s.placesFor part op.code bufs = room := by rw [opSpec_code hop]
    refine ⟨fun hno => ?_, fun places hsome => ?_⟩
    · rw [hexec, State.reservePools]
      simp only [show (op.buffers c).filter (fun b => decide (0 < b.bytes)) = bufs from rfl, hempty, hres, hroom, hno, Bool.false_eq_true, if_false]
      rw [State.modPart_self rfl]
    · have hreserve : ∃ sp rem, s.reservePools part k op c false
          = (s.modPart part fun pt => { pt with spillHbm := satAdd (2 ^ 64 - 1) pt.spillHbm (places.filter fun x => x.1 = .hbm).length,
                                                spillSump := satAdd (2 ^ 64 - 1) pt.spillSump sp }).place part { k with pool := places, remote := rem } op c := by
        rw [State.reservePools]
        simp only [show (op.buffers c).filter (fun b => decide (0 < b.bytes)) = bufs from rfl, hempty, hres, hroom, hsome, Bool.false_eq_true, if_false]
        exact ⟨_, _, rfl⟩
      obtain ⟨sp, rem, hreserve⟩ := hreserve
      obtain ⟨y, hy⟩ := ((SameKeys.refl s).modPart (p := part) (f := fun pt : Part =>
        { pt with spillHbm := satAdd (2 ^ 64 - 1) pt.spillHbm (places.filter fun x => x.1 = .hbm).length,
                  spillSump := satAdd (2 ^ 64 - 1) pt.spillSump sp })).packet hk
      obtain ⟨k', hk', hgo, hplaced⟩ := State.place_packet (k := { k with pool := places, remote := rem }) (op := op) (c := c) hy
      refine ⟨_, hexec.trans (congrArg _ hreserve), ?_, ?_, k', hk', hgo.pool, hgo.hdr, ?_⟩
      · rw [State.place_view (g := Part.spillHbm) (fun _ _ => rfl) (fun _ _ => rfl), State.part_modPart_self _ hp]
      · rw [State.place_view (g := Part.poolWaits) (fun _ _ => rfl) (fun _ _ => rfl), State.part_modPart_self _ hp]
      · rcases hplaced with h | h | h <;> rw [h] <;> simp

/-! Admission (R34, R35). -/

/-- The phases of a packet past its snapshot whose work has not begun. -/
def Phase.admitted (ph : Phase) : Prop :=
  ph = .finished ∨ ph = .ready ∨ ph = .turnWait ∨ ph = .refWait ∨ ph = .poolWait ∨ ph = .held .poolResize

theorem Phase.placed.admitted {ph : Phase} (h : ph.placed) : ph.admitted := by
  rcases h with h | h | h
  · exact Or.inr (Or.inl h)
  · exact Or.inr (Or.inr (Or.inl h))
  · exact Or.inr (Or.inr (Or.inr (Or.inl h)))

/-- A packet that stands at k's place, with k's header and class, past its snapshot. -/
def Admitted (s : State) (p : Nat) (k : Packet) : Prop :=
  ∃ k', s.packet (k.ref p) = some k' ∧ k'.hdr = k.hdr ∧ k'.cls = k.cls ∧ k'.snap.isSome = true ∧ k'.phase.admitted

theorem admitted_ite {b : Prop} [Decidable b] {s t : State} {p : Nat} {k : Packet} (hs : Admitted s p k) (ht : Admitted t p k) :
    Admitted (if b then s else t) p k := by
  split
  · exact hs
  · exact ht

theorem admitted_ended {s : State} {p : Nat} {k : Packet} (hx : ∃ x, s.packet (k.ref p) = some x) (sn : Snap) (codes clamps : List Nat) (field count0 : Nat) :
    Admitted (s.setPacket p (k.ended sn codes clamps field count0)) p k :=
  hx.elim fun _ hx => ⟨_, State.packet_setPacket hx rfl rfl, rfl, rfl, rfl, Or.inl rfl⟩

/-- The pool reservation leaves the packet at its place, or waiting. -/
theorem State.reservePools_admitted {s : State} {p : Nat} {k x : Packet} (hx : s.packet (k.ref p) = some x) (hsn : k.snap.isSome = true)
    (op : OpSpec) (c : Ctx) (first : Bool) : Admitted (s.reservePools p k op c first) p k := by
  have hplace : ∀ {t : State} (k1 : Packet), SameKeys s t → k1.ring = k.ring → k1.idx = k.idx → k1.hdr = k.hdr → k1.cls = k.cls →
      k1.snap = k.snap → Admitted (t.place p k1 op c) p k := by
    intro t k1 ht hr hi hh hc hs
    obtain ⟨y, hy⟩ := ht.packet hx
    have href : k1.ref p = k.ref p := by unfold Packet.ref; rw [hr, hi]
    obtain ⟨k', hk', hgo, hph⟩ := State.place_packet (k := k1) (op := op) (c := c) (href ▸ hy)
    exact ⟨k', href ▸ hk', hgo.hdr.trans hh, hgo.cls.trans hc, by rw [hgo.snap, hs]; exact hsn, hph.admitted⟩
  unfold State.reservePools
  dsimp only
  split
  · exact hplace k (SameKeys.refl s) rfl rfl rfl rfl rfl
  · split
    · refine ⟨_, State.packet_setPacket hx rfl rfl, rfl, rfl, hsn, ?_⟩
      cases first
      · exact Or.inr (Or.inr (Or.inr (Or.inr (Or.inl rfl))))
      · exact Or.inr (Or.inr (Or.inr (Or.inr (Or.inr rfl))))
    · split
      · refine ⟨{ k with phase := .poolWait }, ?_, rfl, rfl, hsn, Or.inr (Or.inr (Or.inr (Or.inr (Or.inl rfl))))⟩
        have hset : (s.setPacket p { k with phase := .poolWait }).packet (k.ref p) = some { k with phase := .poolWait } :=
          State.packet_setPacket hx rfl rfl
        exact (State.view_modPart (g := fun pt => pt.packet k.ring k.idx) (fun pt => by split <;> rfl) _ p p).trans hset
      · exact hplace _ (SameKeys.refl s).modPart rfl rfl rfl rfl rfl

/-- A packet past validation takes what its snapshot gives it, and its pool space. -/
theorem State.begins_admitted {s : State} {p : Nat} {k : Packet} (hx : ∃ x, s.packet (k.ref p) = some x) (op : OpSpec) (c : Ctx) :
    Admitted (s.begins p k op c) p k := by
  obtain ⟨x, hx⟩ := hx
  unfold State.begins
  have hpt := takeRefs_keys k.cls k.ring k.idx k.hdr.ctx (c.readEntries op) (s.part p)
  generalize takeRefs k.cls k.ring k.idx k.hdr.ctx (c.readEntries op) (s.part p) = tr at hpt ⊢
  obtain ⟨pt1, vers, refs⟩ := tr
  have h1 := (SameKeys.refl s).putPart hpt
  dsimp only at h1 ⊢
  generalize s.modPart p (fun _ => pt1) = s1 at h1 ⊢
  have hend : ∀ {s2 : State} (c1 c2 : Ctx) (k1 : Packet), SameKeys s s2 → k1.ring = k.ring → k1.idx = k.idx → k1.hdr = k.hdr → k1.cls = k.cls →
      k1.snap.isSome = true → Admitted (((c1.snapAdmit s2).1.setPacket p k1).reservePools p k1 op c2 true) p k := by
    intro s2 c1 c2 k1 h2 hr hi hh hc hs
    have href : k1.ref p = k.ref p := by unfold Packet.ref; rw [hr, hi]
    obtain ⟨y, hy⟩ := (h2.snapAdmit c1).packet hx
    have hset := State.packet_setPacket hy hr hi
    obtain ⟨k', hk', hhdr, hcls, hsn, hph⟩ := State.reservePools_admitted (k := k1) (href ▸ hset) hs op c2 true
    exact ⟨k', href ▸ hk', hhdr.trans hh, hcls.trans hc, hsn, hph⟩
  split
  next r _ =>
    split
    · exact hend _ _ _ ((h1.takeEarly p c r).takeLayerCounts p c.rsLayer) rfl rfl rfl rfl rfl
    · exact hend _ _ _ (h1.takeEarly p c r) rfl rfl rfl rfl rfl
  · exact hend _ _ _ h1 rfl rfl rfl rfl rfl

theorem State.snapshotReads_only (s : State) (ring status : Nat) (reads : List (Nat × Nat)) : OnlyData s (s.snapshotReads ring status reads) :=
  only_foldl (fun t r ht => State.readEffects_only t r.1 r.2 status ring ht) rfl reads

/-- A packet that nothing holds takes its snapshot. -/
theorem State.takeUp_admitted {s : State} {p : Nat} {k x : Packet} (hx : s.packet (k.ref p) = some x) {op : OpSpec} (hop : opSpec k.hdr.opcode = some op)
    (hnone : (⟨s, p, k, (s.gather p k op).1⟩ : Ctx).holdOf op ((⟨s, p, k, (s.gather p k op).1⟩ : Ctx).allFails op k.cls).isEmpty = none) :
    Admitted (s.takeUp p k) p k := by
  unfold State.takeUp
  rw [hop]
  dsimp only
  generalize s.gather p k op = g at hnone ⊢
  obtain ⟨sn, reads⟩ := g
  have hreads : ∀ status, ∃ y, (s.snapshotReads k.ring status reads).packet (k.ref p) = some y := fun status =>
    ((SameKeys.refl s).only (s.snapshotReads_only _ status _)).packet hx
  have hrefused : ∀ (b : Prop) [Decidable b] (status a : Nat), ∃ y,
      (if b then (s.snapshotReads k.ring status reads).remapRefused a k.ring else s.snapshotReads k.ring status reads).packet (k.ref p) = some y := by
    intro b _ status a
    split
    · exact ((SameKeys.refl s).only (State.memEvent_only _ _ _ _ _ _ (s.snapshotReads_only k.ring status reads))).packet hx
    · exact hreads status
  dsimp only at hnone ⊢
  rw [hnone]
  generalize firstFail _ = ff
  cases ff with
  | none =>
    dsimp only
    exact admitted_ite (State.begins_admitted (hreads _) op _) (admitted_ended (hreads _) _ _ _ _ _)
  | some f =>
    dsimp only
    exact admitted_ended (hrefused _ _ _) _ _ _ _ _

/-- Each of the commands tries a packet again that is held for a reason of its kind; none of them is the end of a pool's resize. -/
theorem holdRows_retry (p : PacketRef) (s : State) :
    ∀ row ∈ Claims.holdRows p, exec row.1 s = .next (retryHeld row.2 p s) ∧ row.2 .poolResize = false := by
  unfold Claims.holdRows
  iterate 7 rw [List.forall_mem_cons]
  exact ⟨⟨rfl, rfl⟩, ⟨rfl, rfl⟩, ⟨rfl, rfl⟩, ⟨rfl, rfl⟩, ⟨rfl, rfl⟩, ⟨rfl, rfl⟩, ⟨rfl, rfl⟩, fun _ h => absurd h List.not_mem_nil⟩

theorem State.retry_of_held {s : State} {p : Nat} {k : Packet} {h : Hold} (hph : k.phase = .held h) (hne : h ≠ .poolResize) :
    s.retry p k = s.takeUp p { k with snap := none } := by
  unfold State.retry
  rw [hph]
  cases h with
  | poolResize => exact absurd rfl hne
  | _ => rfl

/-- Settles O27: the packet is admitted afresh by State.takeUp; a packet that is not held is left alone. -/
theorem holdsEnd : Obligations.HoldsEnd := by
  intro p row hrow s k hk hfatal
  obtain ⟨hexec, hresize⟩ := holdRows_retry p s row hrow
  refine ⟨fun h hph hwhy => ?_, fun hno => ?_⟩
  · have hne : h ≠ .poolResize := by
      rintro rfl
      rw [hresize] at hwhy
      contradiction
    refine ⟨s.takeUp p.part { k with snap := none }, ?_, ?_⟩
    · rw [hexec, retryHeld, hk]
      simp only [hph, hwhy, hfatal, Bool.not_false, Bool.and_self, if_true, State.retry_of_held hph hne]
    · intro op hop k0 sn c hold
      have href : k0.ref p.part = p := by
        obtain ⟨hr, hi⟩ := State.packet_keys hk
        unfold Packet.ref
        rw [show k0.ring = p.ring from hr, show k0.idx = p.idx from hi]
      refine ⟨fun h' hh' => ?_, fun hnone => ?_⟩
      · unfold State.takeUp
        rw [show opSpec ({ k with snap := none } : Packet).hdr.opcode = some op from hop]
        dsimp only
        rw [show (⟨s, p.part, { k with snap := none }, (s.gather p.part { k with snap := none } op).1⟩ : Ctx).holdOf op _ = some h' from hh']
      · obtain ⟨k', hk', hhdr, hcls, hsn, hph'⟩ := State.takeUp_admitted (k := k0) (href.symm ▸ hk) hop hnone
        exact ⟨k', href ▸ hk', hhdr, hcls, hsn, hph'⟩
  · rw [hexec, retryHeld, hk]
    dsimp only
    split
    · next h hph => exact absurd hph (hno h)
    · rfl

end Sys2Proof.Machine
end

section
/-! PROOF. One cycle of MCLK with no command: what moves on the fabric, what ports tell, and the slow copies (R304, R308, R385, R387). -/

namespace Sys2Proof.Machine

/-! The fabric's own moves. -/

/-- The fabric and what leaves the module alone differ. -/
def OnlyFabric (s t : State) : Prop := ∃ f o, t = { s with fabric := f, out := s.out ++ o }

theorem OnlyFabric.refl (s : State) : OnlyFabric s s := ⟨s.fabric, [], by rw [List.append_nil]⟩

section
variable {s0 s : State} (h : OnlyFabric s0 s)
include h

theorem OnlyFabric.fabric (f : List FabLink) : OnlyFabric s0 { s with fabric := f } := by
  obtain ⟨_, o, rfl⟩ := h
  exact ⟨f, o, rfl⟩

theorem OnlyFabric.emit (o : Out) : OnlyFabric s0 (s.emit o) := by
  obtain ⟨f, os, rfl⟩ := h
  exact ⟨f, os ++ [o], by rw [State.emit, List.append_assoc]⟩

theorem OnlyFabric.foldl {α : Type} {f : State → α → State} (hf : ∀ t x, OnlyFabric s0 t → OnlyFabric s0 (f t x)) (l : List α) :
    OnlyFabric s0 (l.foldl f s) := by
  induction l generalizing s with
  | nil => exact h
  | cons x l ih => exact ih (hf s x h)

theorem OnlyFabric.ite {b : Prop} [Decidable b] {t : State} (ht : OnlyFabric s0 t) : OnlyFabric s0 (if b then t else s) := by
  split
  · exact ht
  · exact h

theorem OnlyFabric.setLink (x : FabLink) : OnlyFabric s0 (s.setLink x) := h.fabric _

theorem OnlyFabric.deliver (x : FabLink) (m : FabricMsg) : OnlyFabric s0 (s.deliver x m) := (h.setLink _).emit _

theorem OnlyFabric.moveOut (fuel : Nat) (l : FabricLink) (v : Nat) (out : FabricLink) : OnlyFabric s0 (State.moveOut fuel l v out s) := by
  induction fuel generalizing s with
  | zero => exact h
  | succ fuel ih =>
    rw [State.moveOut]
    split
    · exact h
    · split
      · exact ih ((h.setLink _).setLink _)
      · exact h

theorem OnlyFabric.grantOutput (half : Nat) (out : FabricLink) : OnlyFabric s0 (s.grantOutput half out) := by
  unfold State.grantOutput
  dsimp only
  split
  · exact h
  · split
    · exact (h.setLink _).moveOut _ _ _ _
    · exact h.setLink _

theorem OnlyFabric.grantMemory (l : FabricLink) (u : FabUnit) (ch : Nat) : OnlyFabric s0 (s.grantMemory l u ch) := by
  unfold State.grantMemory
  dsimp only
  split
  · exact h
  · split
    · exact h
    · split
      · exact h.deliver _ _
      · exact h.setLink _

theorem OnlyFabric.routerEdge (half : Nat) : OnlyFabric s0 (s.routerEdge half) := h.foldl (fun _ out ht => ht.grantOutput half out) _

theorem OnlyFabric.unitEdge (c : Nat) : OnlyFabric s0 (s.unitEdge c) := by
  refine h.foldl (fun t x ht => ?_) _
  dsimp only
  split
  · split
    · exact ht
    · split
      · exact ht
      · exact (ht.foldl (fun _ _ hu => hu.deliver _ _) _).foldl (fun _ _ hu => hu.grantMemory _ _ _) _
  · exact ht

theorem OnlyFabric.clockEdge (c : Nat) : OnlyFabric s0 (s.clockEdge c) := by
  unfold State.clockEdge
  dsimp only
  refine OnlyFabric.unitEdge ?_ c
  exact (h.fabric _).ite ((h.fabric _).routerEdge _)

theorem OnlyFabric.moveFlits : OnlyFabric s0 s.moveFlits := by
  unfold State.moveFlits
  split
  · exact h
  · exact h.foldl (fun _ _ ht => ht.foldl (fun _ _ hu => hu.ite (hu.clockEdge _)) _) _

end

theorem State.moveFlits_of_still {s : State} (h : ∀ x ∈ s.fabric, x.queued = [] ∧ x.held = [] ∧ x.back = []) : s.moveFlits = s := by
  unfold State.moveFlits
  rw [if_pos]
  rw [List.all_eq_true]
  intro x hx
  obtain ⟨hq, hh, hb⟩ := h x hx
  rw [FabLink.still, hq, hh, hb]
  rfl

/-! What the ports tell. -/

theorem tells_iff (p : Port) : (p.state == .up && (p.ackDue || p.creditOwed.isSome)) = true ↔ Claims.Tells p := by
  rw [Bool.and_eq_true, Bool.or_eq_true, beq_iff_eq]
  exact Iff.rfl


/-- A port after a cycle in which it may tell what it owes. -/
def Port.idled (p : Port) : Port := if p.state == .up && (p.ackDue || p.creditOwed.isSome) then p.told else p

theorem Port.idled_of_tells {p : Port} (h : Claims.Tells p) : p.idled = p.told := if_pos ((tells_iff p).mpr h)

theorem Port.idled_of_not_tells {p : Port} (h : ¬Claims.Tells p) : p.idled = p := if_neg fun e => h ((tells_iff p).mp e)

theorem State.idlePort_of_tells {s : State} {i : Nat} (h : Claims.Tells (s.port i)) :
    s.idlePort i = (s.modPort i Port.told).emit (.flit i ((s.port i).bareFlit 1)) := if_pos ((tells_iff _).mpr h)

theorem State.idlePort_of_not_tells {s : State} {i : Nat} (h : ¬Claims.Tells (s.port i)) : s.idlePort i = s :=
  if_neg fun e => h ((tells_iff _).mp e)

theorem State.modPort_ports_length (s : State) (i : Nat) (f : Port → Port) : (s.modPort i f).ports.length = s.ports.length := List.length_modify ..

theorem State.port_idlePort {s : State} {i : Nat} (hi : i < s.ports.length) (j : Nat) :
    (s.idlePort i).port j = if j = i then (s.port i).idled else s.port j := by
  by_cases h : Claims.Tells (s.port i)
  · rw [State.idlePort_of_tells h, Port.idled_of_tells h]
    split
    · next hj =>
      subst hj
      exact State.port_modPort hi
    · next hj => exact State.port_modPort_ne (Ne.symm hj)
  · rw [State.idlePort_of_not_tells h, Port.idled_of_not_tells h]
    split
    · next hj => rw [hj]
    · rfl

/-- The first n ports tell what they owe, one after the other. -/
theorem State.idlePorts_spec {s : State} {n : Nat} (hn : n ≤ s.ports.length) :
    let t := (List.range n).foldl State.idlePort s
    (∃ ps o, t = { s with ports := ps, out := s.out ++ o } ∧ ps.length = s.ports.length)
      ∧ (∀ j, t.port j = if j < n then (s.port j).idled else s.port j)
      ∧ (∀ i, i < n → Claims.Tells (s.port i) → Out.flit i ((s.port i).bareFlit 1) ∈ t.out)
      ∧ ((∀ i, i < n → ¬Claims.Tells (s.port i)) → t = s) := by
  induction n with
  | zero => exact ⟨⟨s.ports, [], by rw [List.append_nil]; rfl, rfl⟩, fun j => rfl, nofun, fun _ => rfl⟩
  | succ n ih =>
    obtain ⟨⟨ps, o, ht, hlen⟩, hport, hout, hnone⟩ := ih (by omega)
    rw [List.range_succ, List.foldl_append, List.foldl_cons, List.foldl_nil]
    generalize (List.range n).foldl State.idlePort s = t at ht hport hout hnone ⊢
    have hn' : n < t.ports.length := by rw [ht]; show n < ps.length; omega
    have hpn : t.port n = s.port n := by rw [hport, if_neg (Nat.lt_irrefl n)]
    refine ⟨?_, fun j => ?_, fun i hi htells => ?_, fun hno => ?_⟩
    · by_cases h : Claims.Tells (t.port n)
      · rw [State.idlePort_of_tells h]
        refine ⟨(t.modPort n Port.told).ports, o ++ [.flit n ((t.port n).bareFlit 1)], ?_, ?_⟩
        · subst ht
          rw [← List.append_assoc]
          rfl
        · rw [State.modPort_ports_length, ht]
          exact hlen
      · rw [State.idlePort_of_not_tells h]
        exact ⟨ps, o, ht, hlen⟩
    · rw [State.port_idlePort hn', hpn, hport]
      by_cases hj : j = n
      · rw [if_pos hj, if_pos (by omega), hj]
      · rw [if_neg hj]
        by_cases hjn : j < n
        · rw [if_pos hjn, if_pos (by omega)]
        · rw [if_neg hjn, if_neg (by omega)]
    · by_cases hin : i = n
      · subst hin
        rw [State.idlePort_of_tells (hpn ▸ htells), hpn]
        exact List.mem_append_right _ List.mem_cons_self
      · have hmem := hout i (by omega) htells
        by_cases h : Claims.Tells (t.port n)
        · rw [State.idlePort_of_tells h]
          exact List.mem_append_left _ hmem
        · rw [State.idlePort_of_not_tells h]
          exact hmem
    · rw [State.idlePort_of_not_tells (hpn ▸ hno n (by omega))]
      exact hnone fun i hi => hno i (by omega)

/-! The slow copies (R385, R387). -/

theorem State.port_refreshSlow {s : State} {i : Nat} (hi : i < s.ports.length) : s.refreshSlow.port i = (s.port i).refresh (s.linkWord i) := by
  have hz : ((List.range s.ports.length).zip s.ports)[i]? = some (i, s.ports[i]) := by
    rw [List.getElem?_zip_eq_some]
    exact ⟨List.getElem?_range hi, List.getElem?_eq_getElem hi⟩
  unfold State.refreshSlow State.port
  rw [List.getElem?_map, hz, List.getElem?_eq_getElem hi]
  rfl

/-- A flit as the statements write it (Table 13.1). -/
theorem flitSeal_eq (ftype seq ack : Nat) (ackValid : Bool) (vc : Nat) (credit : Option (Nat × Nat)) (payload : List Byte) :
    flitSeal (flitHead ftype seq ack ackValid vc credit ++ payload) = Claims.flit ftype (seq % 4096) (ack % 4096) ackValid vc credit payload := by
  unfold flitSeal flitHead Claims.flit
  rw [Nat.add_comm (seq % 4096), Nat.mul_comm ftype, Nat.add_comm (ack % 4096)]
  cases credit with
  | none => rfl
  | some x =>
    dsimp only
    rw [Nat.add_comm x.1 128]

theorem told_eq (p : Port) : p.told = { p with
    ackDue := false, owed := (match Claims.owes p with | some x => p.owed.set x.1 0 | none => p.owed) } := by
  have h : p.creditOwed = Claims.owes p := rfl
  unfold Port.told
  rw [h]
  cases Claims.owes p <;> rfl

theorem Port.idled_counts (p : Port) : ∀ f ∈ [Port.downs, Port.retrains, Port.replays, Port.msgDrops, Port.tagFails], f p.idled = f p := by
  have h : ∀ f ∈ [Port.downs, Port.retrains, Port.replays, Port.msgDrops, Port.tagFails], f p.told = f p := by
    simp only [List.forall_mem_cons]
    exact ⟨rfl, rfl, rfl, rfl, rfl, fun _ h => absurd h List.not_mem_nil⟩
  intro f hf
  unfold Port.idled
  split
  · exact h f hf
  · rfl

theorem Port.refresh_counts (p : Port) (w : Word) : ∀ f ∈ [Port.downs, Port.retrains, Port.replays, Port.msgDrops, Port.tagFails],
    f (p.refresh w) = (f p).handshake := by
  simp only [List.forall_mem_cons]
  exact ⟨rfl, rfl, rfl, rfl, rfl, fun _ h => absurd h List.not_mem_nil⟩

/-- A cycle of MCLK before the slow copies: the count, what the fabric moves, and what the ports tell. -/
def State.cycled (s : State) : State := (List.range 20).foldl State.idlePort { s with mclk := s.mclk + 1 }.moveFlits

theorem State.cycled_spec {s : State} (hlen : s.ports.length = 20) :
    (∃ ps f o, s.cycled = { s with mclk := s.mclk + 1, ports := ps, fabric := f, out := s.out ++ o } ∧ ps.length = 20)
      ∧ (∀ i, i < 20 → s.cycled.port i = (s.port i).idled)
      ∧ (∀ i, i < 20 → Claims.Tells (s.port i) → Out.flit i ((s.port i).bareFlit 1) ∈ s.cycled.out)
      ∧ ((∀ x ∈ s.fabric, x.queued = [] ∧ x.held = [] ∧ x.back = []) → s.cycled.fabric = s.fabric
        ∧ ((∀ i, i < 20 → ¬Claims.Tells (s.port i)) → s.cycled.out = s.out)) := by
  obtain ⟨f, o, hm⟩ := (OnlyFabric.refl { s with mclk := s.mclk + 1 }).moveFlits
  have hport : ∀ i, { s with mclk := s.mclk + 1 }.moveFlits.port i = s.port i := fun i => by rw [hm]; rfl
  obtain ⟨⟨ps, o', ht, hps⟩, hports, hout, hnone⟩ := State.idlePorts_spec (s := { s with mclk := s.mclk + 1 }.moveFlits) (n := 20) (by rw [hm]; exact hlen.ge)
  refine ⟨⟨ps, f, o ++ o', ?_, hps.trans (by rw [hm]; exact hlen)⟩, fun i hi => ?_, fun i hi htells => ?_, fun hstill => ?_⟩
  · rw [← List.append_assoc]
    refine ht.trans ?_
    rw [hm]
  · rw [← hport]
    exact (hports i).trans (if_pos hi)
  · rw [← hport] at htells ⊢
    exact hout i hi htells
  · have hs := State.moveFlits_of_still (s := { s with mclk := s.mclk + 1 }) hstill
    refine ⟨?_, fun hno => ?_⟩
    · rw [State.cycled, ht, hs]
    · rw [State.cycled, hnone fun i hi => by rw [hport]; exact hno i hi, hs]

theorem idle_of_runs {s : State} (haon : s.aonUp = true) (hclk : s.clocksLost.contains 42 = false) :
    idle s = if s.cycled.mclk % 500 = 0 then s.cycled.refreshSlow else s.cycled := by
  unfold idle State.cycled
  rw [if_neg (by rw [haon]; decide), if_neg (by rw [hclk]; decide)]

/-- A state that differs in the clock's count, the ports, the fabric, the slow copies and what leaves the module. -/
theorem cycle_leaves {s t : State} (h : ∃ m ps f o pw, t = { s with mclk := m, ports := ps, fabric := f, out := s.out ++ o, slowPower := pw }) :
    t.parts = s.parts ∧ t.windows = s.windows ∧ t.mem = s.mem ∧ t.poison = s.poison ∧ t.faults = s.faults ∧ t.merge = s.merge
      ∧ t.pending = s.pending ∧ s.out <+: t.out := by
  obtain ⟨m, ps, f, o, pw, rfl⟩ := h
  exact ⟨rfl, rfl, rfl, rfl, rfl, rfl, rfl, List.prefix_append _ _⟩

theorem State.refreshSlow_eq (s : State) : s.refreshSlow = { s with slowPower := s.powerWords, ports := s.refreshSlow.ports } := rfl

/-- Settles O29: the cycle's parts are the fabric's moves, the ports' IDLE flits, and the refresh of the slow copies. -/
theorem idleCycles : Obligations.IdleCycles := by
  intro s hpend hlen
  have hstep : step s = .next (idle s) := by rw [step, hpend]
  refine ⟨_, hstep, ?_⟩
  dsimp only
  by_cases hruns : (s.aonUp && !s.clocksLost.contains 42) = true
  · obtain ⟨⟨ps, f, o, ht, hps⟩, hport, hout, hstill⟩ := State.cycled_spec hlen
    obtain ⟨haon, hclk⟩ := (Bool.and_eq_true _ _).mp hruns
    have hm : s.cycled.mclk = s.mclk + 1 := congrArg State.mclk ht
    have hidle : idle s = if (s.mclk + 1) % 500 = 0 then s.cycled.refreshSlow else s.cycled := by
      rw [idle_of_runs haon ((Bool.not_eq_true' _).mp hclk), hm]
    have htells : ∀ i, i < 20 → Claims.Tells (s.port i) →
        Out.flit i (Claims.flit 1 0 ((s.port i).rxLast % 4096) (s.port i).rxAny 0 (Claims.owes (s.port i)) (List.replicate 240 0)) ∈ s.cycled.out :=
      fun i hi h => flitSeal_eq 1 0 _ _ 0 _ _ ▸ hout i hi h
    have hslowPower : s.cycled.slowPower = s.slowPower := by rw [ht]
    rw [hidle, if_pos hruns]
    generalize s.cycled = u at ht hport hstill hm htells hslowPower ⊢
    by_cases h500 : (s.mclk + 1) % 500 = 0
    · obtain ⟨h1, h2, h3, h4, h5, h6, h7, h8⟩ := cycle_leaves (s := s) (t := u.refreshSlow) ⟨_, _, _, _, _, by rw [State.refreshSlow_eq, ht]⟩
      rw [if_pos h500]
      refine ⟨h1, h2, h3, h4, h5, h6, h7.trans hpend, h8, hm, fun _ => htells, fun _ => hstill, fun _ h => absurd h500 h, fun _ _ i hi g hg => ?_⟩
      rw [State.port_refreshSlow (by rw [ht]; exact hps ▸ hi), hport i hi, Port.refresh_counts _ _ g hg, Port.idled_counts _ g hg]
      rfl
    · obtain ⟨h1, h2, h3, h4, h5, h6, h7, h8⟩ := cycle_leaves (s := s) (t := u) ⟨_, _, _, _, _, ht⟩
      rw [if_neg h500]
      refine ⟨h1, h2, h3, h4, h5, h6, h7.trans hpend, h8, hm, fun _ => htells, fun _ => hstill, fun _ _ => ⟨hslowPower, fun i hi => ?_⟩,
        fun _ h => absurd h h500⟩
      rw [hport i hi]
      exact ⟨fun h => (Port.idled_of_tells h).trans (told_eq _), fun h => Port.idled_of_not_tells h⟩
  · have hidle : idle s = s ∨ idle s = s.refreshSlow := by
      unfold idle
      split
      · split
        · exact Or.inr rfl
        · exact Or.inl rfl
      · next haon =>
        rw [if_pos]
        · exact Or.inl rfl
        · simpa [eq_true_of_ne_false (fun e => haon (by rw [e]; decide) : s.aonUp ≠ false)] using hruns
    obtain ⟨h1, h2, h3, h4, h5, h6, h7, h8⟩ := cycle_leaves (s := s) (t := idle s)
      ⟨s.mclk, (idle s).ports, s.fabric, [], (idle s).slowPower, by rcases hidle with h | h <;> rw [h, List.append_nil] <;> rfl⟩
    have hm : (idle s).mclk = s.mclk := by rcases hidle with h | h <;> rw [h] <;> rfl
    rw [if_neg hruns]
    exact ⟨h1, h2, h3, h4, h5, h6, h7.trans hpend, h8, hm, fun h => absurd h hruns, fun h => absurd h hruns, fun h => absurd h hruns,
      fun h => absurd h hruns⟩

end Sys2Proof.Machine
end

section
/-! PROOF. Register accesses: writes, reads with what they clear, bad accesses, and the wide-value mailbox (R373, R374, R376, R377, R381, R383,
R384, R387). -/

namespace Sys2Proof.Machine

variable {s : State} {path : Path} {slot win : Nat}

/-! Where an access arrives. -/

theorem State.windowOf_of_slot (h : Claims.Slot s path slot win) : s.windowOf path slot = win := by
  unfold State.windowOf
  cases path with
  | bar0 fn =>
    rcases h with ⟨rfl, rfl⟩ | ⟨h4, hq, rfl⟩
    · rfl
    · dsimp only
      rw [if_neg (by omega), if_pos hq]
  | reg fn => exact h.symm
  | smbus => exact h.symm

theorem State.pathUp_of_reaches (h : s.reachesWindow path win = true) : s.pathUp path = true := by
  unfold State.reachesWindow State.pathReaches at h
  split at h
  · exact (Bool.and_eq_true _ _ ▸ h).1
  · simp only [Bool.and_eq_true] at h
    exact h.1.2

section
variable (hslot : Claims.Slot s path slot win) (hreach : s.reachesWindow path win = true)
include hslot hreach

theorem execRegisterWrite_of_reaches (off size : Nat) (v : Word) :
    exec (.registerWrite path slot off size v) s = .next (s.regWrite path win (off % 65536) size v) := by
  simp only [exec, execRegisterWrite, State.windowOf_of_slot hslot, hreach, if_true]

theorem execRcRegisterRead_of_reaches (off : Nat) :
    exec (.rcRegisterRead path slot off) s = .next ((s.regRead path win (off % 65536) 8).1.emit (.readData path (s.regRead path win (off % 65536) 8).2)) := by
  simp only [exec, execRcRegisterRead, State.windowOf_of_slot hslot, hreach, State.answer, State.pathUp_of_reaches hreach, if_true]

theorem execLinkCounterRead_of_reaches {off : Nat} (h : (regDecode off).1 = 5) :
    exec (.linkCounterRead path slot off) s = .next ((s.regRead path win (off % 65536) 8).1.emit (.readData path (s.regRead path win (off % 65536) 8).2)) := by
  simp only [exec, execLinkCounterRead, h, ne_eq, not_true_eq_false, if_false, State.windowOf_of_slot hslot, hreach, State.answer,
    State.pathUp_of_reaches hreach, if_true]

theorem execBadAccessRead_of_reaches (off size : Nat) :
    exec (.badAccessRead path slot off size) s
      = .next ((s.regRead path win (off % 65536) size).1.emit (.readData path (s.regRead path win (off % 65536) size).2)) := by
  simp only [exec, execBadAccessRead, State.windowOf_of_slot hslot, hreach, State.answer, State.pathUp_of_reaches hreach, if_true]

theorem execWideSelWrite_of_reaches (v : Word) : exec (.wideSelWrite path slot v) s = .next (s.regWrite path win 0x3000 8 v) := by
  simp only [exec, execWideSelWrite, State.windowOf_of_slot hslot, hreach, if_true]

end

/-! Writes (R373, R374, R377). -/

theorem State.mayWriteDevice_iff : s.mayWriteDevice path = true ↔ path = .smbus ∨ s.quartersPer = 4 := by
  rw [State.mayWriteDevice, Bool.or_eq_true, beq_iff_eq, beq_iff_eq]

theorem State.writeRefused_iff (off size : Nat) :
    s.writeRefused path win off size = true ↔ size ≠ 8 ∨ off % 8 ≠ 0 ∨ ¬(win ≠ 4 ∨ path = .smbus ∨ s.quartersPer = 4) := by
  rw [State.writeRefused, Bool.or_eq_true, Bool.and_eq_true, decide_eq_true_eq, beq_iff_eq, Bool.not_eq_true', ← Bool.not_eq_true,
    State.mayWriteDevice_iff, or_assoc]
  simp only [not_or, not_ne_iff]

theorem State.regWrite_of_taken {off size : Nat} {v : Word} (hs : size = 8) (ho : off % 8 = 0) (hm : win ≠ 4 ∨ path = .smbus ∨ s.quartersPer = 4) :
    s.regWrite path win off size v = s.regPut path win off v := by
  refine if_neg fun h => ?_
  rcases (State.writeRefused_iff off size).mp h with h | h | h
  · exact h hs
  · exact h ho
  · exact h hm

/-- A bad access is recorded in its window alone. -/
theorem State.badAccess_recorded (hw : win < s.windows.length) (path : Path) (write : Bool) {off : Nat} (ho : off < 65536) :
    Claims.BadAccess s (s.badAccess win path write off) win write path off := by
  refine ⟨rfl, fun w hne => State.window_modWindow_ne _ hne, ?_⟩
  rw [State.badAccess, State.window_modWindow_self _ hw, Nat.mod_eq_of_lt ho]
  cases path <;> rfl

/-- Each of the registers that a write sets by itself is the one that its offset decodes to. -/
theorem regPut_written (s : State) (path : Path) (win : Nat) (v : Word) :
    ∀ r ∈ Claims.writtenRegs, (win = 4 → r.1 < 0x6000) → s.regPut path win r.1 v = s.modWindow win fun w => r.2 w v := by
  unfold Claims.writtenRegs
  simp only [List.forall_mem_cons]
  refine ⟨fun _ => rfl, fun _ => rfl, fun _ => rfl, fun h => ?_, fun h => ?_, fun h => ?_, fun _ h => absurd h List.not_mem_nil⟩
  all_goals
    have hne : win ≠ 4 := fun e => absurd (h e) (by decide)
    exact if_neg hne

/-- The read-only registers of blocks 0x4000 and 0x5000, and those of block 0x0000 (R377). -/
theorem regPut_readOnly (s : State) (path : Path) (win : Nat) {off : Nat} (v : Word) (h : (0x4000 ≤ off ∧ off < 0x6000) ∨ off < 0x0020) :
    s.regPut path win off v = s := by
  have hdec : (regDecode off).1 = 4 ∨ (regDecode off).1 = 5 ∨ ((regDecode off).1 = 0 ∧ (regDecode off).2 < 4) := by
    have hb : off / 4096 % 8 < 7 := by omega
    unfold regDecode
    dsimp only
    rw [if_neg (by omega)]
    omega
  unfold State.regPut
  generalize regDecode off = d at hdec ⊢
  obtain ⟨b, quad⟩ := d
  dsimp only at hdec
  rcases hdec with rfl | rfl | ⟨rfl, hq⟩
  · rfl
  · rfl
  · dsimp only
    rw [if_neg (by omega), if_neg (by omega)]
    rfl

/-- Settles O30: a write that is not refused changes the register that its offset decodes to. -/
theorem registerWrites : Obligations.RegisterWrites := by
  intro path slot win size off v s hslot hreach hwin hw hoff may
  have hmod : off % 65536 = off := Nat.mod_eq_of_lt (by omega)
  have hexec := execRegisterWrite_of_reaches hslot hreach off
  rw [hmod] at hexec
  refine ⟨fun hs ho hmay => ?_, fun h => ⟨_, (hexec size v).trans (congrArg _ (if_pos ((State.writeRefused_iff off size).mpr h))),
    State.badAccess_recorded (by omega) path true (by omega)⟩⟩
  have hput : exec (.registerWrite path slot off 8 v) s = .next (s.regPut path win off v) :=
    (hexec 8 v).trans (congrArg _ (State.regWrite_of_taken rfl ho hmay))
  refine ⟨?_, fun h => ?_⟩
  · rintro r hr rfl hlow
    exact hput.trans (congrArg _ (regPut_written s path win v r hr hlow))
  · exact hput.trans (congrArg _ (regPut_readOnly s path win v h))

/-! Reads (R374, R381, R387). -/

theorem State.regRead_whole (s : State) (path : Path) (win : Nat) {off : Nat} (h : off % 8 = 0) :
    s.regRead path win off 8 = (s.readClears win off, toLe 8 (s.regValue win off).toNat) := by
  unfold State.regRead
  rw [if_neg (by omega)]

theorem State.regRead_bad (s : State) (path : Path) (win : Nat) {off size : Nat} (h : size ≠ 8 ∨ off % 8 ≠ 0) :
    s.regRead path win off size = (s.badAccess win path false off, List.replicate size 0xFF) := by
  unfold State.regRead
  rw [if_pos h]

theorem toNat_ofNat_toNat {n : Nat} (x : BitVec n) (h : n ≤ 64) : (BitVec.ofNat 64 x.toNat).toNat = x.toNat := by
  rw [BitVec.toNat_ofNat]
  exact Nat.mod_eq_of_lt (Nat.lt_of_lt_of_le x.isLt (Nat.pow_le_pow_right (by decide) h))

/-- Settles O31: a whole read gives the register's value and clears that register alone. -/
theorem registerReads : Obligations.RegisterReads := by
  intro path pos win s hslot hreach hwin hw ans w
  have hread : ∀ {off n : Nat} (x : BitVec n) {t : State}, n ≤ 64 → off % 8 = 0 → off < 65536 → s.readClears win off = t →
      s.regValue win off = BitVec.ofNat 64 x.toNat → exec (.rcRegisterRead path pos off) s = .next (ans t (toLe 8 x.toNat)) := by
    intro off n x t hn h8 hoff hclear hval
    rw [execRcRegisterRead_of_reaches hslot hreach, Nat.mod_eq_of_lt hoff, State.regRead_whole _ _ _ h8, hclear, hval, toNat_ofNat_toNat x hn]
  refine ⟨⟨?_, ?_, ?_, ?_, ?_⟩, fun slot hne hs5 => ?_, fun off size hoff hbad => ⟨s.badAccess win path false off,
    State.badAccess_recorded (by omega) path false (by omega), ?_⟩⟩
  · exact hread w.summary (by decide) (by decide) (by decide) rfl rfl
  · exact hread w.dbReject (by decide) (by decide) (by decide) rfl rfl
  · exact hread w.seqStop (by decide) (by decide) (by decide) rfl rfl
  · exact hread w.haltStop (by decide) (by decide) (by decide) rfl rfl
  · exact hread w.scratch (by decide) (by decide) (by decide) rfl rfl
  · intro i
    have hdec : regDecode (0x5008 + 64 * slot) = (5, 8 * slot + 1) := by
      unfold regDecode
      refine congrArg₂ (fun a b => (a, b)) ?_ (by omega)
      rw [if_neg (by omega)]
      omega
    rw [execLinkCounterRead_of_reaches hslot hreach (by rw [hdec]), Nat.mod_eq_of_lt (by omega), State.regRead_whole _ _ _ (by omega)]
    have hport : slotPort win ((8 * slot + 1) / 8) = i := by rw [show (8 * slot + 1) / 8 = slot by omega]; rfl
    have hquad : (8 * slot + 1) % 8 = 1 := by omega
    have hclear : s.readClears win (0x5008 + 64 * slot) = s.modPort i fun p => { p with downs := p.downs.readBack, retrains := p.retrains.readBack } := by
      unfold State.readClears
      rw [hdec]
      dsimp only
      rw [if_neg (by decide), if_pos ⟨rfl, hne, by omega⟩, hport, hquad]
      rfl
    have hval : s.regValue win (0x5008 + 64 * slot)
        = BitVec.ofNat 64 (min (s.port i).downs.copy 0xFFFFFFFF * 2 ^ 32 + min (s.port i).retrains.copy 0xFFFFFFFF) := by
      unfold State.regValue State.linkReg
      rw [hdec]
      dsimp only
      rw [if_neg (show ¬(win = 4 ∨ 40 ≤ 8 * slot + 1) by omega), hport, hquad]
      rfl
    rw [hclear, hval, BitVec.toNat_ofNat, Nat.mod_eq_of_lt (by omega)]
    rfl
  · rw [execBadAccessRead_of_reaches hslot hreach, Nat.mod_eq_of_lt (by omega), State.regRead_bad _ _ _ hbad]

/-! The wide-value mailbox (R383, R384). -/

/-- The captured item stands in the mailbox. -/
def Window.captured (w : Window) (tag x words : Nat) : Window :=
  { w with wideTag := tag, wideLen := words, wideValid := true, widePending := false,
           wideData := [BitVec.ofNat 64 x, BitVec.ofNat 64 (x / 2 ^ 64), BitVec.ofNat 64 (x / 2 ^ 128), BitVec.ofNat 64 (x / 2 ^ 192)] }

theorem wideData_eq (v : Nat) : (List.range 4).map (fun i => BitVec.ofNat 64 (v / 2 ^ (64 * i)))
    = [BitVec.ofNat 64 v, BitVec.ofNat 64 (v / 2 ^ 64), BitVec.ofNat 64 (v / 2 ^ 128), BitVec.ofNat 64 (v / 2 ^ 192)] := by
  rw [show List.range 4 = [0, 1, 2, 3] from rfl]
  simp only [List.map_cons, List.map_nil, Nat.mul_zero, Nat.pow_zero, Nat.div_one, Nat.mul_one, Nat.reduceMul]

section
variable (hw : win < 5) (hpend : (s.window win).widePending = true)
include hw hpend

theorem execWideCapture_some {t : State} {v width : Nat} (h : s.wideItem win ((s.window win).wideSel.toNat % 65536)
    ((s.window win).wideSel.toNat / 65536 % 65536) ((s.window win).wideSel.toNat.testBit 32) = some (t, v, width)) :
    exec (.wideCapture win) s
      = .next (t.modWindow win fun w => w.captured ((s.window win).wideSel.toNat / 2 ^ 56) v (ceilDiv width 64)) := by
  simp only [exec, execWideCapture, hw, hpend, and_self, if_true, h, wideData_eq]
  rfl

theorem execWideCapture_none (h : s.wideItem win ((s.window win).wideSel.toNat % 65536)
    ((s.window win).wideSel.toNat / 65536 % 65536) ((s.window win).wideSel.toNat.testBit 32) = none) :
    exec (.wideCapture win) s = .next (s.modWindow win fun w =>
      { w with wideTag := (s.window win).wideSel.toNat / 2 ^ 56, wideBad := true, widePending := false }) := by
  simp only [exec, execWideCapture, hw, hpend, and_self, if_true, h]

end

theorem State.wideItem_none (s : State) (win : Nat) {item : Nat} (index : Nat) (clear : Bool) (h : item = 0 ∨ 0x12 ≤ item) :
    s.wideItem win item index clear = none := by
  unfold State.wideItem
  dsimp only
  split
  iterate 6
    · exfalso
      omega
  rfl

/-- Settles O32: the selection is one register write; what the capture delivers is the item that the selector names. -/
theorem wideValues : Obligations.WideValues := by
  intro path slot win v s hw hwin hparts
  refine ⟨fun hslot hreach hmay => ?_, fun hpend => ?_, fun hpend => ?_⟩
  · rw [execWideSelWrite_of_reaches hslot hreach, State.regWrite_of_taken rfl (by decide) hmay]
    rfl
  · simp only [exec, execWideCapture, hpend, Bool.false_eq_true, and_false, if_false]
  · intro sel tag got
    refine ⟨fun h => ?_, fun ev h10 hev h1 h255 hne => ?_, fun h => execWideCapture_none hw hpend (State.wideItem_none s win _ _ h)⟩
    · have hitem : (s.window win).wideSel.toNat % 65536 = 1 := by
        have : (s.window win).wideSel.toNat % 2 ^ 32 = 1 := h
        omega
      have hindex : (s.window win).wideSel.toNat / 65536 % 65536 = 0 := by
        have : (s.window win).wideSel.toNat % 2 ^ 32 = 1 := h
        omega
      exact execWideCapture_some (v := s.serial) (width := 128) hw hpend (by rw [hitem, hindex]; rfl)
    · have hitem : (s.window win).wideSel.toNat % 65536 = 0x10 := h10
      have hindex : (s.window win).wideSel.toNat / 65536 % 65536 = ev := hev
      refine execWideCapture_some (v := Tbl.get 0 (s.part (s.lowQ win)).errTotals ev) (width := 96) hw hpend ?_
      rw [hitem, hindex]
      exact if_pos ⟨hne, h1, h255⟩

end Sys2Proof.Machine
end

section
/-! PROOF. STREAM, PARTITION and MODULE resets by register: what completes with the reset, and what a wider reset covers (R51, R390, R455, R456,
R458, R462). -/

namespace Sys2Proof.Machine

open Safety (OnlyData)

/-- A view of a partition that a change of one does not touch. -/
theorem State.modPart_view {β : Type} (g : Part → β) (s : State) (p q : Nat) {f : Part → Part} (h : ∀ pt, g (f pt) = g pt := by exact fun _ => rfl) :
    g ((s.modPart p f).part q) = g (s.part q) := State.view_modPart h s p q

/-! What sending a message leaves (R309, R318). -/

/-- The ports, the next identifier and what leaves the module alone differ. -/
def OnlySends (s t : State) : Prop := ∃ ps n o, t = { s with ports := ps, nextMsgId := n, out := s.out ++ o }

theorem OnlySends.refl (s : State) : OnlySends s s := ⟨s.ports, s.nextMsgId, [], by rw [List.append_nil]⟩

theorem OnlySends.parts {s t : State} (h : OnlySends s t) : t.parts = s.parts := by
  obtain ⟨_, _, _, rfl⟩ := h
  rfl

section
variable {s0 s : State} (h : OnlySends s0 s)
include h

theorem OnlySends.trans {t : State} (g : OnlySends s t) : OnlySends s0 t := by
  obtain ⟨_, _, o, rfl⟩ := h
  obtain ⟨ps, n, o', rfl⟩ := g
  exact ⟨ps, n, o ++ o', by rw [List.append_assoc]⟩

theorem OnlySends.emit (o : Out) : OnlySends s0 (s.emit o) :=
  h.trans ⟨s.ports, s.nextMsgId, [o], rfl⟩

theorem OnlySends.modPort (i : Nat) (f : Port → Port) : OnlySends s0 (s.modPort i f) :=
  h.trans ⟨(s.modPort i f).ports, s.nextMsgId, [], by rw [List.append_nil]; rfl⟩

theorem OnlySends.foldl {α : Type} {f : State → α → State} (hf : ∀ t x, OnlySends s0 t → OnlySends s0 (f t x)) (l : List α) :
    OnlySends s0 (l.foldl f s) := by
  induction l generalizing s with
  | nil => exact h
  | cons x l ih => exact ih (hf s x h)

theorem OnlySends.pumpPort (i : Nat) : OnlySends s0 (s.pumpPort i) := by
  unfold State.pumpPort
  exact OnlySends.foldl (h.modPort i _) (fun _ _ ht => ht.emit _) _

theorem OnlySends.portSend (i : Nat) (owner : Option PacketRef) (m : Msg) : OnlySends s0 (s.portSend i owner m) :=
  ((h.modPort i _).emit _).pumpPort i

theorem OnlySends.takeMsgId : OnlySends s0 { s with nextMsgId := (s.nextMsgId + 1) % 2 ^ 32 } :=
  h.trans ⟨s.ports, _, [], by rw [List.append_nil]⟩

theorem OnlySends.send (p : Nat) (owner : Option PacketRef) (dst mtype mflags addr len poison : Nat) (data : List Byte) :
    OnlySends s0 (s.send p owner dst mtype mflags addr len poison data).1 := by
  unfold State.send
  split
  · exact h
  · split
    · exact h
    · exact h.takeMsgId.portSend _ _ _

theorem OnlySends.respond (p : Nat) (m : Msg) (mtype poison : Nat) (data : List Byte) : OnlySends s0 (s.respond p m mtype poison data) := by
  unfold State.respond
  split
  · exact h
  · split
    · exact h
    · exact h.portSend _ _ _

theorem OnlySends.sendControl (p : Nat) (owner : Option PacketRef) (dst : Nat) (c : Control) : OnlySends s0 (s.sendControl p owner dst c).1 := by
  unfold State.sendControl
  dsimp only
  split
  · split
    · exact h
    · exact h.takeMsgId.portSend _ _ _
  · exact h.send _ _ _ _ _ _ _ _ _

end

theorem State.raiseMsix_parts (s : State) (fn vector : Nat) : (s.raiseMsix fn vector).parts = s.parts := by
  unfold State.raiseMsix
  dsimp only
  split <;> rfl

theorem State.notify_parts (s : State) (p ring : Nat) : (s.notify p ring).parts = s.parts := by
  unfold State.notify
  split
  · exact s.raiseMsix_parts p _
  · split
    · rfl
    · split
      · rfl
      · exact ((OnlySends.refl s).sendControl _ _ _ _).parts

/-! Sparse tables: an entry that is found stays found when another is set. -/

theorem Tbl.get_erase_of_ne {α : Type} {d : α} {t : Tbl α} {i k : Nat} (hik : i ≠ k) (h : Tbl.get d t i ≠ d) :
    Tbl.get d (t.erase k) i = Tbl.get d t i := by
  induction t with
  | nil => rfl
  | cons e t ih =>
    obtain ⟨j, v⟩ := e
    rw [Tbl.erase]
    rw [Tbl.get] at h ⊢
    by_cases hk : k = j
    · subst hk
      rw [if_pos rfl, if_neg hik]
      rw [if_neg hik] at h
      by_cases hlt : i < k
      · rw [if_pos hlt] at h
        exact absurd rfl h
      · rw [if_neg hlt]
    · rw [if_neg hk]
      by_cases hkj : k < j
      · rw [if_pos hkj, Tbl.get]
      · rw [if_neg hkj, Tbl.get]
        by_cases hij : i = j
        · rw [if_pos hij, if_pos hij]
        · rw [if_neg hij, if_neg hij]
          rw [if_neg hij] at h
          by_cases hlt : i < j
          · rw [if_pos hlt, if_pos hlt]
          · rw [if_neg hlt, if_neg hlt]
            rw [if_neg hlt] at h
            exact ih h

theorem Tbl.get_set_of_ne {α : Type} [DecidableEq α] {d : α} {t : Tbl α} {i k : Nat} (v : α) (hik : i ≠ k) (h : Tbl.get d t i ≠ d) :
    Tbl.get d (Tbl.set d t k v) i = Tbl.get d t i := by
  unfold Tbl.set
  split
  · exact Tbl.get_erase_of_ne hik h
  · rw [Tbl.get_put, if_neg hik]

/-! What a packet gives back is no ring. -/

theorem foldl_view {α β γ : Type} (g : β → γ) {f : β → α → β} (l : List α) (b : β) (h : ∀ b x, g (f b x) = g b := by exact fun _ _ => rfl) : g (l.foldl f b) = g b := by
  induction l generalizing b with
  | nil => rfl
  | cons x l ih => exact (ih (f b x)).trans (h b x)

theorem rings_releaseRefs (pt : Part) (refs : List VRef) : (pt.releaseRefs refs).rings = pt.rings := foldl_view Part.rings _ _

theorem rings_leaveTurns (pt : Part) (ring idx : Nat) : (pt.leaveTurns ring idx).rings = pt.rings := foldl_view Part.rings _ _

theorem rings_extentEnd (pt : Part) (k : Packet) : (pt.extentEnd k).rings = pt.rings := by
  unfold Part.extentEnd
  split
  · split <;> rfl
  · rfl

/-! Bound rings keep their binding and tail. -/

/-- Every bound ring is bound as it was, with its tail. -/
def BoundKept (s t : State) : Prop :=
  ∀ q r b, ((s.part q).ring r).binding = some b → ((t.part q).ring r).binding = some b ∧ ((t.part q).ring r).tail = ((s.part q).ring r).tail

theorem BoundKept.refl (s : State) : BoundKept s s := fun _ _ _ h => ⟨h, rfl⟩

section
variable {s0 s : State} (h : BoundKept s0 s)
include h

theorem BoundKept.trans {t : State} (g : BoundKept s t) : BoundKept s0 t := fun q r b hb => by
  obtain ⟨h1, h2⟩ := h q r b hb
  obtain ⟨g1, g2⟩ := g q r b h1
  exact ⟨g1, g2.trans h2⟩

theorem BoundKept.rings {t : State} (g : ∀ q, (t.part q).rings = (s.part q).rings) : BoundKept s0 t := by
  refine h.trans fun q r b hb => ?_
  unfold Part.ring at hb ⊢
  rw [g]
  exact ⟨hb, rfl⟩

theorem BoundKept.modPart {p : Nat} {f : Part → Part} (hf : ∀ pt, (f pt).rings = pt.rings := by exact fun _ => rfl) : BoundKept s0 (s.modPart p f) :=
  h.rings fun q => State.view_modPart hf s p q

theorem BoundKept.only {t : State} (hd : OnlyData s t) : BoundKept s0 t := h.rings fun q => view_of_onlyData (fun _ => rfl) hd q

theorem BoundKept.parts {t : State} (ht : t.parts = s.parts) : BoundKept s0 t := h.rings fun q => by unfold State.part; rw [ht]

theorem BoundKept.foldl {α : Type} {f : State → α → State} (hf : ∀ t x, BoundKept s0 t → BoundKept s0 (f t x)) (l : List α) :
    BoundKept s0 (l.foldl f s) := by
  induction l generalizing s with
  | nil => exact h
  | cons x l ih => exact ih (hf s x h)

/-- A change of one ring that keeps its binding and tail. -/
theorem BoundKept.modRing {p r : Nat} {f : Ring → Ring} (hb : ∀ x, (f x).binding = x.binding := by exact fun _ => rfl)
    (ht : ∀ x, (f x).tail = x.tail := by exact fun _ => rfl) : BoundKept s0 (s.modRing p r f) := by
  refine h.trans fun q i b hbi => ?_
  unfold State.modRing
  by_cases hq : q = p
  · subst hq
    by_cases hp : q < s.parts.length
    · rw [State.part_modPart_self _ hp]
      by_cases hi : i = r
      · subst hi
        rw [Part.ring_modRing, if_pos rfl, hb, ht]
        · exact ⟨hbi, rfl⟩
        · exact ne_unbound_of_binding (by rw [hb, hbi]; rfl)
      · have hne : Tbl.get Ring.unbound (s.part q).rings i ≠ Ring.unbound := ne_unbound_of_binding (Option.isSome_iff_exists.mpr ⟨b, hbi⟩)
        have hget : ((s.part q).modRing r f).ring i = (s.part q).ring i := Tbl.get_set_of_ne _ hi hne
        rw [hget]
        exact ⟨hbi, rfl⟩
    · rw [State.modPart, List.modify_eq_self (by omega)]
      exact ⟨hbi, rfl⟩
  · rw [State.part_modPart_ne _ hq]
    exact ⟨hbi, rfl⟩

/-! Records, signals and aborts leave the bindings and tails (R28, R40, R51). -/

theorem BoundKept.bounceWrite (p q : Nat) (o : BounceOut) : BoundKept s0 (s.bounceWrite p q o) := by
  unfold State.bounceWrite
  dsimp only
  have h1 : ∀ x, BoundKept s0 ((s.modQueue p q fun b => { b with outProd := (b.outProd + 1) % 2 ^ 32, outSeq := b.outSeq + 1 }).emit x) := by
    intro x
    have h2 : BoundKept s0 (s.modQueue p q fun b => { b with outProd := (b.outProd + 1) % 2 ^ 32, outSeq := b.outSeq + 1 }) := h.modPart
    exact h2.parts rfl
  split
  · exact (h1 _).modRing
  · exact h1 _

omit h in
theorem BoundKept.bouncePump (fuel p q : Nat) {s0 s : State} (h : BoundKept s0 s) : BoundKept s0 (State.bouncePump fuel p q s) := by
  induction fuel generalizing s with
  | zero => exact h
  | succ fuel ih =>
    rw [State.bouncePump]
    split
    · exact h
    · split
      · exact ih (h.modPart.bounceWrite _ _ _)
      · exact h

theorem BoundKept.bouncePut (p q : Nat) (o : BounceOut) : BoundKept s0 (s.bouncePut p q o) := BoundKept.bouncePump _ p q h.modPart

theorem BoundKept.bounceCompletion (p ring addr : Nat) (record : List Byte) : BoundKept s0 (s.bounceCompletion p ring addr record) :=
  h.foldl (fun _ _ ht => ht.bouncePut _ _ _) _

theorem BoundKept.writeRecord (p : Nat) (k : Packet) (b : Binding) : BoundKept s0 (s.writeRecord p k b) := by
  unfold State.writeRecord
  dsimp only
  refine BoundKept.bounceCompletion (BoundKept.modRing ?_) _ _ _ _
  split
  · exact h.only (State.store_only s _ rfl)
  · exact h

theorem BoundKept.leave (p : Nat) (k : Packet) : BoundKept s0 (s.leave p k) := by
  unfold State.leave
  dsimp only
  have h1 : BoundKept s0 (if k.hdr.flag 5 then s.notify p k.ring else s) := by
    split
    · exact h.parts (s.notify_parts p k.ring)
    · exact h
  split
  · exact h1.modPart.modPart
  · exact h1.modPart

omit h in
theorem BoundKept.flushRing (fuel p ring : Nat) {s0 s : State} (h : BoundKept s0 s) : BoundKept s0 (State.flushRing fuel p ring s) := by
  induction fuel generalizing s with
  | zero => exact h
  | succ fuel ih =>
    rw [State.flushRing]
    split
    · split
      · exact ih ((h.writeRecord _ _ _).leave _ _)
      · exact h
    · exact h

theorem BoundKept.record (p : Nat) (k : Packet) : BoundKept s0 (s.record p k) := by
  unfold State.record
  split
  · exact h.leave p k
  · exact BoundKept.flushRing _ p k.ring h.modPart

theorem BoundKept.release (p : Nat) (k : Packet) : BoundKept s0 (s.release p k) := by
  unfold State.release
  exact h.modPart fun pt => by
    rw [Part.setPacket, Part.dropSpills]
    exact (rings_extentEnd _ _).trans ((rings_leaveTurns _ _ _).trans (rings_releaseRefs _ _))

theorem BoundKept.complete {p : Nat} {k : Packet} (hab : k.aborted = true) : BoundKept s0 (s.complete p k) := by
  unfold State.complete
  rw [hab]
  dsimp only
  refine BoundKept.record ?_ p _
  rw [if_neg]
  · exact h.release p k
  · rw [Part.halts]
    simp [hab]

theorem BoundKept.completeAborted (p : Nat) : BoundKept s0 (s.completeAborted p) := by
  unfold State.completeAborted
  have hall : ∀ k ∈ (s.part p).packets.filter fun k => k.aborted && k.phase == .finished, k.aborted = true := fun k hk => by
    have := (List.mem_filter.mp hk).2
    exact (Bool.and_eq_true _ _ ▸ this).1
  generalize (s.part p).packets.filter (fun k => k.aborted && k.phase == .finished) = l at hall
  induction l generalizing s with
  | nil => exact h
  | cons k l ih => exact ih (h.complete (hall k List.mem_cons_self)) fun x hx => hall x (List.mem_cons_of_mem _ hx)

theorem BoundKept.abort (p : Nat) (k : Packet) : BoundKept s0 (s.abort p k) := by
  unfold State.abort
  split
  · exact h
  · refine h.modPart fun pt => ?_
    have hrefs : (k.refs.foldl (fun pt r => if r.queued then pt.modVersion r.entry fun v =>
        { v with queues := Tbl.set [] v.queues k.hdr.ctx ((Tbl.get [] v.queues k.hdr.ctx).filter (· ≠ ((k.ring * 2 ^ 32 + k.idx) * 2 ^ 32) + r.ver)) } else pt) pt).rings
        = pt.rings := foldl_view Part.rings _ _ fun _ _ => by split <;> rfl
    have hkeep : ∀ (pt' : Part) (k' : Packet), (((pt'.releaseRefs k.refs).leaveTurns k.ring k.idx).extentEnd k').rings = pt'.rings :=
      fun pt' k' => (rings_extentEnd _ _).trans ((rings_leaveTurns _ _ _).trans (rings_releaseRefs _ _))
    dsimp only
    split
    · split
      · exact (hkeep _ _).trans hrefs
      · exact (hkeep _ _).trans hrefs
    · exact (hkeep _ _).trans hrefs

theorem BoundKept.abortWhere (p : Nat) (f : Packet → Bool) : BoundKept s0 (s.abortWhere p f) := h.foldl (fun _ _ ht => ht.abort _ _) _

theorem BoundKept.wake (p : Nat) : BoundKept s0 (s.wake p) := by
  unfold State.wake
  split
  · exact h.modPart
  · exact h.modPart
  · exact h

end

/-! Keys (R462). -/

theorem State.destroyPortKeys_parts (s : State) (i : Nat) : (s.destroyPortKeys i).parts = s.parts := by
  unfold State.destroyPortKeys
  dsimp only
  split
  · rfl
  · split <;> rfl

theorem State.destroyKeys_parts (s : State) (p : Nat) : (s.destroyKeys p).parts = (s.destroyHostKeys p).parts :=
  fold_same State.parts _ (fun t i => t.destroyPortKeys_parts i) _ _

theorem get_ring_ne_unbound {pt : Part} {r : Nat} {b : Binding} (h : (pt.ring r).binding = some b) : Tbl.get Ring.unbound pt.rings r ≠ Ring.unbound :=
  ne_unbound_of_binding (Option.isSome_iff_exists.mpr ⟨b, h⟩)

theorem State.lt_of_binding {s : State} {p r : Nat} {b : Binding} (h : ((s.part p).ring r).binding = some b) : p < s.parts.length := by
  by_contra hp
  rw [State.part, List.getElem?_eq_none (by omega)] at h
  cases h

/-- The rings of a class stand emptied: head at tail, with nothing fetched. -/
theorem emptied_rings (p : Nat) (rs : List Nat) {s : State} {r : Nat} {b : Binding} (hb : ((s.part p).ring r).binding = some b) :
    let t := rs.foldl (fun s r => s.modRing p r fun x => { x with head := x.tail, fetched := none }) s
    BoundKept s t ∧ (r ∈ rs ∨ (((s.part p).ring r).head = ((s.part p).ring r).tail ∧ ((s.part p).ring r).fetched = none) →
      ((t.part p).ring r).head = ((t.part p).ring r).tail ∧ ((t.part p).ring r).fetched = none) := by
  induction rs generalizing s with
  | nil => exact ⟨BoundKept.refl s, fun h => h.resolve_left List.not_mem_nil⟩
  | cons x rs ih =>
    have hstep : BoundKept s (s.modRing p x fun y => { y with head := y.tail, fetched := none }) := (BoundKept.refl s).modRing
    have hp := State.lt_of_binding hb
    obtain ⟨hkept, hempty⟩ := ih (s := s.modRing p x fun y => { y with head := y.tail, fetched := none }) (hstep p r b hb).1
    refine ⟨hstep.trans hkept, fun h => hempty ?_⟩
    by_cases hx : r = x
    · right
      subst hx
      rw [State.modRing, State.part_modPart_self _ hp, Part.ring_modRing, if_pos rfl]
      · exact ⟨rfl, rfl⟩
      · exact ne_unbound_of_binding (by rw [hb]; rfl)
    · rcases h with h | h
      · exact Or.inl ((List.mem_cons.mp h).resolve_left hx)
      · right
        have hget : ((s.modRing p x fun y => { y with head := y.tail, fetched := none }).part p).ring r = (s.part p).ring r := by
          rw [State.modRing, State.part_modPart_self _ hp]
          exact Tbl.get_set_of_ne _ hx (get_ring_ne_unbound hb)
        rw [hget]
        exact h

/-- An entry that is found is listed. -/
theorem Tbl.mem_of_get {α : Type} {d : α} {t : Tbl α} {i : Nat} (h : Tbl.get d t i ≠ d) : (i, Tbl.get d t i) ∈ t := by
  induction t with
  | nil => exact absurd rfl h
  | cons e t ih =>
    obtain ⟨j, v⟩ := e
    rw [Tbl.get] at h ⊢
    by_cases hij : i = j
    · rw [if_pos hij, hij]
      exact List.mem_cons_self
    · rw [if_neg hij] at h ⊢
      by_cases hlt : i < j
      · rw [if_pos hlt] at h
        exact absurd rfl h
      · rw [if_neg hlt] at h ⊢
        exact List.mem_cons_of_mem _ (ih h)

/-! STREAM (R51, R456, R462). -/

/-- A partition after the packets of a class are gone and its rings emptied, before its keys are destroyed. -/
def State.streamEmptied (s : State) (p : Nat) (cls : StreamClass) : State :=
  let s1 := s.wake p
  let isX := fun (r : Ring) => match r.binding with | some b => b.cls == cls | none => false
  let rings := ((s1.part p).rings.filter fun e => isX e.2).map (·.1)
  let s2 := (s1.abortWhere p fun k => rings.contains k.ring).completeAborted p
  rings.foldl (fun s r => s.modRing p r fun x => { x with head := x.tail, fetched := none }) s2

theorem State.streamReset_eq (s : State) (p : Nat) (cls : StreamClass) : s.streamReset p cls = (s.streamEmptied p cls).destroyKeys p := rfl

theorem State.wake_rings (s : State) (p q : Nat) : ((s.wake p).part q).rings = (s.part q).rings := by
  unfold State.wake
  split
  · exact State.modPart_view Part.rings s p q
  · exact State.modPart_view Part.rings s p q
  · rfl

theorem State.streamEmptied_ring {s : State} {p : Nat} {cls : StreamClass} {r : Nat} {b : Binding} (hb : ((s.part p).ring r).binding = some b) :
    let t := s.streamEmptied p cls
    ((t.part p).ring r).binding = some b ∧ ((t.part p).ring r).tail = ((s.part p).ring r).tail
      ∧ (b.cls = cls → ((t.part p).ring r).head = ((s.part p).ring r).tail ∧ ((t.part p).ring r).fetched = none) := by
  intro t
  have h1 : BoundKept s (((s.wake p).abortWhere p fun k =>
      ((((s.wake p).part p).rings.filter fun e => (match e.2.binding with | some b => b.cls == cls | none => false)).map (·.1)).contains k.ring).completeAborted p) :=
    (((BoundKept.refl s).wake p).abortWhere p _).completeAborted p
  obtain ⟨hkept, hempty⟩ := emptied_rings p
    ((((s.wake p).part p).rings.filter fun e => (match e.2.binding with | some b => b.cls == cls | none => false)).map (·.1)) (h1 p r b hb).1
  obtain ⟨hbt, htail⟩ := (h1.trans hkept) p r b hb
  refine ⟨hbt, htail, fun hcls => ?_⟩
  have hlisted : (r, (s.part p).ring r) ∈ ((s.wake p).part p).rings := by
    rw [State.wake_rings]
    exact Tbl.mem_of_get (get_ring_ne_unbound hb)
  have hclass : (match ((s.part p).ring r).binding with | some b => b.cls == cls | none => false) = true := by
    rw [hb]
    exact beq_iff_eq.mpr hcls
  obtain ⟨hhead, hfetched⟩ := hempty (Or.inl (List.mem_map.mpr ⟨(r, (s.part p).ring r), List.mem_filter.mpr ⟨hlisted, hclass⟩, rfl⟩))
  exact ⟨hhead.trans htail, hfetched⟩

/-! PARTITION (R389, R455). -/

/-- Stored data, the windows and the partitions' logs alone differ. -/
def OnlyMarks (s t : State) : Prop :=
  (∃ ps ws m po me fs, t = { s with parts := ps, windows := ws, mem := m, poison := po, merge := me, faults := fs })
    ∧ (∀ q, Safety.sansLog (t.part q) = Safety.sansLog (s.part q)) ∧ t.parts.length = s.parts.length

theorem State.bootBinding_cls {s : State} {p : Nat} {b : Binding} (h : s.bootBinding p = some b) : b.cls = .S := by
  unfold State.bootBinding at h
  dsimp only at h
  split at h
  · cases h
    rfl
  · cases h

theorem State.modWindows_eq (f : Nat → Window → Window) (l : List Nat) (s : State) :
    ∃ ws, l.foldl (fun s q => s.modWindow q (f q)) s = { s with windows := ws } := by
  induction l generalizing s with
  | nil => exact ⟨s.windows, rfl⟩
  | cons q l ih =>
    obtain ⟨ws, h⟩ := ih (s.modWindow q (f q))
    exact ⟨ws, by rw [List.foldl_cons, h]; rfl⟩

/-- A bootstrap ring is an S ring with its three indexes at one place; besides it only marks change. -/
theorem State.bindBootstrap_eq (s : State) (p first : Nat) : ∃ (b : Binding) (u : State), b.cls = .S ∧ OnlyMarks s u
    ∧ s.bindBootstrap p first = u.modRing p (64 * s.quartersPer - 1) fun r =>
      { Ring.unbound with binding := some b, head := first, tail := first, cqTail := first, c3 := r.c3 } := by
  have hcls : ∀ d : Binding, d.cls = .S → ((s.bootBinding p).getD d).cls = .S := by
    intro d hd
    cases h : s.bootBinding p with
    | none => exact hd
    | some b => exact State.bootBinding_cls h
  unfold State.bindBootstrap
  dsimp only
  generalize hg : (s.bootBinding p).getD _ = b
  have hb : b.cls = .S := hg ▸ hcls _ rfl
  obtain ⟨ws, hw⟩ := State.modWindows_eq (fun _ w => { w with ringDefault := (s.bootBinding p).isNone }) (s.quarters p)
    (s.zeroRange b.cqBase (b.cqBase + 32 * 2 ^ b.cqLog2))
  rw [hw]
  refine ⟨b, _, hb, ?_, rfl⟩
  split
  · have hd := OnlyData.parts (State.log_only ({ s.zeroRange b.cqBase (b.cqBase + 32 * 2 ^ b.cqLog2) with windows := ws }) p (mkEvent 0x50 p 0) rfl)
    obtain ⟨ps, ws', hl⟩ := State.log_eq ({ s.zeroRange b.cqBase (b.cqBase + 32 * 2 ^ b.cqLog2) with windows := ws }) p (mkEvent 0x50 p 0)
    refine ⟨⟨ps, ws', _, _, _, _, hl⟩, fun q => hd.part q, ?_⟩
    have := congrArg List.length hd
    rwa [List.length_map, List.length_map] at this
  · exact ⟨⟨_, _, _, _, _, _, rfl⟩, fun _ => rfl, rfl⟩

theorem State.openPart_eq (s : State) (p first : Nat) : ∃ ps ws m po me fs,
    s.openPart p first = { s with parts := ps, windows := ws, mem := m, poison := po, merge := me, faults := fs } := by
  obtain ⟨b, u, -, ⟨⟨ps, ws, m, po, me, fs, rfl⟩, -, -⟩, h⟩ := s.bindBootstrap_eq p first
  unfold State.openPart
  rw [h]
  exact ⟨_, ws, m, po, me, fs, rfl⟩

/-- A partition opened: it is ready, with a bootstrap ring, and but for its log it is otherwise as it was. -/
theorem State.openPart_part {s : State} {p : Nat} (hp : p < s.parts.length) (first : Nat) : ∃ b : Binding, b.cls = .S
    ∧ Safety.sansLog ((s.openPart p first).part p) = { Safety.sansLog (s.part p) with
        ready := true,
        rings := Tbl.put (s.part p).rings (64 * s.quartersPer - 1) { Ring.unbound with
          binding := some b, head := first, tail := first, cqTail := first, c3 := ((s.part p).ring (64 * s.quartersPer - 1)).c3 } } := by
  obtain ⟨b, u, hb, ⟨-, hpart, hlen⟩, h⟩ := s.bindBootstrap_eq p first
  refine ⟨b, hb, ?_⟩
  have hring : (u.part p).rings = (s.part p).rings := by
    have := congrArg Part.rings (hpart p)
    exact this
  have hset : ∀ r : Ring, ({ Ring.unbound with binding := some b, head := first, tail := first, cqTail := first, c3 := r.c3 } : Ring) ≠ Ring.unbound :=
    fun r => ne_unbound_of_binding rfl
  unfold State.openPart
  rw [h, State.modRing, State.modPart_modPart, State.part_modPart_self _ (by rw [hlen]; exact hp)]
  unfold Part.modRing Tbl.set Part.ring
  rw [if_neg (hset _), hring]
  exact congrArg (fun pt : Part => { pt with ready := true, rings := Tbl.put (s.part p).rings (64 * s.quartersPer - 1) { Ring.unbound with
    binding := some b, head := first, tail := first, cqTail := first, c3 := (Tbl.get Ring.unbound (s.part p).rings (64 * s.quartersPer - 1)).c3 } }) (hpart p)

theorem State.openPart_part_ne (s : State) {p q : Nat} (hq : q ≠ p) (first : Nat) :
    Safety.sansLog ((s.openPart p first).part q) = Safety.sansLog (s.part q) := by
  obtain ⟨b, u, -, ⟨-, hpart, -⟩, h⟩ := s.bindBootstrap_eq p first
  unfold State.openPart
  rw [h, State.modRing, State.part_modPart_ne _ hq, State.part_modPart_ne _ hq, hpart]

theorem State.length_of_kept {s t : State} (h : Kept s t) (hi : Safety.Inv s) : t.parts.length = 4 := (h.inv hi).parts

/-- What steps 1 to 3 of a reset leave of its partition: its confidential flag, its catalogue and its latest nonce. -/
theorem State.clearPart_part {s : State} {p : Nat} (hp : p < (s.destroyKeys p).parts.length) :
    ∃ c cat n, (s.clearPart p).part p = { Part.reset with confidential := c, catalogue := cat, nonce := n } :=
  ⟨_, _, _, State.part_modPart_self (s.destroyKeys p) hp⟩

/-- The generations that are not committed are free; but for the log the partition is otherwise as it was. -/
theorem State.freeUncommitted_part {s : State} {p : Nat} (hp : p < s.parts.length) :
    Safety.sansLog ((s.freeUncommitted p).part p) = { Safety.sansLog (s.part p) with
      catalogue := (s.part p).catalogue.map fun g => if g.state = .committed then g else Generation.free } := by
  have hlog : ∀ (l : List (Nat × Generation)) (t : State), OnlyData t (l.foldl (fun s x => s.log p { mkEvent 0x4D x.1 0 with addr := x.2.gen }) t) :=
    fun l t => only_foldl (fun u x hu => State.log_only u p _ hu) rfl l
  unfold State.freeUncommitted
  dsimp only
  rw [(OnlyData.parts (hlog _ _)).part, State.part_modPart_self _ hp]
  rfl

theorem State.softResets_eq (s : State) (l : List Nat) :
    ∃ ws, l.foldl (fun s q => s.modWindow q fun w => w.softReset q) s = { s with windows := ws } := State.modWindows_eq (fun q w => w.softReset q) l s

/-- The partition after its reset (R455). -/
theorem State.partitionReset_part {s : State} {p : Nat} (hi : Safety.Inv s) (hp : p < 4) : ∃ (b : Binding) (c : Bool) (cat : List Generation) (n : List Byte),
    b.cls = .S ∧ Safety.sansLog ((s.partitionReset p).part p) = { Part.reset with
      confidential := c, ready := true, nonce := n,
      catalogue := cat.map fun g => if g.state = .committed then g else Generation.free,
      rings := [(64 * (s.partitionReset p).quartersPer - 1, { Ring.unbound with binding := some b, head := 0, tail := 0, cqTail := 0 })] } := by
  have hclose := State.closePart_kept s p (Kept.refl s)
  have hlen1 := State.length_of_kept (State.destroyKeys_kept _ p hclose) hi
  have hlen2 := State.length_of_kept (State.clearPart_kept _ p hclose) hi
  have hlen3 := State.length_of_kept (State.freeUncommitted_kept _ p (State.clearPart_kept _ p hclose)) hi
  obtain ⟨c, cat, n, hclear⟩ := State.clearPart_part (s := s.closePart p) (p := p) (by omega)
  have hfree := State.freeUncommitted_part (s := (s.closePart p).clearPart p) (p := p) (by omega)
  unfold State.partitionReset
  dsimp only
  generalize ((s.closePart p).clearPart p).freeUncommitted p = u at hlen3 hfree ⊢
  obtain ⟨ws, hw⟩ := State.softResets_eq u (s.quarters p)
  rw [hw]
  obtain ⟨ps, ws', m, po, me, fs, hopen⟩ := State.openPart_eq { u with windows := ws } p 0
  obtain ⟨b, hb, hpart⟩ := State.openPart_part (s := { u with windows := ws }) (p := p) (by rw [hlen3]; exact hp) 0
  have hq : (State.openPart { u with windows := ws } p 0).quartersPer = u.quartersPer := by rw [hopen]
  have hrings : (u.part p).rings = [] := by
    have := congrArg Part.rings hfree
    rw [hclear] at this
    exact this
  refine ⟨b, c, cat, n, hb, ?_⟩
  have hsans : Safety.sansLog (u.part p) = { Part.reset with
      confidential := c, nonce := n, catalogue := cat.map fun g => if g.state = .committed then g else Generation.free } := by
    rw [hfree, hclear]
    rfl
  have hc3 : ((State.part { u with windows := ws } p).ring (64 * u.quartersPer - 1)).c3 = false := by
    show (Tbl.get Ring.unbound (u.part p).rings _).c3 = false
    rw [hrings]
    rfl
  have hput : ∀ r : Ring, Tbl.put (State.part { u with windows := ws } p).rings (64 * u.quartersPer - 1) r = [(64 * u.quartersPer - 1, r)] := by
    intro r
    show Tbl.put (u.part p).rings _ r = _
    rw [hrings]
    rfl
  rw [hpart, hq]
  show ({ Safety.sansLog (u.part p) with ready := _, rings := Tbl.put (State.part { u with windows := ws } p).rings (64 * u.quartersPer - 1) _ } : Part) = _
  rw [hput, hc3, hsans]
  rfl

end Sys2Proof.Machine
end

section
/-! PROOF. A reset requested at a register window, and what the STREAM, PARTITION and MODULE resets leave (R390, R455 to R458). -/
namespace Sys2Proof.Machine

variable {s : State} {path : Path} {q win : Nat}

/-- A reset requested by a path that reaches the window: it acts, or is a bad access at RESET_REQ. -/
theorem State.resetBy_of_reaches (h : s.reachesWindow path win = true) (hm : win ≠ 4 ∨ path = .smbus ∨ s.quartersPer = 4) {v : Nat} (hv : v < 128) :
    s.resetBy path win v = (s.resetRequest win (0xC1EA * 2 ^ 32 + v)).getD (s.badAccess win path true 0x6028) := by
  unfold State.resetBy
  rw [if_pos h, State.regWrite_of_taken rfl rfl hm]
  have hval : (BitVec.ofNat 64 (0xC1EA * 2 ^ 32 + v)).toNat = 0xC1EA * 2 ^ 32 + v := by
    rw [BitVec.toNat_ofNat]
    omega
  have hput : ∀ w : Word, s.regPut path win 0x6028 w = (s.resetRequest win w.toNat).getD (s.badAccess win path true 0x6028) := fun _ => rfl
  rw [hput, hval]

theorem State.reaches_of_pathReaches (h : s.pathReaches path q = true) : s.reachesWindow path q = true := by
  have hq := State.lt_four_of_pathReaches h
  unfold State.reachesWindow
  rw [if_neg (by omega), h]

theorem State.ask_stream (hq : q < 4) (cls : StreamClass) :
    s.resetRequest q (0xC1EA * 2 ^ 32 + (1 + 16 * codeOfClass cls)) = s.askStream (s.lowQ q) cls := by
  have h4 : decide (q = 4) = false := decide_eq_false (by omega)
  unfold State.resetRequest
  rw [h4]
  cases cls <;> rfl

theorem State.ask_partition (hq : q < 4) : s.resetRequest q (0xC1EA * 2 ^ 32 + 2) = s.askPartition (s.lowQ q) := by
  have h4 : decide (q = 4) = false := decide_eq_false (by omega)
  unfold State.resetRequest
  rw [h4]
  rfl

theorem State.ask_module : s.resetRequest 4 (0xC1EA * 2 ^ 32 + 3) = s.askModule := rfl

theorem codeOfClass_lt (cls : StreamClass) : codeOfClass cls < 7 := by cases cls <;> decide

theorem exec_streamReset (h : s.pathReaches path q = true) (cls : StreamClass) :
    exec (.streamReset path q cls) s = .next ((s.askStream (s.lowQ q) cls).getD (s.badAccess q path true 0x6028)) := by
  have hq := State.lt_four_of_pathReaches h
  have hc := codeOfClass_lt cls
  show execStreamReset path q cls s = _
  rw [execStreamReset, if_pos hq, State.resetBy_of_reaches (State.reaches_of_pathReaches h) (Or.inl (by omega)) (by omega), State.ask_stream hq]

theorem exec_partitionReset (h : s.pathReaches path q = true) :
    exec (.partitionReset path q) s = .next ((s.askPartition (s.lowQ q)).getD (s.badAccess q path true 0x6028)) := by
  have hq := State.lt_four_of_pathReaches h
  show execPartitionReset path q s = _
  rw [execPartitionReset, if_pos hq, State.resetBy_of_reaches (State.reaches_of_pathReaches h) (Or.inl (by omega)) (by decide), State.ask_partition hq]

theorem exec_moduleReset (h : s.reachesWindow path 4 = true) (hm : path = .smbus ∨ s.quartersPer = 4) :
    exec (.moduleReset path) s = .next (s.askModule.getD (s.badAccess 4 path true 0x6028)) := by
  show execModuleReset path s = _
  rw [execModuleReset, State.resetBy_of_reaches h (Or.inr hm) (by decide), State.ask_module]

theorem Tbl.get_singleton_self {α : Type} (d v : α) (i : Nat) : Tbl.get d [(i, v)] i = v := by simp [Tbl.get]

theorem Tbl.get_singleton_ne {α : Type} {d v : α} {i k : Nat} (h : k ≠ i) : Tbl.get d [(i, v)] k = d := by simp [Tbl.get, h]

/-- The boot stage at the start of a boot: 1, or 0 where the ROM does not match (R439). -/
theorem State.romStage (s : State) : (if (s.romMeasure != s.romDigest) = true then 0 else 1) = if s.romMeasure = s.romDigest then 1 else 0 := by
  by_cases h : s.romMeasure = s.romDigest
  · rw [if_pos h, h, bne_self_eq_false, if_neg (by decide)]
  · rw [if_neg h, if_pos (bne_iff_ne.mpr h)]

/-- After a STREAM reset the partition has no host keys and no bounce queue, and its rings are those that were emptied. -/
theorem State.streamReset_part (hi : Safety.Inv s) {p : Nat} (hp : p < 4) (cls : StreamClass) :
    (s.streamReset p cls).part p = { (s.streamEmptied p cls).part p with host := .none, bounce := [] } := by
  have hlen : (s.streamReset p cls).parts.length = 4 := State.length_of_kept (State.streamReset_kept s p cls (Kept.refl s)) hi
  have hparts : (s.streamReset p cls).parts = ((s.streamEmptied p cls).destroyHostKeys p).parts := State.destroyKeys_parts _ p
  have hlen' : (s.streamEmptied p cls).parts.length = 4 := by
    rw [← hlen, hparts]
    exact (State.modPart_parts_length ..).symm
  calc (s.streamReset p cls).part p
    _ = ((s.streamEmptied p cls).destroyHostKeys p).part p := by
      unfold State.part
      rw [hparts]
    _ = { (s.streamEmptied p cls).part p with host := .none, bounce := [] } := State.part_modPart_self _ (by omega)

/-- Settles O33: each reset completes with what it leaves, and one that a wider reset covers is a bad access. -/
theorem resetRequests : Obligations.ResetRequests := by
  unfold Obligations.ResetRequests
  refine ⟨?_, ?_, ?_, ?_, ?_, ?_⟩
  · intro path q cls s hr hf hi hd
    have hp : s.lowQ q < 4 := lt_of_le_of_lt (State.lowQ_le s q) (State.lt_four_of_pathReaches hr)
    have hask : s.askStream (s.lowQ q) cls = some (s.streamReset (s.lowQ q) cls) := by
      rw [State.askStream, if_neg (by rw [hf]; decide), if_neg (by rw [hd]; decide)]
    refine ⟨_, by rw [exec_streamReset hr, hask]; rfl, ?_, ?_, fun r b hb => ?_, rfl⟩
    · rw [State.streamReset_part hi hp]
    · rw [State.streamReset_part hi hp]
    · rw [State.streamReset_part hi hp]
      exact State.streamEmptied_ring hb
  · intro path q s hr hf hi hd
    have hp : s.lowQ q < 4 := lt_of_le_of_lt (State.lowQ_le s q) (State.lt_four_of_pathReaches hr)
    have hask : s.askPartition (s.lowQ q) = some (s.partitionReset (s.lowQ q)) := by
      rw [State.askPartition, if_neg (by rw [hf]; decide), if_neg (by rw [hd]; decide)]
    obtain ⟨b, c, cat, n, hb, hpart⟩ := State.partitionReset_part hi hp
    have hrings := congrArg Part.rings hpart
    have hepoch := congrArg Part.epoch hpart
    have hcat := congrArg Part.catalogue hpart
    refine ⟨_, by rw [exec_partitionReset hr, hask]; rfl, congrArg Part.packets hpart, congrArg Part.counters hpart, congrArg Part.members hpart,
      hepoch, congrArg Part.ready hpart, fun r hne => ?_, ⟨b, ?_, hb⟩, ?_⟩
    · exact (congrArg (fun t => Tbl.get Ring.unbound t r) hrings).trans (Tbl.get_singleton_ne hne)
    · exact (congrArg (fun t => Tbl.get Ring.unbound t _) hrings).trans (Tbl.get_singleton_self ..)
    · intro g hg
      obtain ⟨g', -, rfl⟩ := List.mem_map.mp (hcat ▸ hg)
      by_cases hgs : g'.state = .committed
      · rw [if_pos hgs]
        exact Or.inr hgs
      · rw [if_neg hgs]
        exact Or.inl rfl
  · intro path s hr hm hc hmain htrip
    have hask : s.askModule = some s.moduleReset := by rw [State.askModule, if_neg (by rw [hc]; decide)]
    refine ⟨_, by rw [exec_moduleReset hr hm, hask, Option.getD_some], ?_⟩
    unfold State.moduleReset
    rw [if_neg (by rw [hmain, htrip]; decide)]
    refine ⟨rfl, ?_, ?_, rfl, rfl, rfl, rfl, rfl, rfl, rfl, rfl, rfl, rfl, rfl, rfl, rfl, rfl, rfl, rfl, rfl⟩
    · exact Bool.eq_iff_iff.mpr (bne_iff_ne.trans decide_eq_true_iff.symm)
    · exact State.romStage s
  · intro path s hr hm hc hdown
    have hask : s.askModule = some s := by
      rw [State.askModule, if_neg (by rw [hc]; decide), State.moduleReset, if_pos]
      rcases hdown with h | h <;> simp [h]
    rw [exec_moduleReset hr hm, hask]
    rfl
  · intro path q cls s hr hf hi hd cmd hcmd
    have hq := State.lt_four_of_pathReaches hr
    have hbad := State.badAccess_recorded (s := s) (win := q) (by rw [hi.windows]; omega) path true (off := 0x6028) (by decide)
    have hcmds : cmd = .streamReset path q cls ∨ cmd = .partitionReset path q := by simpa using hcmd
    rcases hcmds with rfl | rfl
    · refine ⟨_, ?_, hbad⟩
      rw [exec_streamReset hr, State.askStream, if_neg (by rw [hf]; decide), if_pos hd]
      rfl
    · refine ⟨_, ?_, hbad⟩
      rw [exec_partitionReset hr, State.askPartition, if_neg (by rw [hf]; decide), if_pos hd]
      rfl
  · intro path s hr hm hi hc
    refine ⟨_, ?_, State.badAccess_recorded (win := 4) (by rw [hi.windows]; decide) path true (by decide)⟩
    rw [exec_moduleReset hr hm, State.askModule, if_pos hc]
    rfl

end Sys2Proof.Machine
end

section
/-! PROOF. The J4 sideband: register access by SMBus, configuration writes, and the unlock dialogue over the UART (R442, R467 to R473). -/
namespace Sys2Proof.Machine

variable {s : State}

theorem toLe_one (n : Nat) : toLe 1 n = [BitVec.ofNat 8 n] := rfl

theorem leNat_toLe_of_lt {n x : Nat} (h : x < 2 ^ (8 * n)) : leNat (toLe n x) = x := by rw [leNat_toLe, Nat.mod_eq_of_lt h]

theorem State.blockWrite_good (hv : s.vin = true) {payload : List Byte} {n : Nat} (hl : payload.length = n) (f : State → State) :
    s.blockWrite true payload n f = f s := by
  unfold State.blockWrite
  rw [if_neg (by rw [hv]; decide), if_neg (by rw [hl, bne_self_eq_false]; decide)]

theorem State.blockWrite_badPec (hv : s.vin = true) (payload : List Byte) (n : Nat) (f : State → State) :
    s.blockWrite false payload n f = s.emit .smbusNack := by
  unfold State.blockWrite
  rw [if_neg (by rw [hv]; decide), if_pos (by rfl)]

theorem State.blockWrite_badCount (hv : s.vin = true) {payload : List Byte} {n : Nat} (hl : payload.length ≠ n) (f : State → State) :
    s.blockWrite true payload n f = s.emit .smbusNack := by
  unfold State.blockWrite
  rw [if_neg (by rw [hv]; decide), if_pos (by rw [bne_iff_ne.mpr hl]; rfl)]

theorem regPayload_length (win off : Nat) (data : List Byte) : (Claims.regPayload win off data).length = 3 + data.length := by
  simp only [Claims.regPayload, List.length_append, toLe_length]

/-- The parts of a payload of REG_WRITE or REG_ADDR (Table 21.3). -/
theorem regPayload_parts (win off : Nat) (data : List Byte) : (Claims.regPayload win off data).take 1 = toLe 1 win
    ∧ (Claims.regPayload win off data).drop 1 = toLe 2 off ++ data ∧ (Claims.regPayload win off data).drop 3 = data := ⟨rfl, rfl, rfl⟩

theorem State.smbus_reaches (ha : s.aonUp = true) {win : Nat} (hw : win < 5) : s.reachesWindow .smbus win = true := by
  unfold State.reachesWindow State.pathReaches State.pathUp
  by_cases h4 : win = 4
  · rw [if_pos h4, ha]
    rfl
  · rw [if_neg h4, ha, decide_eq_true (show win < 4 by omega)]
    rfl

/-- What a REG_WRITE that the module takes does (R471). -/
theorem exec_regWrite (hv : s.vin = true) {win off : Nat} (v : Word) (hw : win < 256) (ho : off < 65536) :
    exec (.regWrite true (Claims.regPayload win off (toLe 8 v.toNat))) s =
      if s.aonUp = true ∧ win < 5 then exec (.registerWrite .smbus win off 8 v) s else .next s := by
  obtain ⟨hwin, hoff, hdata⟩ := regPayload_parts win off (toLe 8 v.toNat)
  show execRegWrite true _ s = _
  rw [execRegWrite, State.blockWrite_good hv (by rw [regPayload_length, toLe_length])]
  dsimp only
  rw [hwin, hoff, hdata, List.take_left' (toLe_length 2 off), leNat_toLe_of_lt (by omega), leNat_toLe_of_lt (by omega),
    leNat_toLe_of_lt (by exact v.isLt), BitVec.ofNat_toNat, BitVec.setWidth_eq]
  by_cases h : s.aonUp = true ∧ win < 5
  · rw [if_pos h, if_pos (by rw [h.1, decide_eq_true h.2]; rfl)]
    show _ = execRegisterWrite .smbus win off 8 v s
    unfold execRegisterWrite State.windowOf
    rw [if_pos (State.smbus_reaches h.1 h.2), Nat.mod_eq_of_lt ho]
  · rw [if_neg h, if_neg (by rw [Bool.and_eq_true, decide_eq_true_eq]; exact h)]

theorem exec_regAddr (hv : s.vin = true) {win off : Nat} (hw : win < 256) (ho : off < 65536) :
    exec (.regAddr true (Claims.regPayload win off [])) s = .next { s with smbusTarget := some (win, off) } := by
  obtain ⟨hwin, hoff, -⟩ := regPayload_parts win off []
  show execRegAddr true _ s = _
  rw [execRegAddr, State.blockWrite_good hv (n := 3) (regPayload_length win off [])]
  rw [hwin, hoff, List.append_nil, leNat_toLe_of_lt (by omega), leNat_toLe_of_lt (by omega)]

/-- A REG_READ with a good PEC answers what the latched target reads. -/
theorem exec_regRead (hv : s.vin = true) {r : State × Nat × List Byte} (hr : s.smbusRead = r) :
    exec (.regRead true) s = .next (r.1.emit (.smbusReply (toLe 1 r.2.1 ++ r.2.2))) := by
  subst hr
  show execRegRead true s = _
  rw [execRegRead, if_neg (by rw [hv]; decide), if_neg (by decide)]

/-- The three answers of a latched target (R471). -/
theorem State.smbusRead_target {win off : Nat} (ht : s.smbusTarget = some (win, off)) :
    (5 ≤ win → s.smbusRead = (s, 1, List.replicate 8 0xFF))
    ∧ (win < 5 → s.aonUp = false → off / 4096 % 8 ≠ 4 → off / 4096 % 8 ≠ 5 → s.smbusRead = (s, 2, List.replicate 8 0))
    ∧ (win < 5 → s.aonUp = true → off % 8 = 0 → s.smbusRead = (s.readClears win off, 0, toLe 8 (s.regValue win off).toNat)) := by
  have hread : s.smbusRead = if 5 ≤ win then (s, 1, List.replicate 8 0xFF)
      else if !s.aonUp && (regDecode off).1 != 4 && (regDecode off).1 != 5 then (s, 2, List.replicate 8 0)
      else ((s.regRead .smbus win off 8).1, if off % 8 = 0 then 0 else 1, (s.regRead .smbus win off 8).2) := by
    unfold State.smbusRead
    rw [ht]
  refine ⟨fun h => ?_, fun h ha h4 h5 => ?_, fun h ha h8 => ?_⟩
  · rw [hread, if_pos h]
  · have hb : (regDecode off).1 ≠ 4 ∧ (regDecode off).1 ≠ 5 := by
      unfold regDecode
      dsimp only
      split <;> omega
    rw [hread, if_neg (by omega), if_pos (by rw [ha, bne_iff_ne.mpr hb.1, bne_iff_ne.mpr hb.2]; rfl)]
  · rw [hread, if_neg (by omega), if_neg (by rw [ha]; exact Bool.false_ne_true), if_pos h8, State.regRead_whole s .smbus win h8]

theorem State.alertN_of_exists (h : ∃ w ∈ s.windows, w.summary &&& w.alertEn ≠ 0) : s.alertN = true := by
  obtain ⟨w, hw, hne⟩ := h
  exact List.any_eq_true.mpr ⟨w, hw, decide_eq_true hne⟩

/-- Settles O34: register access by SMBus, the alert response and the pins of GEO_ID. -/
theorem sidebandAccess : Obligations.SidebandAccess := by
  unfold Obligations.SidebandAccess
  intro s hv
  refine ⟨fun win off v hw ho => ⟨exec_regWrite hv v hw ho, exec_regAddr hv hw ho, fun ht => ?_⟩, fun ht => ?_, ?_, fun payload => ⟨?_, ?_, fun hl => ?_⟩,
    fun ha hal => ?_, fun pins => ?_, fun t ht => ⟨?_, ?_, ?_⟩⟩
  · obtain ⟨hno, hoff, hon⟩ := State.smbusRead_target ht
    exact ⟨fun h => exec_regRead hv (hno h), fun h ha h4 h5 => exec_regRead hv (hoff h ha h4 h5), fun h ha h8 => exec_regRead hv (hon h ha h8)⟩
  · exact exec_regRead hv (r := (s, 3, List.replicate 8 0)) (by rw [State.smbusRead, ht])
  · show execRegRead false s = _
    rw [execRegRead, if_neg (by rw [hv]; decide), if_pos (by decide)]
  · exact congrArg Host.Outcome.next (State.blockWrite_badPec hv payload 11 _)
  · exact congrArg Host.Outcome.next (State.blockWrite_badPec hv payload 3 _)
  · exact congrArg Host.Outcome.next (State.blockWrite_badCount hv hl _)
  · show execAlertResponse s = _
    rw [execAlertResponse, if_pos ⟨hv, ha, State.alertN_of_exists hal⟩, toLe_one]
    rfl
  · show execGeoIdSample pins s = _
    rw [execGeoIdSample]
    cases hp : s.pwrEn
    · rw [if_pos ⟨hv, rfl⟩, if_neg (by decide)]
    · rw [if_neg (by simp), if_pos rfl]
  · show execRegRead true t = _
    rw [execRegRead, if_pos (by rw [ht]; decide)]
  · show execAlertResponse t = _
    rw [execAlertResponse, if_neg (by rw [ht]; simp)]
  · show execCfgStatus true t = _
    rw [execCfgStatus, if_pos (by rw [ht]; decide)]

/-- Settles O35: the configuration commands. -/
theorem configurationWrites : Obligations.ConfigurationWrites := by
  unfold Obligations.ConfigurationWrites
  intro s hv ha
  refine ⟨fun b => ?_, fun off data ho hl => ?_, fun b => ?_, fun flashOk hst => ⟨fun hbad => ?_, fun hok hf => ?_, fun hok hf => ?_⟩, ?_,
    fun payload => ⟨?_, ?_, ?_, ?_⟩⟩
  · show execCfgOpen true [b] s = _
    rw [execCfgOpen, State.blockWrite_good hv (n := 1) rfl]
    by_cases h : b = 0x5A ∧ s.cfg.state ≠ 1
    · rw [if_pos h, if_pos (by rw [ha, bne_iff_ne.mpr h.2, h.1]; rfl)]
    · rw [if_neg h, if_neg]
      simp only [ha, Bool.true_and, Bool.and_eq_true, bne_iff_ne, beq_iff_eq, List.cons.injEq, and_true]
      exact fun hh => h hh.symm
  · have hlen : (toLe 2 off ++ data).length = 34 := by rw [List.length_append, toLe_length, hl]
    show execCfgData true _ s = _
    rw [execCfgData, State.blockWrite_good hv hlen]
    dsimp only
    rw [List.take_left' (toLe_length 2 off), List.drop_left' (toLe_length 2 off), leNat_toLe_of_lt (by omega)]
    by_cases h : s.cfg.state ≠ 1 ∧ off % 32 = 0 ∧ off < 8192
    · rw [if_pos h, if_pos (by rw [ha, bne_iff_ne.mpr h.1, decide_eq_true h.2]; rfl)]
    · rw [if_neg h, if_neg]
      simpa only [ha, Bool.true_and, Bool.and_eq_true, bne_iff_ne, decide_eq_true_eq] using h
  · show execCfgClose true [b] s = _
    rw [execCfgClose, State.blockWrite_good hv (n := 1) rfl]
    dsimp only
    by_cases h : b = 0xA5
    · rw [if_pos h, if_pos (by rw [ha, h]; rfl)]
    · rw [if_neg h, if_neg]
      simpa only [ha, Bool.true_and, beq_iff_eq, List.cons.injEq, and_true] using h
  · show execCfgWriteDone flashOk s = _
    unfold execCfgWriteDone
    rw [if_neg (not_not.mpr hst), if_pos (by rw [hbad]; rfl)]
  · show execCfgWriteDone flashOk s = _
    unfold execCfgWriteDone
    rw [if_neg (not_not.mpr hst), if_neg (by rw [hok]; decide), if_neg (by rw [hf]; decide)]
  · show execCfgWriteDone flashOk s = _
    unfold execCfgWriteDone
    rw [if_neg (not_not.mpr hst), if_neg (by rw [hok]; decide), if_pos hf]
  · show execCfgStatus true s = _
    rw [execCfgStatus, if_neg (by rw [hv]; decide), if_neg (by rw [ha]; decide), toLe_one]
    rfl
  · exact congrArg Host.Outcome.next (State.blockWrite_badPec hv payload 1 _)
  · exact congrArg Host.Outcome.next (State.blockWrite_badPec hv payload 34 _)
  · exact congrArg Host.Outcome.next (State.blockWrite_badPec hv payload 1 _)
  · show execCfgStatus false s = _
    rw [execCfgStatus, if_neg (by rw [hv]; decide), if_pos (by rfl)]

/-! The unlock dialogue (R442, R473). -/

theorem crcBit_lt {c : Nat} (h : c < 2 ^ 32) : crcBit 0x82F63B78 c < 2 ^ 32 := by
  unfold crcBit
  split
  · exact Nat.xor_lt_two_pow (by omega) (by decide)
  · omega

theorem crcByte_lt {c : Nat} (h : c < 2 ^ 32) (b : Byte) : crcByte 0x82F63B78 c b < 2 ^ 32 := by
  have hb : b.toNat < 2 ^ 8 := b.isLt
  unfold crcByte
  exact List.foldlRecOn (motive := (· < 2 ^ 32)) (List.range 8) _ (Nat.xor_lt_two_pow h (by omega)) fun c hc _ _ => crcBit_lt hc

/-- A CRC-32C is a value of 32 bits. -/
theorem crc32c_lt (bs : List Byte) : crc32c bs < 2 ^ 32 :=
  Nat.xor_lt_two_pow (List.foldlRecOn (motive := (· < 2 ^ 32)) bs _ (by decide) fun _ hc b _ => crcByte_lt hc b) (by decide)

/-- The two frames that the module takes are taken apart into what they were made of. -/
theorem parseUart_uartFrame {type : Nat} {payload : List Byte} (ht : type < 256) (hl : payload.length < 65536)
    (hwant : (if type = 1 then some 0 else if type = 3 then some 2420 else none) = some payload.length) :
    parseUart (uartFrame type payload) = some (type, payload) := by
  have htype : leNat (((uartFrame type payload).drop 1).take 1) = type := leNat_toLe_of_lt (n := 1) (by omega)
  have hlen : leNat (((uartFrame type payload).drop 2).take 2) = payload.length := leNat_toLe_of_lt (n := 2) (by omega)
  have hbody : ((uartFrame type payload).drop 1).take (3 + payload.length) = toLe 1 type ++ toLe 2 payload.length ++ payload :=
    List.take_left' (by simp only [List.length_append, toLe_length])
  have hdrop : (uartFrame type payload).drop 4 = payload ++ toLe 4 (crc32c (toLe 1 type ++ toLe 2 payload.length ++ payload)) := rfl
  have hcrc : leNat ((uartFrame type payload).drop (4 + payload.length)) = crc32c (toLe 1 type ++ toLe 2 payload.length ++ payload) := by
    rw [← List.drop_drop, hdrop, List.drop_left, leNat_toLe_of_lt (crc32c_lt _)]
  have hsize : (uartFrame type payload).length = payload.length + 8 := by
    simp only [uartFrame, List.length_append, List.length_cons, toLe_length]
    omega
  unfold parseUart
  dsimp only
  rw [htype, hlen, hbody, hcrc, hwant, hdrop, List.take_left, if_pos]
  rw [decide_eq_true hsize, beq_self_eq_true, beq_self_eq_true]
  rfl

theorem parse_request : parseUart (uartFrame 1 []) = some (1, []) := parseUart_uartFrame (by decide) (by decide) rfl

theorem parse_answer {sig : List Byte} (h : sig.length = 2420) : parseUart (uartFrame 3 sig) = some (3, sig) :=
  parseUart_uartFrame (by decide) (by omega) (by rw [h]; rfl)

/-- A frame that arrives while the module runs. -/
theorem State.uartArrives_of_runs (h : s.ready = true ∧ s.fatal = false ∧ s.tripped = false) (frame : List Byte) :
    s.uartArrives frame = match parseUart frame with
      | none => s.uartRefuse 4
      | some (1, _) => s.unlockAsked
      | some (_, sig) => s.unlockAnswered sig := by
  obtain ⟨hr, hf, ht⟩ := h
  exact if_neg (by rw [hr, hf, ht]; decide)

theorem State.uartArrives_of_not_runs (h : ¬(s.ready = true ∧ s.fatal = false ∧ s.tripped = false)) (frame : List Byte) : s.uartArrives frame = s := by
  refine if_pos ?_
  revert h
  cases s.ready <;> cases s.fatal <;> cases s.tripped <;> decide

/-- Settles O36: the unlock dialogue. -/
theorem unlockDialogue : Obligations.UnlockDialogue := by
  unfold Obligations.UnlockDialogue
  intro s cmd hcmd refused runs ch
  have hexec : ∀ frame, exec (cmd frame) s = .next (s.uartArrives frame) := by
    have hcmds : cmd = Instr.unlockReq ∨ cmd = Instr.answer := by simpa using hcmd
    rcases hcmds with rfl | rfl
    · exact fun _ => rfl
    · exact fun _ => rfl
  refine ⟨fun hn frame => by rw [hexec, State.uartArrives_of_not_runs hn], fun hr => ⟨fun t ht hlt => ?_, fun hage => ?_, fun sig hs => ⟨fun hc => ?_, fun c hc => ⟨fun hbad => ?_, fun hok => ?_⟩⟩,
    fun frame hf => ?_⟩⟩
  · rw [hexec, State.uartArrives_of_runs hr, parse_request]
    show Host.Outcome.next s.unlockAsked = _
    rw [State.unlockAsked, ht]
    dsimp only
    rw [if_pos hlt]
    rfl
  · rw [hexec, State.uartArrives_of_runs hr, parse_request]
    show Host.Outcome.next s.unlockAsked = _
    rw [State.unlockAsked]
    cases hl : s.lastRefused with
    | none => rfl
    | some t =>
      dsimp only
      rw [if_neg (Nat.not_lt.mpr (hage t hl))]
      rfl
  · rw [hexec, State.uartArrives_of_runs hr, parse_answer hs]
    show Host.Outcome.next (s.unlockAnswered sig) = _
    unfold State.unlockAnswered
    rw [hc]
    rfl
  · rw [hexec, State.uartArrives_of_runs hr, parse_answer hs]
    show Host.Outcome.next (s.unlockAnswered sig) = _
    unfold State.unlockAnswered
    rw [hc]
    dsimp only
    rw [if_neg (by rw [hbad]; decide)]
    rfl
  · have hans : s.unlockAnswered sig =
        { { s with challenge := none }.unlockScrub with debugUnlocked := true, jtagOpen := true }.emit (.uart (uartFrame 4 [])) := by
      unfold State.unlockAnswered
      rw [hc]
      exact if_pos hok
    refine ⟨_, ?_, rfl, rfl, rfl⟩
    rw [hexec, State.uartArrives_of_runs hr, parse_answer hs]
    exact congrArg Host.Outcome.next hans
  · rw [hexec, State.uartArrives_of_runs hr, hf]
    rfl

end Sys2Proof.Machine
end

section
/-! PROOF. Power rails, boot and the fatal state (R411, R412, R439, R445, R446, R449, R450, R468). -/
namespace Sys2Proof.Machine

open Safety (OnlyData)

variable {s : State}

/-- What a MODULE reset leaves of a module that is powered and has not tripped. -/
theorem State.moduleReset_of_powered (hm : s.mainUp = true) (ht : s.tripped = false) :
    s.moduleReset.ready = false ∧ s.moduleReset.fatal = decide (s.romMeasure ≠ s.romDigest)
      ∧ s.moduleReset.bootStage = (if s.romMeasure = s.romDigest then 1 else 0)
      ∧ s.moduleReset.boot = some s.presentEnv ∧ s.moduleReset.bootHeld = false
      ∧ s.moduleReset.parts = s.parts.map (fun pt => { Part.reset with catalogue := pt.catalogue, confidential := pt.confidential })
      ∧ s.moduleReset.ports = s.ports.map (fun p => { Port.reset false with retired := p.retired, width := p.width })
      ∧ s.moduleReset.mem = s.mem ∧ s.moduleReset.mclk = s.mclk ∧ s.moduleReset.dimms = s.dimms ∧ s.moduleReset.channels = s.channels := by
  unfold State.moduleReset
  rw [if_neg (by rw [hm, ht]; decide)]
  exact ⟨rfl, Bool.eq_iff_iff.mpr (bne_iff_ne.trans decide_eq_true_iff.symm), State.romStage s, rfl, rfl, rfl, rfl, rfl, rfl, rfl, rfl⟩

theorem State.moduleReset_of_tripped (ht : s.tripped = true) : s.moduleReset = s := if_pos (by rw [ht, Bool.or_true])

theorem State.unpowered_railsDown (s : State) : Claims.RailsDown s s.unpowered :=
  ⟨rfl, rfl, rfl, rfl, rfl, rfl, rfl, rfl, rfl, rfl, rfl, rfl, rfl, rfl, rfl, rfl, rfl, rfl⟩

/-- A boot is fatal exactly where the ROM does not read well or does not match (R439). -/
theorem romBad_eq (ok : Bool) (m d : List Byte) : (!ok || m != d) = decide (ok = false ∨ m ≠ d) := by
  rw [Bool.eq_iff_iff, decide_eq_true_iff, Bool.or_eq_true, Bool.not_eq_true', bne_iff_ne]

/-- Settles O37: each event of the supply and of PERST_N. -/
theorem powerRails : Obligations.PowerRails := by
  unfold Obligations.PowerRails
  refine ⟨fun mv s h => ?_, fun mv s h => ?_, fun ms s h hp => ⟨s.unpowered, ?_, s.unpowered_railsDown, rfl, rfl⟩,
    fun kind s hp => ⟨{ s.unpowered with pwrEn := true, converterFault := true }, ?_, s.unpowered_railsDown, rfl, rfl⟩, fun ms s h => ?_, fun kind s h => ?_,
    fun ms env s h hv => ?_, fun ms env s h => ?_, fun us s h hm hc => ?_, fun us s h hm hc ht => ?_, fun us s h hm ht hc => ?_, fun us s h => ?_⟩
  · show execVinPresent mv s = _
    rw [execVinPresent, if_pos h]
  · show execVinPresent mv s = _
    rw [execVinPresent, if_neg (by omega)]
  · show execPwrEnFall ms s = _
    rw [execPwrEnFall, if_pos ⟨h, hp⟩]
  · show execPowerFault kind s = _
    rw [execPowerFault, if_pos hp]
  · show execPwrEnFall ms s = _
    rw [execPwrEnFall, if_neg]
    rintro ⟨h10, hon⟩
    rcases h with h | h
    · omega
    · rw [h] at hon
      contradiction
  · show execPowerFault kind s = _
    rw [execPowerFault, if_neg (by rw [h]; decide)]
  · have hgo : ¬(ms < 10 ∨ s.vin = false) := by
      rintro (h' | h')
      · omega
      · rw [h'] at hv
        contradiction
    refine ⟨_, if_neg hgo, rfl, rfl, rfl, rfl, rfl, rfl, rfl, rfl, rfl, rfl, rfl, rfl, rfl, ?_, ?_, rfl, rfl, rfl, rfl, rfl, rfl, rfl, fun f => ?_, rfl, rfl, rfl, rfl⟩
    · exact romBad_eq _ _ _
    · exact if_congr (iff_of_eq (Bool.or_eq_true ..)) rfl rfl
    · show f ∈ (s.faults.filter (·.stuck)).filter (s.sameDimm env.dimms) ↔ _
      rw [List.mem_filter, List.mem_filter, and_assoc]
  · exact if_pos h
  · have hgo : ¬(us < 100 ∨ s.mainUp = false) := by rw [hm]; simpa using h
    show execPerstNRise us s = _
    rw [execPerstNRise, if_neg hgo, if_pos hc]
  · have hgo : ¬(us < 100 ∨ s.mainUp = false) := by rw [hm]; simpa using h
    obtain ⟨h1, h2, h3, h4, h5, h6, h7, h8, h9, h10, h11⟩ := State.moduleReset_of_powered hm ht
    refine ⟨{ s.moduleReset with perstLow := false }, ?_, rfl, h1, h2, h3, h4, h5, h6, h7, h8, h9, h10, h11⟩
    show execPerstNRise us s = _
    rw [execPerstNRise, if_neg hgo, if_neg (by rw [hc]; decide)]
  · have hgo : ¬(us < 100 ∨ s.mainUp = false) := by rw [hm]; simpa using h
    show execPerstNRise us s = _
    rw [execPerstNRise, if_neg hgo, if_neg (by rw [hc]; decide), State.moduleReset_of_tripped ht]
  · exact if_pos h

/-! The fatal state (R412). -/

theorem runOpcode_fatal (hf : s.fatal = true) (code : Nat) (variant : Ctx → Bool) (work : Ctx → WorkOut) (p : PacketRef) :
    runOpcode code variant work p s = s := by
  unfold runOpcode
  split
  · rfl
  · rw [if_neg (by rw [hf]; simp)]

theorem runThen_fatal (hf : s.fatal = true) (code : Nat) (variant : Ctx → Bool) (work : Ctx → WorkOut) (eff : Ctx → State → State) (p : PacketRef) :
    runThen code variant work eff p s = s := by
  unfold runThen
  split
  · rfl
  · rw [if_neg (by rw [hf]; simp)]

theorem runProduct_fatal (hf : s.fatal = true) (code : Nat) (job : Ctx → Job) (p : PacketRef) : runProduct code job p s = s := by
  unfold runProduct
  split
  · rfl
  · rw [if_neg (by rw [hf]; simp)]

theorem execMatmul_fatal (hf : s.fatal = true) (p : PacketRef) : execMatmul p s = .next s := by
  unfold execMatmul
  rw [runOpcode_fatal hf, runProduct_fatal hf]
  split
  · rw [ite_self]
  · rfl

theorem execSpsp_fatal (hf : s.fatal = true) (p : PacketRef) : execSpsp p s = .next s := by
  unfold execSpsp
  rw [runOpcode_fatal hf, runProduct_fatal hf]
  split
  · split
    · rw [ite_self]
    · rfl
  · rfl

theorem opcodeRows_fatal (hf : s.fatal = true) (p : PacketRef) : ∀ row ∈ Claims.opcodeRows p, exec row.cmd s = .next s := by
  unfold Claims.opcodeRows
  simp only [List.forall_mem_cons, List.not_mem_nil, false_imp_iff, implies_true, and_true]
  refine ⟨?configGet, ?gangForm, ?gangDissolve, ?matmul, ?spsp, ?predictActive, ?compress, ?maskedit, ?twinBuild, ?eltwise, ?reduceDim,
    ?softmaxBwd, ?normBwd, ?quantize, ?updateWeight, ?dress, ?windowExpand, ?copyTensor, ?epochSetAdvance, ?epochSetJoin, ?decodeVideo, ?patchify,
    ?shufflePlan, ?layerScaleSet, ?layerScaleUnbind, ?emulateSet, ?retireUnit, ?reinstatePassed, ?reinstateFailed⟩
  case matmul => exact execMatmul_fatal hf p
  case spsp => exact execSpsp_fatal hf p
  all_goals exact congrArg Host.Outcome.next (runOpcode_fatal hf _ _ _ p)

theorem productRows_fatal (hf : s.fatal = true) (p : PacketRef) : ∀ row ∈ Claims.productRows p, exec row.1 s = .next s := by
  unfold Claims.productRows
  simp only [List.forall_mem_cons, List.not_mem_nil, false_imp_iff, implies_true, and_true]
  refine ⟨execMatmul_fatal hf p, ?_, ?_, execSpsp_fatal hf p, ?_, ?_⟩
  all_goals exact congrArg Host.Outcome.next (runProduct_fatal hf _ _ p)

theorem retryHeld_fatal (hf : s.fatal = true) (why : Hold → Bool) (p : PacketRef) : retryHeld why p s = s := by
  unfold retryHeld
  split
  · rfl
  · split
    · rw [if_neg (by rw [hf]; simp)]
    · rfl

theorem State.mayFetch_fatal (hf : s.fatal = true) (p ring : Nat) : s.mayFetch p ring = false := by simp [State.mayFetch, hf]

theorem State.mayIssue_fatal (hf : s.fatal = true) (p ring : Nat) (h : Header) : s.mayIssue p ring h = false := by simp [State.mayIssue, hf]

theorem execSlotFetch_fatal (hf : s.fatal = true) (part ring : Nat) : execSlotFetch part ring s = .next s := by
  unfold execSlotFetch
  dsimp only
  split
  · rfl
  · rw [if_neg (by rw [State.mayFetch_fatal hf]; simp)]

theorem execPacketIssue_fatal (hf : s.fatal = true) (part ring : Nat) : execPacketIssue part ring s = .next s := by
  unfold execPacketIssue
  dsimp only
  split
  · rw [if_neg (by rw [State.mayIssue_fatal hf]; decide)]
  · rfl

theorem execPacketComplete_fatal (hf : s.fatal = true) (p : PacketRef) : execPacketComplete p s = .next s := by
  unfold execPacketComplete
  split
  · rfl
  · rw [if_neg (by rw [hf]; simp)]

theorem execPartitionChange_fatal (hf : s.fatal = true) : execPartitionChange s = .next s := by
  unfold execPartitionChange
  split
  · rfl
  · exact if_pos (Or.inr (Or.inl hf))

theorem execWatchdog (h : s.aonUp = true ∧ s.fatal = false) :
    (if s.aonUp = true ∧ s.fatal = false then (.next (s.goFatal 9) : Host.Outcome State Fault Refusal) else .next s)
      = .next { s.modWindow 4 (fun w => { w with summary := w.summary ||| 512 }) with fatal := true } := by
  rw [if_pos h]
  rfl

/-- Settles O39: the watchdog and the monitor, and every command that would move a packet. -/
theorem fatalHalts : Obligations.FatalHalts := by
  unfold Obligations.FatalHalts
  intro s
  refine ⟨fun cause => ?_, fun hf part ring p => ⟨?_, opcodeRows_fatal hf p, productRows_fatal hf p, fun row hrow => ?_, fun row hrow => ?_,
    fun res units d => ⟨?_, ?_⟩⟩⟩
  · have hno : s.aonUp = false ∨ s.fatal = true → ¬(s.aonUp = true ∧ s.fatal = false) := by
      rintro (h | h) ⟨ha, hf⟩
      · exact Bool.false_ne_true (h.symm.trans ha)
      · exact Bool.false_ne_true (hf.symm.trans h)
    simp only [List.forall_mem_cons, List.not_mem_nil, false_imp_iff, implies_true, and_true]
    exact ⟨⟨fun ha hf => execWatchdog ⟨ha, hf⟩, fun h => if_neg (hno h)⟩, ⟨fun ha hf => execWatchdog ⟨ha, hf⟩, fun h => if_neg (hno h)⟩⟩
  · simp only [List.forall_mem_cons, List.not_mem_nil, false_imp_iff, implies_true, and_true]
    refine ⟨execSlotFetch_fatal hf part ring, execPacketIssue_fatal hf part ring, execPacketComplete_fatal hf p, ?_, ?_, ?_, ?_, ?_,
      execPartitionChange_fatal hf⟩
    · exact if_neg (by rw [hf]; simp)
    · exact if_pos (Or.inr (Or.inr hf))
    · exact if_pos (Or.inr (Or.inr hf))
    · exact if_pos (Or.inr (Or.inr hf))
    · exact if_pos (Or.inr (Or.inl hf))
  · rw [settingRows_run p row hrow s, runThen_fatal hf]
  · rw [(holdRows_retry p s row hrow).1, retryHeld_fatal hf]
  · exact if_pos (by rw [hf, Bool.or_true, Bool.true_or])
  · exact if_pos (by rw [hf, Bool.or_true, Bool.true_or])

/-! Boot (Table 20.3). -/

/-- What a boot settles before it records what it found and binds the bootstrap rings. -/
def State.bootFacts (s : State) : Bool × Nat × Option BootEnv × Nat × Bool × Bool × Nat × BoardConfig :=
  (s.ready, s.bootStage, s.boot, s.bootMs, s.configDefault, s.fatal, s.quartersPer, s.board)

theorem bootFacts_only {t : State} (h : OnlyData s t) : t.bootFacts = s.bootFacts := by
  have h' : Safety.sansData t = Safety.sansData s := h
  have hfacts := congrArg State.bootFacts h'
  exact hfacts

theorem bootFacts_log (s : State) (p : Nat) (r : LogRecord) : (s.log p r).bootFacts = s.bootFacts := bootFacts_only (State.log_only s p r rfl)

theorem bootFacts_logQuarter (s : State) (q : Nat) (r : LogRecord) : (s.logQuarter q r).bootFacts = s.bootFacts := bootFacts_log s _ r

theorem bootFacts_logAll (s : State) (r : LogRecord) : (s.logAll r).bootFacts = s.bootFacts := fold_same _ _ (fun s _ => bootFacts_log s _ r) _ s

theorem bootFacts_memEvent (s : State) (ev a position status ring : Nat) : (s.memEvent ev a position status ring).bootFacts = s.bootFacts :=
  bootFacts_only (State.memEvent_only s ev a position status ring rfl)

theorem bootFacts_retireArray (s : State) (a ring : Nat) : (s.retireArray a ring).bootFacts = s.bootFacts := by
  unfold State.retireArray
  dsimp only
  split
  · rfl
  · split
    · rw [bootFacts_logQuarter]
      rfl
    · rw [bootFacts_logQuarter]
      rfl

theorem bootFacts_retireSlice (s : State) (u ring : Nat) : (s.retireSlice u ring).bootFacts = s.bootFacts := by
  unfold State.retireSlice
  dsimp only
  split
  · rfl
  · rw [bootFacts_retireArray, bootFacts_logQuarter]
    rfl

theorem bootFacts_freeUncommitted (s : State) (p : Nat) : (s.freeUncommitted p).bootFacts = s.bootFacts :=
  fold_same State.bootFacts _ (fun s _ => bootFacts_log s _ _) _ _

theorem bootFacts_openPart (s : State) (p first : Nat) : (s.openPart p first).bootFacts = s.bootFacts := by
  obtain ⟨ps, ws, m, po, me, fs, h⟩ := State.openPart_eq s p first
  rw [h]
  rfl

theorem bootFacts_updateSetPoints (s : State) : s.updateSetPoints.bootFacts = s.bootFacts := rfl

theorem bootFacts_ite {c : Prop} [Decidable c] {t u : State} (ht : t.bootFacts = s.bootFacts) (hu : u.bootFacts = s.bootFacts) :
    (if c then t else u).bootFacts = s.bootFacts := by
  split
  · exact ht
  · exact hu

/-- What the stages before 5 keep: the fatal flag, and the layout once the partitions are formed. -/
def State.fatalLayout (s : State) : Bool × Nat := (s.fatal, s.quartersPer)

theorem fatal_applyFuses (s : State) : s.applyFuses.1.fatal = s.fatal := by
  refine foldl_view (fun acc : State × List (Nat × MemKind × Nat × Nat) => acc.1.fatal) s.fuseScheduled _ fun acc x => ?_
  dsimp only
  split <;> rfl

theorem fatal_reloadRemaps (s : State) : s.reloadRemaps.1.fatal = s.fatal := fold_same State.fatal State.unmapGranule (fun _ _ => rfl) _ s

theorem fatal_bootChannels (s : State) (cold : Bool) (l f : Option (List (Nat × List Byte))) : (s.bootChannels cold l f).fatal = s.fatal := by
  unfold State.bootChannels
  split <;> rfl

theorem fatalLayout_bootZero (s : State) (zeroed : List Nat) : (s.bootZero zeroed).fatalLayout = s.fatalLayout :=
  (foldl_view State.fatalLayout _ _).trans (foldl_view State.fatalLayout _ _)

/-- A boot that runs to its end: READY in the layout of its configuration. -/
theorem State.bootRun_facts (hf : s.fatal = false) (env : BootEnv) (ms : Nat) :
    ∃ board, (s.bootRun env ms).bootFacts
      = (true, 7, none, min ms 0xFFFFFFFF, !s.imageValid s.flashImage, false, layoutQuarters board.layout, board) := by
  unfold State.bootRun
  dsimp only
  generalize (if s.bootModule.isNone = true then _ else _ : BoardConfig) = board
  refine ⟨board, ?_⟩
  have hfuses : (if s.bootModule.isNone = true then s.applyFuses else (s, [])).1.fatal = false := by
    split
    · rw [fatal_applyFuses, hf]
    · exact hf
  generalize (if s.bootModule.isNone = true then s.applyFuses else (s, [])) = fused at hfuses
  generalize h3 : fused.1.reloadRemaps.1.bootChannels _ _ _ = s3
  have hf3 : s3.fatal = false := by rw [← h3, fatal_bootChannels, fatal_reloadRemaps, hfuses]
  generalize h4 : (s3.bootForm board.layout board.conf).bootZero _ = s4
  have hf4 : s4.fatalLayout = (false, layoutQuarters board.layout) := by
    rw [← h4, fatalLayout_bootZero]
    exact congrArg (fun f => (f, layoutQuarters board.layout)) hf3
  generalize h5 : ({ s4 with board := board, configDefault := _, ports := _, stacksOff := _, ready := true, bootStage := 7, bootMs := _, boot := none,
                              bootModule := none } : State) = s5
  have hf5 : s5.bootFacts = (true, 7, none, min ms 0xFFFFFFFF, !s.imageValid s.flashImage, false, layoutQuarters board.layout, board) := by
    rw [← h5]
    exact congrArg (fun f : Bool × Nat => (true, 7, none, min ms 0xFFFFFFFF, !s.imageValid s.flashImage, f.1, f.2, board)) hf4
  have hlog : ∀ (l : List (Nat × Nat)) (r : Nat × Nat → LogRecord) (t : State),
      (l.foldl (fun s x => s.logQuarter (x.1 / 2) (r x)) t).bootFacts = t.bootFacts := fun l r t => fold_same _ _ (fun s _ => bootFacts_logQuarter s _ _) l t
  rw [bootFacts_updateSetPoints, fold_same _ _ (fun s p => bootFacts_openPart s p 0), fold_same _ _ bootFacts_freeUncommitted, ← hf5]
  have hfused : ((fused.1.reloadRemaps.2).foldl (fun s u => s.logQuarter (u / 2) (mkEvent 0x52 u 0))
      (fused.2.foldl (fun s x => s.memEvent x.1 (s.addrOf x.2.1 x.2.2.1 (64 * x.2.2.2)) 0 0 0xFFFF) s5)).bootFacts = s5.bootFacts :=
    (fold_same _ _ (fun s u => bootFacts_logQuarter s _ _) _ _).trans (fold_same State.bootFacts _ (fun s x => bootFacts_memEvent s _ _ _ _ _) _ _)
  refine (fun h => bootFacts_ite h ((bootFacts_logAll _ _).trans h)) ((fold_same State.bootFacts _ (fun t i => ?_) _ _).trans ?_)
  · exact bootFacts_ite rfl (bootFacts_ite (bootFacts_logQuarter ..) (bootFacts_ite (bootFacts_logQuarter ..) rfl))
  · rw [fold_same _ _ (fun s u => bootFacts_retireSlice s u _), fold_same _ _ (fun s a => bootFacts_retireArray s a _)]
    exact bootFacts_ite ((hlog _ _ _).trans hfused) hfused

/-- Settles O38: a boot that is not held ends READY, or in the fatal state. -/
theorem bootBecomesReady : Obligations.BootBecomesReady := by
  unfold Obligations.BootBecomesReady
  have hgo : ∀ s : State, s.mainUp = true → s.fatal = false → s.bootHeld = false → s.ready = false →
      ¬(s.mainUp = false ∨ s.fatal = true ∨ s.bootHeld = true ∨ s.ready = true) := by
    intro s hm hf hh hr
    rw [hm, hf, hh, hr]
    decide
  refine ⟨fun ms env s hb hm hf hh hr hok => ?_, fun ms env s hb hm hf hh hr hok => ?_, fun ms s h => ?_⟩
  · obtain ⟨board, hfacts⟩ := State.bootRun_facts hf env ms
    have hrun : exec (.bootReady ms) s = .next (s.bootRun env ms) := by
      show execBootReady ms s = _
      unfold execBootReady
      rw [hb]
      dsimp only
      rw [if_neg (hgo s hm hf hh hr), if_neg (by rw [hok]; decide)]
    refine ⟨_, hrun, ?_⟩
    generalize s.bootRun env ms = t at hfacts
    have hboard := congrArg (·.2.2.2.2.2.2.2) hfacts
    refine ⟨congrArg (·.1) hfacts, congrArg (·.2.1) hfacts, congrArg (·.2.2.1) hfacts, congrArg (·.2.2.2.1) hfacts, congrArg (·.2.2.2.2.1) hfacts,
      congrArg (·.2.2.2.2.2.1) hfacts, (congrArg (·.2.2.2.2.2.2.1) hfacts).trans ?_⟩
    exact congrArg (fun b : BoardConfig => layoutQuarters b.layout) hboard.symm
  · refine ⟨{ s with fatal := true }, ?_, rfl, hr, rfl⟩
    show execBootReady ms s = _
    unfold execBootReady
    rw [hb]
    dsimp only
    rw [if_neg (hgo s hm hf hh hr), if_pos (by rw [hok]; decide)]
  · show execBootReady ms s = _
    unfold execBootReady
    split
    · rfl
    next env hb =>
      rw [if_pos]
      exact h.resolve_left (by rw [hb]; exact Option.some_ne_none _)

end Sys2Proof.Machine
end

section
/-! PROOF. Throttling and clocks, low power, and changes of layout (R305, R421 to R425, R448, R452 to R454, R460, R461). -/
namespace Sys2Proof.Machine

open Safety (OnlyData OnlyWork)

variable {s : State}

/-! Throttling and clocks. -/

theorem State.half_modHalf_self {h : Nat} (hl : h < s.halves.length) (f : Half → Half) : (s.modHalf h f).half h = f (s.half h) := by
  unfold State.half State.modHalf
  dsimp only
  rw [List.getElem?_modify_eq, List.getElem?_eq_getElem hl]
  rfl

theorem State.half_modHalf_ne {h h' : Nat} (hne : h ≠ h') (f : Half → Half) : (s.modHalf h' f).half h = s.half h := by
  unfold State.half State.modHalf
  dsimp only
  simp only [List.getElem?_modify, if_neg (Ne.symm hne)]
  cases s.halves[h]? <;> rfl

/-- The conditions of a step down: power, current or temperature over its limit (Table 16.6). -/
theorem throttleWhy_ne_zero (sn : Sensors) (tj : Int) : throttleWhy sn tj ≠ 0 ↔ 3300 < sn.powerW ∨ 6200 < sn.current10mA ∨ 840 ≤ tj := by
  unfold throttleWhy
  by_cases h1 : 3300 < sn.powerW <;> by_cases h2 : 6200 < sn.current10mA <;> by_cases h3 : 840 ≤ tj <;> simp [h1, h2, h3]

/-- A half after a tick (R453). -/
theorem Half.tick_spec (x : Half) (sn : Sensors) (tj : Int) :
    let above := 3300 < sn.powerW ∨ 6200 < sn.current10mA ∨ 840 ≤ tj
    let low := sn.powerW < 3200 ∧ sn.current10mA < 6000 ∧ tj < 800
    (above → 320 ≤ x.setPoint - 20 * x.steps → (x.tick sn tj).steps = x.steps + 1 ∧ (x.tick sn tj).sinceStepUs = 0)
    ∧ (above → x.setPoint - 20 * x.steps < 320 → (x.tick sn tj).steps = x.steps)
    ∧ (¬above → low → 0 < x.steps → 1000 ≤ x.sinceStepUs + 10 → (x.tick sn tj).steps = x.steps - 1 ∧ (x.tick sn tj).sinceStepUs = 0)
    ∧ (¬above → ¬low ∨ x.steps = 0 ∨ x.sinceStepUs + 10 < 1000 → (x.tick sn tj).steps = x.steps)
    ∧ (x.tick sn tj).aclk = x.aclk ∧ (x.tick sn tj).setPoint = x.setPoint := by
  intro above low
  unfold Half.tick Half.target
  dsimp only
  refine ⟨fun ha h => ?_, fun ha h => ?_, fun ha hl h0 h1 => ?_, fun ha h => ?_, ?_⟩
  · rw [if_pos ((throttleWhy_ne_zero sn tj).mpr ha), if_pos h]
    exact ⟨rfl, rfl⟩
  · rw [if_pos ((throttleWhy_ne_zero sn tj).mpr ha), if_neg (by omega)]
  · rw [if_neg fun hw => ha ((throttleWhy_ne_zero sn tj).mp hw), if_pos ⟨h0, h1, hl⟩]
    exact ⟨rfl, rfl⟩
  · rw [if_neg fun hw => ha ((throttleWhy_ne_zero sn tj).mp hw), if_neg]
    rintro ⟨h0, h1, hl⟩
    rcases h with h | h | h
    · exact h hl
    · omega
    · omega
  · split <;> split <;> exact ⟨rfl, rfl⟩

theorem mem_setIns {l : List Nat} {k n : Nat} : k ∈ setIns l n ↔ k = n ∨ k ∈ l := by
  induction l with
  | nil => simp [setIns]
  | cons x l ih =>
    unfold setIns
    split
    · next h => simp [h]
    · split
      · exact List.mem_cons
      · rw [List.mem_cons, ih, List.mem_cons, or_left_comm]

/-! The work that a message's loss ends leaves the halves that are down as they are. -/

theorem State.workEffects_setPacket_work (p : Nat) (s : State) (k : Packet) (st : Nat) (up : Bool) (w : WorkOut) (k' : Packet) :
    OnlyWork p s ((s.workEffects k st up w).setPacket p k') :=
  OnlyWork.trans (State.workEffects_work p s k st up w) (State.setPacket_work p _ k')

theorem halvesDown_work {t : State} {p : Nat} (h : OnlyWork p s t) : t.halvesDown = s.halvesDown := by
  have h' : Safety.sansWork p t = Safety.sansWork p s := h
  have hd := congrArg State.halvesDown h'
  exact hd

theorem halvesDown_finish (s : State) (p : Nat) (k : Packet) (w : WorkOut) : (s.finish p k w).halvesDown = s.halvesDown :=
  halvesDown_work (State.workEffects_setPacket_work p s k _ _ _ _)

theorem halvesDown_landStore (s : State) (p : Nat) (k : Packet) (r : Remote) (field : Nat) (c : Ctx) (st : StoreOut) :
    (s.landStore p k r field c st).halvesDown = s.halvesDown :=
  halvesDown_work (State.workEffects_setPacket_work p s k _ _ _ _)

theorem halvesDown_compact (s : State) (p : Nat) (k : Packet) (c : Ctx) (r : Remote) (codes : List Nat) :
    (s.compact p k c r codes).halvesDown = s.halvesDown := halvesDown_finish s p _ _

theorem halvesDown_combineBwdEnd (s : State) (p : Nat) (k : Packet) (c : Ctx) (r : Remote) (codes : List Nat) :
    (s.combineBwdEnd p k c r codes).halvesDown = s.halvesDown := halvesDown_finish s p _ _

theorem halvesDown_combineEnd (s : State) (p : Nat) (k : Packet) (c : Ctx) (r : Remote) (codes : List Nat) :
    (s.combineEnd p k c r codes).halvesDown = s.halvesDown := by
  unfold State.combineEnd
  dsimp only
  split
  · exact halvesDown_landStore s p k r 3 c _
  · split
    · exact (halvesDown_finish _ p _ _).trans (halvesDown_landStore s p k r 3 c _)
    · exact (halvesDown_finish _ p _ _).trans (halvesDown_landStore s p k r 3 c _)

theorem halvesDown_endFailed (s : State) (p : Nat) (k : Packet) (code : Nat) : (s.endFailed p k code).halvesDown = s.halvesDown := by
  unfold State.endFailed
  split
  · split
    · split
      · rfl
      · exact halvesDown_compact ..
    · split
      · rfl
      · exact halvesDown_combineEnd ..
    · split
      · rfl
      · exact halvesDown_combineBwdEnd ..
    all_goals rfl
  · rfl

theorem halvesDown_stopPacket (s : State) (p : Nat) (k : Packet) : (s.stopPacket p k).halvesDown = s.halvesDown := by
  unfold State.stopPacket
  split
  · exact halvesDown_endFailed ..
  · split <;> rfl

theorem halvesDown_loseMessage (s : State) (m : FabricMsg) : (s.loseMessage m).halvesDown = s.halvesDown := by
  unfold State.loseMessage
  split
  · rfl
  · dsimp only
    split
    · rfl
    · split
      · exact halvesDown_stopPacket ..
      · rfl

/-- A half that goes down is listed with those that were. -/
theorem halvesDown_dropHalf (s : State) (h : Nat) : (s.dropHalf h).halvesDown = setIns s.halvesDown h :=
  fold_same State.halvesDown _ halvesDown_loseMessage _ _

theorem halvesDown_trip (s : State) : 0 ∈ s.trip.halvesDown ∧ 1 ∈ s.trip.halvesDown := by
  unfold State.trip
  dsimp only
  rw [halvesDown_dropHalf, halvesDown_dropHalf]
  exact ⟨mem_setIns.mpr (Or.inr (mem_setIns.mpr (Or.inl rfl))), mem_setIns.mpr (Or.inl rfl)⟩

/-- A step of 20 MHz towards a goal, and not past it. -/
theorem aclk_towards (a goal : Nat) :
    (a ≤ goal → (if a < goal then min goal (a + 20) else if goal < a then max goal (a - 20) else a) = min goal (a + 20))
      ∧ (goal ≤ a → (if a < goal then min goal (a + 20) else if goal < a then max goal (a - 20) else a) = max goal (a - 20)) := by
  refine ⟨fun h => ?_, fun h => ?_⟩ <;> split_ifs <;> omega

/-- Both halves after a tick, each with its own junction. -/
theorem State.half_tick (hl : s.halves.length = 2) (sn : Sensors) {h : Nat} (hh : h < 2) :
    ((s.modHalf 0 fun x => x.tick sn sn.tjE).modHalf 1 fun x => x.tick sn sn.tjW).half h = (s.half h).tick sn (if h = 0 then sn.tjE else sn.tjW) := by
  have hh' : h = 0 ∨ h = 1 := by omega
  rcases hh' with rfl | rfl
  · rw [State.half_modHalf_ne (by decide), State.half_modHalf_self (by omega), if_pos rfl]
  · rw [State.half_modHalf_self, State.half_modHalf_ne (by decide), if_neg (by decide)]
    show 1 < (s.halves.modify 0 _).length
    rw [List.length_modify, hl]
    decide

/-- Settles O40: a tick, a step of ACLK, a trip, and a clock that is lost. -/
theorem clocksAndThrottling : Obligations.ClocksAndThrottling := by
  unfold Obligations.ClocksAndThrottling
  intro s hlen
  refine ⟨fun sn hv ha => ?_, fun h hh hm hc => ?_, fun cause hm ht hcause => ?_, fun clock hclock => ⟨fun hlt hm => ?_, fun h42 ha => ?_⟩⟩
  · have hexec : exec (.throttleTick sn) s = .next ((State.modHalf { s with sensors := sn, overTicks :=
        if 3300 < sn.powerW ∧ (s.halves.all fun x => decide (x.aclk ≤ 300)) = true then s.overTicks + 1 else 0 } 0
        fun x => x.tick sn sn.tjE).modHalf 1 fun x => x.tick sn sn.tjW) := by
      show execThrottleTick sn s = _
      unfold execThrottleTick
      dsimp only
      rw [if_neg (by rw [hv]; decide), if_neg (by rw [ha]; decide)]
    generalize hu : ({ s with sensors := sn, overTicks := _ } : State) = u at hexec
    have hsensors : u.sensors = sn := by rw [← hu]
    have hhalves : u.halves = s.halves := by rw [← hu]
    refine ⟨_, hexec, hsensors, fun h hh => ?_⟩
    rw [State.half_tick (by rw [hhalves, hlen]) sn hh, show u.half h = s.half h by unfold State.half; rw [hhalves]]
    exact Half.tick_spec (s.half h) sn _
  · refine ⟨_, if_pos ⟨hh, hm, hc⟩, rfl, ?_, State.half_modHalf_ne (by omega) _⟩
    rw [State.half_modHalf_self (by omega)]
    exact aclk_towards _ _
  · have hgo : ¬((!s.mainUp || s.tripped) = true) := by rw [hm, ht]; decide
    have hends : ∀ u : State, u.trip.tripped = true ∧ u.trip.mainUp = false ∧ (0 ∈ u.trip.halvesDown ∧ 1 ∈ u.trip.halvesDown) :=
      fun u => ⟨rfl, rfl, halvesDown_trip u⟩
    show ∃ t, execThermalTrip cause s = .next t ∧ _
    unfold execThermalTrip
    rw [if_neg hgo]
    rcases hcause with ⟨h, rfl, hh⟩ | ⟨rfl, hov⟩
    · have hh' : h = 0 ∨ h = 1 := by omega
      rcases hh' with rfl | rfl
      · exact ⟨_, rfl, hends _⟩
      · exact ⟨_, rfl, hends _⟩
    · exact ⟨_, if_pos hov, hends _⟩
  · have hgo : ¬(42 < clock ∨ (if clock = 42 then s.aonUp else s.mainUp) = false ∨ s.clocksLost.contains clock = true) := by
      rw [if_neg (by omega), hm, List.contains_iff_mem]
      rintro (h | h | h)
      · omega
      · contradiction
      · exact hclock h
    show execPllLossOfLock clock s = _
    unfold execPllLossOfLock
    rw [if_neg hgo]
    exact if_neg (by omega)
  · have hgo : ¬(42 < clock ∨ (if clock = 42 then s.aonUp else s.mainUp) = false ∨ s.clocksLost.contains clock = true) := by
      rw [if_pos h42, ha, List.contains_iff_mem]
      rintro (h | h | h)
      · omega
      · contradiction
      · exact hclock h
    show execPllLossOfLock clock s = _
    unfold execPllLossOfLock
    rw [if_neg hgo]
    exact if_pos h42

/-! Low power (R448, R459 to R461). -/

/-- The commands of QUIESCE and STANDBY on a partition that is quiet, in a module that is not fatal. -/
theorem State.lowPower_goes {p : Nat} (hp : s.isPart p = true) (hf : s.fatal = false) (hq : (s.part p).packets = []) :
    ¬(s.isPart p = false ∨ s.quiet p = false ∨ s.fatal = true) := by
  rw [hp, hf, State.quiet, hq]
  decide

theorem State.lowPower_waits {p : Nat} (hq : (s.part p).packets ≠ []) : s.isPart p = false ∨ s.quiet p = false ∨ s.fatal = true :=
  Or.inr (Or.inl (by rw [State.quiet]; exact Bool.eq_false_iff.mpr fun h => hq (List.isEmpty_iff.mp h)))

theorem exec_quiesceReached_idle {p : Nat} (h : (s.part p).pstate = .active ∨ (s.part p).pstate = .quiesce) :
    exec (.quiesceReached p) s = .next s ∧ exec (.standbyReached p) s = .next s ∧ exec (.standbyWakeDone p) s = .next s := by
  have hq : execQuiesceReached p s = .next s := by
    unfold execQuiesceReached
    split
    · rfl
    · rcases h with h | h <;> rw [h]
  have hs : execStandbyReached p s = .next s := by
    unfold execStandbyReached
    split
    · rfl
    · rcases h with h | h <;> rw [h]
  have hw : execStandbyWakeDone p s = .next s := by
    unfold execStandbyWakeDone
    split
    · rfl
    · rcases h with h | h <;> rw [h]
  exact ⟨hq, hs, hw⟩

theorem State.wakeMemory_parts (s : State) (p : Nat) : (s.wakeMemory p).parts = s.parts :=
  (foldl_view State.parts _ _).trans (foldl_view State.parts _ _)

theorem State.openPart_parts_length (s : State) (p first : Nat) : (s.openPart p first).parts.length = s.parts.length := by
  obtain ⟨b, u, -, ⟨-, -, hlen⟩, h⟩ := s.bindBootstrap_eq p first
  unfold State.openPart
  rw [h, State.modPart_parts_length, State.modRing, State.modPart_parts_length, hlen]

/-- A partition that has been opened and made ACTIVE. -/
theorem State.openPart_active {p : Nat} (hp : p < s.parts.length) :
    let t := (s.openPart p 0).modPart p Part.activate
    (t.part p).pstate = .active ∧ (t.part p).pstateReq = 0 ∧ (t.part p).ready = true
      ∧ ((t.part p).ring (64 * t.quartersPer - 1)).binding.isSome = true := by
  intro t
  obtain ⟨ps, ws, m, po, me, fs, hopen⟩ := State.openPart_eq s p 0
  obtain ⟨b, -, hpart⟩ := State.openPart_part hp 0
  have hq : t.quartersPer = s.quartersPer := by
    show (s.openPart p 0).quartersPer = _
    rw [hopen]
  have ht : t.part p = ((s.openPart p 0).part p).activate := State.part_modPart_self _ (by rw [State.openPart_parts_length]; exact hp)
  have hrings := congrArg Part.rings hpart
  rw [ht, hq]
  refine ⟨rfl, rfl, congrArg Part.ready hpart, ?_⟩
  show (Tbl.get Ring.unbound ((s.openPart p 0).part p).rings _).binding.isSome = true
  rw [show ((s.openPart p 0).part p).rings = _ from hrings, Tbl.get_put, if_pos rfl]
  rfl

/-- Whether nothing of a partition works on a bench (R448). -/
theorem benchIdle_iff (pt : Part) (bench : Nat) :
    ((pt.progress.any fun x => match x.1 with | .array a | .vector a => a / 8 == bench | _ => false) = false
      ∧ (pt.packets.any fun k => (k.phase == .ready || k.phase == .running)
          && (match k.snap with | some sn => sn.leaves.any fun a => a / 8 == bench | none => false)) = false)
    ↔ (∀ x ∈ pt.progress, ∀ a, x.1 = .array a ∨ x.1 = .vector a → a / 8 ≠ bench)
      ∧ ∀ k ∈ pt.packets, k.phase = .ready ∨ k.phase = .running → ∀ sn, k.snap = some sn → ∀ a ∈ sn.leaves, a / 8 ≠ bench := by
  refine and_congr ?_ ?_
  · rw [List.any_eq_false]
    refine forall₂_congr fun x _ => ?_
    cases x.1 <;> simp
  · rw [List.any_eq_false]
    refine forall₂_congr fun k _ => ?_
    cases k.snap <;> simp

/-- Settles O41: the commands of QUIESCE and STANDBY, the wake, and the gating of benches. -/
theorem lowPowerStates : Obligations.LowPowerStates := by
  unfold Obligations.LowPowerStates
  intro p s hp hf
  refine ⟨fun hq => ⟨fun hst => ?_, fun hst => ?_⟩, fun hq => ⟨if_pos (State.lowPower_waits hq), if_pos (State.lowPower_waits hq)⟩,
    exec_quiesceReached_idle, fun hm hst hlen => ?_, fun bench hb hm => ?_⟩
  · show execQuiesceReached p s = _
    unfold execQuiesceReached
    rw [if_neg (State.lowPower_goes hp hf hq), hst]
    rfl
  · show execStandbyReached p s = _
    unfold execStandbyReached
    rw [if_neg (State.lowPower_goes hp hf hq), hst]
    rfl
  · have hgo : ¬(s.isPart p = false ∨ s.fatal = true ∨ s.mainUp = false) := by
      rw [hp, hf, hm]
      decide
    have hexec : ∃ u : State, u.parts = s.parts ∧ exec (.standbyWakeDone p) s = .next ((u.openPart p 0).modPart p Part.activate) := by
      show ∃ u : State, u.parts = s.parts ∧ execStandbyWakeDone p s = _
      unfold execStandbyWakeDone
      rw [if_neg hgo, hst]
      refine ⟨_, ?_, rfl⟩
      refine (fold_same State.parts _ (fun t i => ?_) _ _).trans (State.wakeMemory_parts _ p)
      split <;> rfl
    obtain ⟨u, hu, hexec⟩ := hexec
    exact ⟨_, hexec, State.openPart_active (by rw [hu]; exact hlen)⟩
  · have hidle := benchIdle_iff (s.part (s.lowQ (bench / 8))) bench
    refine ⟨fun h => if_pos ⟨hb, hm, hf, hidle.mpr h⟩, fun h => if_neg ?_⟩
    rintro ⟨-, -, -, hg⟩
    exact h (hidle.mp hg)

/-! Changes of layout (R421 to R425). -/

/-- A PARTITION_SET that is ready: it fails where it differs from those pending, is pending where it reassigns a quarter of its own partition, and
otherwise ends at once. -/
theorem exec_partitionSet {p : PacketRef} {k : Packet} {c : Ctx} (h : Claims.Ready s p 0x0B04 k c) :
    exec (.partitionSet p) s =
      let a := c.layoutAsk
      let ls := s.pendingLayouts.map (·.2)
      if ls.any fun l => l.layout != a.1 || l.conf != a.2.1 || l.ptag != a.2.2 then
        .next (s.finish p.part k (WorkOut.of { Result.of [ERR_DESCRIPTOR] 0 0 0 with
          field := if ls.any fun l => l.layout != a.1 then 0 else if ls.any fun l => l.conf != a.2.1 then 1 else 2 }))
      else if (s.quarters p.part).any fun q => (s.reassigned a.1 a.2.1).contains q then
        .next ((s.setPacket p.part { k with phase := .pending }).modPart p.part fun pt =>
          { pt with pendingLayout := some (pt.pendingLayout.getD ⟨k.ring, k.idx, k.hdr.tag, a.1, a.2.1, a.2.2⟩) })
      else .next (s.finish p.part k (WorkOut.of Result.empty)) := by
  show execPartitionSet p s = _
  unfold execPartitionSet
  simp only [h.found, h.ctx]
  exact if_pos ⟨h.opcode, h.phase, h.alive⟩

/-- Work without an access, when its engine runs. -/
theorem State.finish_ends {p : PacketRef} {k : Packet} (hk : s.packet p = some k) (he : s.engineDown k = false) (r : Result) :
    Claims.Works s (s.finish p.part k (WorkOut.of r)) p (WorkOut.of r) { k with phase := .finished, res := Claims.result s k (WorkOut.of r) } :=
  State.finish_works hk (reached_of_no_access he r)

/-- Settles O42: PARTITION_SET, the change once all concerned have asked, and its completion. -/
theorem layoutChanges : Obligations.LayoutChanges := by
  unfold Obligations.LayoutChanges
  refine ⟨fun p s k c h => ?_, fun s ms hf => ⟨fun p l rest hl hc => ⟨fun hall => ?_, fun hall => ?_⟩, fun hl => ?_, fun c hc => ?_, fun hc => ?_⟩⟩
  · have hexec := exec_partitionSet h
    dsimp only at hexec ⊢
    refine ⟨fun hagree => ?_, fun hdiffer => ?_⟩
    · have hsame : ¬((s.pendingLayouts.map (·.2)).any fun l => l.layout != c.layoutAsk.1 || l.conf != c.layoutAsk.2.1 || l.ptag != c.layoutAsk.2.2) = true := by
        rw [Bool.not_eq_true, List.any_eq_false]
        intro l hl
        obtain ⟨h1, h2, h3⟩ := hagree l hl
        rw [h1, h2, h3]
        simp
      rw [if_neg hsame] at hexec
      have hmine : ((s.quarters p.part).any fun q => (s.reassigned c.layoutAsk.1 c.layoutAsk.2.1).contains q) = true
          ↔ ∃ q ∈ s.quarters p.part, q ∈ s.reassigned c.layoutAsk.1 c.layoutAsk.2.1 := by
        simp only [List.any_eq_true, List.contains_iff_mem]
      refine ⟨fun hno => ⟨_, ?_, fun he => State.finish_ends h.found he _⟩, fun hyes => ?_⟩
      · rw [hexec, if_neg fun hh => hno (hmine.mp hh)]
      · rw [hexec, if_pos (hmine.mpr hyes)]
    · have hlayout : ((s.pendingLayouts.map (·.2)).any fun l => l.layout != c.layoutAsk.1) = true := by
        obtain ⟨l, hl, hne⟩ := hdiffer
        exact List.any_eq_true.mpr ⟨l, hl, bne_iff_ne.mpr hne⟩
      have hany : ((s.pendingLayouts.map (·.2)).any fun l => l.layout != c.layoutAsk.1 || l.conf != c.layoutAsk.2.1 || l.ptag != c.layoutAsk.2.2) = true := by
        obtain ⟨l, hl, hne⟩ := List.any_eq_true.mp hlayout
        exact List.any_eq_true.mpr ⟨l, hl, by rw [hne]; rfl⟩
      rw [if_pos hany, if_pos hlayout] at hexec
      exact ⟨_, hexec, fun he => State.finish_ends h.found he _⟩
  · have hgo : ¬(s.change.isSome = true ∨ s.fatal = true ∨ ((s.concerned l).all fun p => (s.part p).pendingLayout.isSome) = false) := by
      rw [hc, hf, List.all_eq_true.mpr hall]
      decide
    have hexec : exec .partitionChange s = .next { (s.concerned l).foldl (State.scrubPart · true) s with
        change := some ⟨l.layout, l.conf, s.reassigned l.layout l.conf, (dedupNat ((s.reassigned l.layout l.conf).map fun q =>
          q / layoutQuarters l.layout * layoutQuarters l.layout)).map fun n => (n, ((s.part (s.lowQ n)).pendingLayout.map (·.tag)).getD 0)⟩,
        changeStart := s.mclk } := by
      show execPartitionChange s = _
      unfold execPartitionChange
      rw [hl]
      exact if_neg hgo
    exact ⟨_, hexec, rfl, rfl, rfl, _, rfl, rfl, rfl, rfl⟩
  · show execPartitionChange s = _
    unfold execPartitionChange
    rw [hl]
    refine if_pos (Or.inr (Or.inr (Bool.eq_false_iff.mpr fun h => hall ?_)))
    exact List.all_eq_true.mp h
  · show execPartitionChange s = _
    unfold execPartitionChange
    rw [hl]
    rfl
  · show execPartitionChangeComplete ms s = _
    unfold execPartitionChangeComplete
    rw [hc]
    exact if_neg (by rw [hf]; decide)
  · show execPartitionChangeComplete ms s = _
    unfold execPartitionChangeComplete
    rw [hc]

end Sys2Proof.Machine
end

section
/-! PROOF. Lanug ports: what a port that sends keeps, retrains, and the flits that arrive (R308 to R316). -/
namespace Sys2Proof.Machine

open Safety (OnlyWork OnlyData)

/-! What sending makes of a port. -/

/-- A port that has sent flits: its streams, its receiving side and its state are as they were, and its replay buffer has only grown. -/
def Pumped (p q : Port) : Prop :=
  ∃ tq ws ad ow tn r cr ks rp, ks.isSome = p.keys.isSome
    ∧ q = { p with txQueue := tq, waits := ws, ackDue := ad, owed := ow, txNext := tn, replay := p.replay ++ r, credits := cr, keys := ks, replays := rp }

theorem Pumped.refl (p : Port) : Pumped p p :=
  ⟨p.txQueue, p.waits, p.ackDue, p.owed, p.txNext, [], p.credits, p.keys, p.replays, rfl, by rw [List.append_nil]⟩

theorem Pumped.trans {p q r : Port} (h : Pumped p q) (g : Pumped q r) : Pumped p r := by
  obtain ⟨_, _, _, _, _, r1, _, ks, _, hks, rfl⟩ := h
  obtain ⟨tq, ws, ad, ow, tn, r2, cr, ks', rp, hks', rfl⟩ := g
  exact ⟨tq, ws, ad, ow, tn, r1 ++ r2, cr, ks', rp, hks'.trans hks, by dsimp only; rw [List.append_assoc]⟩

theorem Pumped.told (p : Port) : Pumped p p.told :=
  ⟨p.txQueue, p.waits, _, _, p.txNext, [], p.credits, p.keys, p.replays, rfl, by rw [List.append_nil]; rfl⟩

theorem Pumped.replay_prefix {p q : Port} (h : Pumped p q) : p.replay <+: q.replay := by
  obtain ⟨_, _, _, _, _, r, _, _, _, -, rfl⟩ := h
  exact List.prefix_append _ _

/-- What stays of a port that sends. -/
theorem Pumped.fields {p q : Port} (h : Pumped p q) : q.state = p.state ∧ q.width = p.width ∧ q.retired = p.retired ∧ q.faulty = p.faulty
    ∧ q.switching = p.switching ∧ q.rxLast = p.rxLast ∧ q.rxAny = p.rxAny ∧ q.discarding = p.discarding ∧ q.rxStream = p.rxStream
    ∧ q.keys.isSome = p.keys.isSome := by
  obtain ⟨_, _, _, _, _, _, _, _, _, hks, rfl⟩ := h
  exact ⟨rfl, rfl, rfl, rfl, rfl, rfl, rfl, rfl, rfl, hks⟩

theorem Pumped.sendFlit (p : Port) (q : List TxMsg) (ws : List Nat) (f : TxFlit) : Pumped p ({ p with txQueue := q, waits := ws }.sendFlit f).1 := by
  refine ⟨q, ws, _, _, _, _, _, _, _, ?_, rfl⟩
  exact Option.isSome_map ..

theorem Pumped.pump (fuel : Nat) (p : Port) : Pumped p (p.pump fuel).1 := by
  induction fuel generalizing p with
  | zero => exact Pumped.refl p
  | succ fuel ih =>
    unfold Port.pump
    split
    · exact Pumped.refl p
    · split
      · exact Pumped.refl p
      · exact (Pumped.sendFlit p _ _ _).trans (ih _)

variable {s : State} {i : Nat}

theorem emitAll_eq (s : State) {α : Type} (f : α → Out) (l : List α) : l.foldl (fun s x => s.emit (f x)) s = { s with out := s.out ++ l.map f } := by
  induction l generalizing s with
  | nil => rw [List.foldl_nil, List.map_nil, List.append_nil]
  | cons x l ih =>
    rw [List.foldl_cons, ih]
    unfold State.emit
    dsimp only
    rw [List.append_assoc, List.map_cons]
    rfl

theorem State.modPort_modPort (s : State) (i : Nat) (f g : Port → Port) : (s.modPort i f).modPort i g = s.modPort i fun p => g (f p) := by
  unfold State.modPort
  dsimp only
  rw [List.modify_modify_eq]
  rfl

theorem State.modPort_congr {f g : Port → Port} (h : f (s.port i) = g (s.port i)) : s.modPort i f = s.modPort i g := by
  unfold State.modPort
  congr 1
  by_cases hi : i < s.ports.length
  · rw [List.modify_eq_set_getElem?, List.modify_eq_set_getElem?]
    unfold State.port at h
    simp only [List.getElem?_eq_getElem hi, Option.getD_some] at h
    simp [List.getElem?_eq_getElem hi, h]
  · rw [List.modify_eq_self (by omega), List.modify_eq_self (by omega)]

/-- A port that sends what it can: the port itself, and the flits that go out. -/
theorem State.pumpPort_eq (s : State) (i : Nat) : ∃ (q : Port) (bs : List (List Byte)), Pumped (s.port i) q
    ∧ s.pumpPort i = { s.modPort i (fun _ => q) with out := s.out ++ bs.map (Out.flit i) } :=
  ⟨_, _, Pumped.pump _ _, emitAll_eq (s.modPort i _) (Out.flit i) _⟩

/-- A port that replays: what stands in its replay buffer goes out again, and then what it can send besides (R313). -/
theorem State.replayPort_eq (hi : i < s.ports.length) : ∃ (q : Port) (bs : List (List Byte)), Pumped (s.port i) q
    ∧ s.replayPort i = { s.modPort i (fun _ => q) with
        out := s.out ++ (s.port i).replay.map (fun x => Out.flit i x.2.2) ++ bs.map (Out.flit i) } := by
  unfold State.replayPort
  dsimp only
  rw [emitAll_eq s (fun x : Nat × TxFlit × List Byte => Out.flit i x.2.2)]
  generalize hu : State.modPort { s with out := _ } i _ = u
  obtain ⟨q, bs, hq, h⟩ := u.pumpPort_eq i
  refine ⟨q, bs, ?_, ?_⟩
  · have hp : Pumped (s.port i) (u.port i) := by
      rw [← hu, State.port_modPort (by exact hi)]
      exact ⟨_, _, _, _, _, [], _, _, _, rfl, by rw [List.append_nil]; rfl⟩
    exact hp.trans hq
  · rw [h, ← hu, State.modPort_modPort]
    rfl

/-! A port that comes up (R315, R316). -/

/-- The port at the end of a training, before a change of mode and before it replays. -/
def Port.raised (p : Port) (lanes : List Nat) : Port :=
  let q := { p with state := .up, width := lanes.length, retired := ([0, 1, 2, 3] : List Nat).filter fun l => !lanes.contains l, faulty := [],
                    failRun := 0, replayTimes := [] }
  if p.state == .training then
    { q with rxLast := 0, rxAny := false, discarding := false, txNext := 0, replay := [], failSeq := 0, tagFailing := false,
             credits := [64, 64, 384, 8], owed := [0, 0, 0, 0], waits := [0, 0, 0, 0], rxStream := [[], [], [], []], ackDue := false }
  else q

theorem ports_of_only {t : State} (h : OnlyData s t) : t.ports = s.ports := by
  have h' : Safety.sansData t = Safety.sansData s := h
  have hports := congrArg State.ports h'
  exact hports

theorem State.logQuarter_ports (s : State) (q : Nat) (r : LogRecord) : (s.logQuarter q r).ports = s.ports := ports_of_only (State.logQuarter_only s q r rfl)

theorem ite_ports {b : Prop} [Decidable b] {t u : State} (ht : t.ports = s.ports) (hu : u.ports = s.ports) : (if b then t else u).ports = s.ports := by
  split
  · exact ht
  · exact hu

theorem State.bridgeEvent_ports (s : State) (fn : Nat) : (s.bridgeEvent fn).ports = s.ports := by
  unfold State.bridgeEvent State.raiseMsix
  exact ite_ports (ite_ports rfl rfl) rfl

theorem State.port_of_ports {t : State} (h : t.ports = s.ports) (j : Nat) : t.port j = s.port j := by
  unfold State.port
  rw [h]

/-- The state at the end of a training, before a change of mode and before the port replays. -/
def State.risen (s : State) (i : Nat) (lanes : List Nat) : State :=
  let p := s.port i
  let fresh := p.state == .training
  let out := ([0, 1, 2, 3] : List Nat).filter fun l => !lanes.contains l
  let s1 := s.modPort i fun x =>
    { x with state := .up, width := lanes.length, retired := out, faulty := [], failRun := 0, replayTimes := [] }
  let s2 := if fresh then (s1.modPort i fun x =>
      { x with rxLast := 0, rxAny := false, discarding := false, txNext := 0, replay := [], failSeq := 0, tagFailing := false,
               credits := [64, 64, 384, 8], owed := [0, 0, 0, 0], waits := [0, 0, 0, 0], rxStream := [[], [], [], []], ackDue := false }).logQuarter
      (quarterOfPort i) (mkEvent 0x44 i 0) else s1
  let s3 := if p.width ≠ lanes.length then s2.logQuarter (quarterOfPort i) (mkEvent 0x43 i (laneMask out + 16 * lanes.length)) else s2
  if fresh || p.width ≠ lanes.length then s3.bridgeEvent (s.lowQ (quarterOfPort i)) else s3

theorem State.portUp_eq (s : State) (i : Nat) (lanes : List Nat) : s.portUp i lanes =
    match (s.port i).switching with
    | some ks =>
      if ((s.risen i lanes).port i).replay.isEmpty then
        (((s.risen i lanes).modPort i fun x => { x with keys := ks, switching := none }).portSwitched i true).replayPort i
      else (s.risen i lanes).replayPort i
    | none => (s.risen i lanes).replayPort i := rfl

theorem State.risen_ports (s : State) (i : Nat) (lanes : List Nat) : (s.risen i lanes).ports = (s.modPort i fun _ => (s.port i).raised lanes).ports := by
  have h2 : ∀ t : State, t.ports = (s.modPort i fun _ => (s.port i).raised lanes).ports →
      (if (s.port i).state == .training || (s.port i).width ≠ lanes.length then
        (if (s.port i).width ≠ lanes.length then t.logQuarter (quarterOfPort i) (mkEvent 0x43 i
          (laneMask (([0, 1, 2, 3] : List Nat).filter fun l => !lanes.contains l) + 16 * lanes.length)) else t).bridgeEvent (s.lowQ (quarterOfPort i))
      else if (s.port i).width ≠ lanes.length then t.logQuarter (quarterOfPort i) (mkEvent 0x43 i
          (laneMask (([0, 1, 2, 3] : List Nat).filter fun l => !lanes.contains l) + 16 * lanes.length)) else t).ports
        = (s.modPort i fun _ => (s.port i).raised lanes).ports := by
    intro t ht
    have hlog := ite_ports (b := (s.port i).width ≠ lanes.length) (s := t) (State.logQuarter_ports t (quarterOfPort i) (mkEvent 0x43 i
          (laneMask (([0, 1, 2, 3] : List Nat).filter fun l => !lanes.contains l) + 16 * lanes.length))) rfl
    exact (ite_ports ((State.bridgeEvent_ports _ _).trans hlog) hlog).trans ht
  refine h2 _ ?_
  unfold Port.raised
  dsimp only
  split
  · rw [State.logQuarter_ports, State.modPort_modPort]
    exact congrArg State.ports (State.modPort_congr rfl)
  · exact congrArg State.ports (State.modPort_congr rfl)

theorem ports_of_work {t : State} {p : Nat} (h : OnlyWork p s t) : t.ports = s.ports := by
  have h' : Safety.sansWork p t = Safety.sansWork p s := h
  have hports := congrArg State.ports h'
  exact hports

theorem State.portSwitched_ports (s : State) (i : Nat) (ok : Bool) : (s.portSwitched i ok).ports = s.ports := by
  refine fold_same State.ports _ (fun t p => fold_same State.ports _ (fun u k => ?_) _ _) _ s
  dsimp only
  split
  · rfl
  · exact ite_ports rfl (ite_ports rfl (ports_of_work (State.workEffects_setPacket_work p u k _ _ _ _)))

/-- A replay touches its own port alone. -/
theorem State.replayPort_port (hi : i < s.ports.length) : Pumped (s.port i) ((s.replayPort i).port i) ∧ ∀ j, j ≠ i → (s.replayPort i).port j = s.port j := by
  obtain ⟨q, bs, hq, h⟩ := State.replayPort_eq hi
  rw [h]
  refine ⟨?_, fun j hj => State.port_modPort_ne (f := fun _ => q) hj.symm⟩
  have hself : (s.modPort i fun _ => q).port i = q := State.port_modPort hi
  show Pumped _ ((s.modPort i fun _ => q).port i)
  rw [hself]
  exact hq

/-- A port that comes up with some lanes: what it was at the end of its training, in its new mode where that takes force, and then replayed; no
other port changes. -/
theorem State.portUp_port (hi : i < s.ports.length) (lanes : List Nat) :
    (∃ p, Pumped p ((s.portUp i lanes).port i)
      ∧ ((p = (s.port i).raised lanes ∧ ∀ ks, (s.port i).switching = some ks → ((s.port i).raised lanes).replay ≠ [])
        ∨ ∃ ks, (s.port i).switching = some ks ∧ p = { (s.port i).raised lanes with keys := ks, switching := none }))
      ∧ ∀ j, j ≠ i → (s.portUp i lanes).port j = s.port j := by
  have hports := State.risen_ports s i lanes
  have hlen : i < (s.risen i lanes).ports.length := by rw [hports, State.modPort_ports_length]; exact hi
  have hself : (s.risen i lanes).port i = (s.port i).raised lanes := (State.port_of_ports hports i).trans (State.port_modPort hi)
  have hother : ∀ j, j ≠ i → (s.risen i lanes).port j = s.port j := fun j hj => (State.port_of_ports hports j).trans (State.port_modPort_ne hj.symm)
  rw [State.portUp_eq]
  cases hsw : (s.port i).switching with
  | none =>
    obtain ⟨hp, hj⟩ := State.replayPort_port hlen
    exact ⟨⟨_, hself ▸ hp, Or.inl ⟨rfl, fun ks h => by contradiction⟩⟩, fun j hne => (hj j hne).trans (hother j hne)⟩
  | some ks =>
    dsimp only
    by_cases hr : ((s.risen i lanes).port i).replay.isEmpty = true
    · rw [if_pos hr]
      have hsame := State.portSwitched_ports ((s.risen i lanes).modPort i fun x => { x with keys := ks, switching := none }) i true
      obtain ⟨hp, hj⟩ := State.replayPort_port (s := State.portSwitched _ i true) (by rw [hsame, State.modPort_ports_length]; exact hlen)
      rw [State.port_of_ports hsame, State.port_modPort hlen, hself] at hp
      refine ⟨⟨_, hp, Or.inr ⟨ks, rfl, rfl⟩⟩, fun j hne => ?_⟩
      rw [hj j hne, State.port_of_ports hsame, State.port_modPort_ne hne.symm, hother j hne]
    · rw [if_neg hr]
      obtain ⟨hp, hj⟩ := State.replayPort_port hlen
      refine ⟨⟨_, hself ▸ hp, Or.inl ⟨rfl, fun _ _ h => hr ?_⟩⟩, fun j hne => (hj j hne).trans (hother j hne)⟩
      rw [hself, h]
      rfl

theorem Port.raised_fields (p : Port) (lanes : List Nat) : (p.raised lanes).state = .up ∧ (p.raised lanes).width = lanes.length
    ∧ (p.raised lanes).retired = [0, 1, 2, 3].filter (fun l => !lanes.contains l) ∧ (p.raised lanes).faulty = []
    ∧ (p.replay = [] ∨ p.state = .training → (p.raised lanes).replay = []) := by
  unfold Port.raised
  dsimp only
  split
  next h => exact ⟨rfl, rfl, rfl, rfl, fun _ => rfl⟩
  next h =>
    refine ⟨rfl, rfl, rfl, rfl, fun hr => hr.resolve_right fun ht => h ?_⟩
    rw [ht]
    rfl

/-- The lanes that a retrain ends with, by what passes (R315). -/
theorem lanesOf_eq (pass : List Nat) : lanesOf pass = Claims.lanes pass.contains := by
  unfold lanesOf Claims.lanes
  generalize List.contains pass = g
  cases h0 : g 0 <;> cases h1 : g 1 <;> cases h2 : g 2 <;> cases h3 : g 3 <;> simp [List.filter, h0, h1, h2, h3]

theorem contains_filter (pass : List Nat) (f : Nat → Bool) (l : Nat) : (pass.filter f).contains l = (pass.contains l && f l) := by
  rw [Bool.eq_iff_iff, Bool.and_eq_true, List.contains_iff_mem, List.contains_iff_mem, List.mem_filter]

theorem exec_retrainDone (hr : s.runsLanug i = true) (hst : (s.port i).state = .retraining ∨ (s.port i).state = .training) (pass : List Nat) :
    exec (.retrainDone i pass) s =
      let lanes := Claims.lanes fun l => pass.contains l && !(s.port i).retired.contains l && !(s.port i).faulty.contains l
      if lanes ≠ [] then .next (s.portUp i lanes)
      else if (s.port i).state = .training then .next (s.modPort i fun p => { p with state := .down, width := 0, faulty := [] })
      else .next (s.portDown i) := by
  have hlanes : lanesOf (pass.filter fun l => !(s.port i).retired.contains l && !(s.port i).faulty.contains l)
      = Claims.lanes fun l => pass.contains l && !(s.port i).retired.contains l && !(s.port i).faulty.contains l := by
    rw [lanesOf_eq]
    exact congrArg Claims.lanes (funext fun l => (contains_filter ..).trans (Bool.and_assoc ..).symm)
  show execRetrainDone i pass s = _
  unfold execRetrainDone
  dsimp only
  rw [if_pos ⟨hr, hst⟩, hlanes]
  cases Claims.lanes fun l => pass.contains l && !(s.port i).retired.contains l && !(s.port i).faulty.contains l <;> rfl

/-- Settles O43: the commands that retrain a port. -/
theorem portsRetrain : Obligations.PortsRetrain := by
  unfold Obligations.PortsRetrain
  intro i s hr hi
  have hfault : ∀ l, l < 4 → l ∉ (s.port i).retired → (s.port i).retired.contains l = false := fun l _ h =>
    Bool.eq_false_iff.mpr fun hc => h (List.contains_iff_mem.mp hc)
  refine ⟨fun hst => if_pos ⟨hr, hst⟩, fun hst l hl hret => ?_, fun hst l hl hret => ?_, fun hst => if_neg fun h => hst h.2, fun l h => ?_,
    fun pass hst => ⟨fun hl => ?_, fun hl ht => ?_, fun hl ht => ?_⟩, fun h1 h2 pass => if_neg fun h => h.2.elim h1 h2, fun hst hc hm hp => ?_⟩
  · show execLaneFault i l s = _
    unfold execLaneFault
    dsimp only
    rw [if_pos ⟨hr, by rw [hst]; decide, hl, hfault l hl hret⟩, if_pos hst, State.beginRetrain, State.modPort_modPort]
    rfl
  · have hup : (s.port i).state ≠ .up ∧ (s.port i).state ≠ .down := by rcases hst with h | h <;> rw [h] <;> decide
    show execLaneFault i l s = _
    unfold execLaneFault
    dsimp only
    rw [if_pos ⟨hr, hup.2, hl, hfault l hl hret⟩, if_neg hup.1]
  · refine if_neg ?_
    rintro ⟨-, hd, hl, hret⟩
    rcases h with h | h | h
    · exact hd h
    · omega
    · rw [List.contains_iff_mem.mpr h] at hret
      contradiction
  · obtain ⟨⟨p, hp, hwhat⟩, hother⟩ := State.portUp_port hi (Claims.lanes fun l => pass.contains l && !(s.port i).retired.contains l && !(s.port i).faulty.contains l)
    obtain ⟨fst, fw, fr, ff, fsw, -, -, -, -, fk⟩ := hp.fields
    obtain ⟨rst, rw', rr, rf, rrep⟩ := (s.port i).raised_fields (Claims.lanes fun l => pass.contains l && !(s.port i).retired.contains l && !(s.port i).faulty.contains l)
    refine ⟨_, (exec_retrainDone hr hst pass).trans (if_pos hl), ?_⟩
    rcases hwhat with ⟨rfl, hno⟩ | ⟨ks, hks, rfl⟩
    · exact ⟨fst.trans rst, fw.trans rw', fr.trans rr, ff.trans rf, fun ks h1 h2 => absurd (rrep h2) (hno ks h1), hother⟩
    · refine ⟨fst.trans rst, fw.trans rw', fr.trans rr, ff.trans rf, fun ks' h1 h2 => ⟨fk.trans ?_, fsw⟩, hother⟩
      rw [hks] at h1
      rw [Option.some.inj h1]
  · rw [exec_retrainDone hr hst pass]
    dsimp only
    rw [if_neg (not_not.mpr hl), if_pos ht]
  · rw [exec_retrainDone hr hst pass]
    dsimp only
    rw [if_neg (not_not.mpr hl), if_neg (by rw [ht]; decide)]
  · refine if_pos ⟨hr, hst, Bool.eq_false_iff.mpr fun h => hc (List.contains_iff_mem.mp h), hm, ?_⟩
    exact beq_eq_false_iff_ne.mpr hp

end Sys2Proof.Machine
end

section
/-! PROOF. The flits that arrive at a port in clear mode, and its replays (R308, R309, R311, R313, R314). -/
namespace Sys2Proof.Machine

variable {s : State} {i : Nat}

/-! What changes one port alone. -/

theorem PortOnly.refl (s : State) (i : Nat) : Claims.PortOnly s s i := ⟨rfl, fun _ _ => rfl, List.prefix_refl _⟩

theorem PortOnly.trans {t u : State} (h : Claims.PortOnly s t i) (g : Claims.PortOnly t u i) : Claims.PortOnly s u i := by
  obtain ⟨ht, hp, ho⟩ := h
  obtain ⟨hu, hp', ho'⟩ := g
  refine ⟨hu.trans ?_, fun j hj => (hp' j hj).trans (hp j hj), ho.trans ho'⟩
  rw [ht]

theorem PortOnly.modPort (s : State) (i : Nat) (f : Port → Port) : Claims.PortOnly s (s.modPort i f) i :=
  ⟨rfl, fun _ hj => State.port_modPort_ne hj.symm, List.prefix_refl _⟩

/-- A change of one port after which flits go out. -/
theorem PortOnly.modPort_out (s : State) (i : Nat) (f : Port → Port) (o : List Out) : Claims.PortOnly s { s.modPort i f with out := s.out ++ o } i :=
  ⟨rfl, fun _ hj => State.port_modPort_ne (f := f) hj.symm, List.prefix_append _ _⟩

theorem PortOnly.pumpPort (s : State) (i : Nat) : Claims.PortOnly s (s.pumpPort i) i := by
  obtain ⟨q, bs, -, h⟩ := s.pumpPort_eq i
  rw [h]
  exact PortOnly.modPort_out s i _ _

theorem PortOnly.settle (s : State) (i : Nat) : Claims.PortOnly s (s.settle i) i := by
  unfold State.settle
  dsimp only
  split
  · exact PortOnly.modPort s i _
  · exact PortOnly.refl s i

theorem State.pumpPort_port (hi : i < s.ports.length) : Pumped (s.port i) ((s.pumpPort i).port i) := by
  obtain ⟨q, bs, hq, h⟩ := s.pumpPort_eq i
  have hself : (s.modPort i fun _ => q).port i = q := State.port_modPort hi
  rw [h]
  show Pumped _ ((s.modPort i fun _ => q).port i)
  rw [hself]
  exact hq

/-- A port that settles changes in its state and its count of retrains alone. -/
theorem State.settle_port (hi : i < s.ports.length) : ∃ st rt, (s.settle i).port i = { s.port i with state := st, retrains := rt } := by
  unfold State.settle
  dsimp only
  split
  · exact ⟨_, _, State.port_modPort hi⟩
  · exact ⟨_, _, rfl⟩

theorem State.pumpPort_ports_length (s : State) (i : Nat) : (s.pumpPort i).ports.length = s.ports.length := by
  obtain ⟨q, bs, -, h⟩ := s.pumpPort_eq i
  rw [h]
  exact State.modPort_ports_length s i fun _ => q

/-- What stays of a port that pumps and settles: its receiving side; its replay buffer only grows. -/
theorem State.pumpSettle_port (hi : i < s.ports.length) :
    let q := ((s.pumpPort i).settle i).port i
    q.rxLast = (s.port i).rxLast ∧ q.rxAny = (s.port i).rxAny ∧ q.discarding = (s.port i).discarding ∧ q.rxStream = (s.port i).rxStream
      ∧ (s.port i).replay <+: q.replay := by
  intro q
  have hp := State.pumpPort_port hi
  obtain ⟨st, rt, hq⟩ := State.settle_port (s := s.pumpPort i) (i := i) (by rw [State.pumpPort_ports_length]; exact hi)
  obtain ⟨-, -, -, -, -, h1, h2, h3, h4, -⟩ := hp.fields
  have hq' : q = { (s.pumpPort i).port i with state := st, retrains := rt } := hq
  rw [hq']
  exact ⟨h1, h2, h3, h4, hp.replay_prefix⟩

/-! Acknowledgements. -/

/-- An acknowledgement takes flits out of the replay buffer and changes nothing of the receiving side. -/
theorem Port.acked_fields (p : Port) (ack : Nat) (valid : Bool) : (p.acked ack valid).replay = Claims.unacked p ack valid
    ∧ (p.acked ack valid).rxLast = p.rxLast ∧ (p.acked ack valid).rxAny = p.rxAny ∧ (p.acked ack valid).discarding = p.discarding
    ∧ (p.acked ack valid).rxStream = p.rxStream := by
  unfold Port.acked Claims.unacked
  split <;> exact ⟨rfl, rfl, rfl, rfl, rfl⟩

theorem Port.countReplay_fields (p : Port) (mclk : Nat) : (p.countReplay mclk).replay = p.replay ∧ (p.countReplay mclk).rxStream = p.rxStream := by
  unfold Port.countReplay
  split <;> exact ⟨rfl, rfl⟩

/-- The acknowledgement and the credits of a good flit taken (R311, R313). -/
theorem State.takeHead_port (hi : i < s.ports.length) (flit : List Byte) :
    let a := leNat ((flit.drop 2).take 2)
    let q := (s.takeHead i flit).port i
    Claims.PortOnly s (s.takeHead i flit) i ∧ q.rxLast = (s.port i).rxLast ∧ q.rxAny = (s.port i).rxAny ∧ q.discarding = (s.port i).discarding
      ∧ q.rxStream = (s.port i).rxStream ∧ Claims.unacked (s.port i) (a % 4096) (a.testBit 12) <+: q.replay := by
  intro a q
  obtain ⟨hrep, h1, h2, h3, h4⟩ := (s.port i).acked_fields (a % 4096) (a.testBit 12)
  have hstep : ∃ f : Port → Port, s.takeHead i flit = ((s.modPort i f).pumpPort i).settle i
      ∧ (f (s.port i)).replay = Claims.unacked (s.port i) (a % 4096) (a.testBit 12) ∧ (f (s.port i)).rxLast = (s.port i).rxLast
      ∧ (f (s.port i)).rxAny = (s.port i).rxAny ∧ (f (s.port i)).discarding = (s.port i).discarding ∧ (f (s.port i)).rxStream = (s.port i).rxStream := by
    refine ⟨_, rfl, ?_⟩
    dsimp only
    split
    · exact ⟨hrep, h1, h2, h3, h4⟩
    · exact ⟨hrep, h1, h2, h3, h4⟩
  obtain ⟨f, heq, hf, g1, g2, g3, g4⟩ := hstep
  obtain ⟨k1, k2, k3, k4, k5⟩ := State.pumpSettle_port (s := s.modPort i f) (i := i) (by rw [State.modPort_ports_length]; exact hi)
  have hport : (s.modPort i f).port i = f (s.port i) := State.port_modPort hi
  rw [hport] at k1 k2 k3 k4 k5
  have hq : q = (((s.modPort i f).pumpPort i).settle i).port i := by rw [← heq]
  rw [hq, heq]
  exact ⟨PortOnly.trans (PortOnly.trans (PortOnly.modPort s i f) (PortOnly.pumpPort _ i)) (PortOnly.settle _ i), k1.trans g1, k2.trans g2, k3.trans g3, k4.trans g4,
    hf ▸ k5⟩

/-! The fields of a flit (Table 13.1). -/

/-- The bytes of a flit that its CRC covers. -/
def flitBody (ftype seq ack : Nat) (valid : Bool) (vc : Nat) (cr : Option (Nat × Nat)) (pay : List Byte) : List Byte :=
  toLe 2 (4096 * ftype + seq) ++ toLe 2 ((if valid then 4096 else 0) + ack) ++ toLe 1 vc
    ++ (match cr with | some (v, n) => toLe 1 (128 + v) ++ toLe 2 n | none => toLe 3 0) ++ pay

theorem flit_eq (ftype seq ack : Nat) (valid : Bool) (vc : Nat) (cr : Option (Nat × Nat)) (pay : List Byte) :
    Claims.flit ftype seq ack valid vc cr pay = flitBody ftype seq ack valid vc cr pay ++ toLe 4 (crc32c (flitBody ftype seq ack valid vc cr pay)) ++ toLe 4 0 := rfl

section
variable {ftype seq ack vc : Nat} {valid : Bool} {cr : Option (Nat × Nat)} {pay : List Byte}

theorem flitBody_length (hp : pay.length = 240) : (flitBody ftype seq ack valid vc cr pay).length = 248 := by
  unfold flitBody
  cases cr with
  | none => simp only [List.length_append, toLe_length, hp]
  | some x => simp only [List.length_append, toLe_length, hp]

theorem flit_length (hp : pay.length = 240) : (Claims.flit ftype seq ack valid vc cr pay).length = 256 := by
  rw [flit_eq, List.length_append, List.length_append, flitBody_length hp, toLe_length, toLe_length]

theorem padTo_of_length {n : Nat} {l : List Byte} (h : l.length = n) : padTo n l = l := by
  unfold padTo
  rw [h, List.take_of_length_le (by omega), Nat.sub_self, List.replicate_zero, List.append_nil]

theorem flit_seq (hf : ftype < 16) (hs : seq < 4096) :
    leNat (((Claims.flit ftype seq ack valid vc cr pay).drop 0).take 2) = 4096 * ftype + seq := by
  have h : ((Claims.flit ftype seq ack valid vc cr pay).drop 0).take 2 = toLe 2 (4096 * ftype + seq) := by
    cases cr <;> rfl
  rw [h, leNat_toLe_of_lt (by omega)]

theorem flit_ack (ha : ack < 4096) :
    leNat (((Claims.flit ftype seq ack valid vc cr pay).drop 2).take 2) = (if valid then 4096 else 0) + ack := by
  have h : ((Claims.flit ftype seq ack valid vc cr pay).drop 2).take 2 = toLe 2 ((if valid then 4096 else 0) + ack) := by
    cases cr <;> rfl
  rw [h, leNat_toLe_of_lt (by split <;> omega)]

theorem flit_vc (hv : vc < 256) : leNat (((Claims.flit ftype seq ack valid vc cr pay).drop 4).take 1) = vc := by
  have h : ((Claims.flit ftype seq ack valid vc cr pay).drop 4).take 1 = toLe 1 vc := by
    cases cr <;> rfl
  rw [h, leNat_toLe_of_lt (by omega)]

theorem flit_payload (hp : pay.length = 240) : ((Claims.flit ftype seq ack valid vc cr pay).drop 8).take 240 = pay := by
  have h : (Claims.flit ftype seq ack valid vc cr pay).drop 8 = pay ++ (toLe 4 (crc32c (flitBody ftype seq ack valid vc cr pay)) ++ toLe 4 0) := by
    cases cr <;> exact List.append_assoc ..
  rw [h, List.take_left' hp]

/-- The CRC of a flit checks. -/
theorem flit_crc (hp : pay.length = 240) : leNat (((Claims.flit ftype seq ack valid vc cr pay).drop 0xF8).take 4)
    = crc32c ((Claims.flit ftype seq ack valid vc cr pay).take 0xF8) := by
  have hl := flitBody_length (ftype := ftype) (seq := seq) (ack := ack) (vc := vc) (valid := valid) (cr := cr) hp
  rw [flit_eq, List.append_assoc, List.drop_left' hl, List.take_left' hl, List.take_left' (toLe_length 4 _), leNat_toLe_of_lt (crc32c_lt _)]

theorem ack_parts (ha : ack < 4096) : ((if valid then 4096 else 0) + ack) % 4096 = ack ∧ ((if valid then 4096 else 0) + ack).testBit 12 = valid := by
  rw [Nat.testBit_eq_decide_div_mod_eq]
  cases valid
  · exact ⟨by simp; omega, decide_eq_false (by simp; omega)⟩
  · exact ⟨by simp; omega, decide_eq_true (by simp; omega)⟩

/-- A whole flit of type DATA or IDLE that arrives at a port in clear mode. -/
theorem State.flitArrives_flit (hk : (s.port i).keys = none) (hf : ftype < 2) (hs : seq < 4096) (hv : vc < 4) (hp : pay.length = 240) :
    s.flitArrives i true (Claims.flit ftype seq ack valid vc cr pay) =
      if ftype = 1 then s.takeHead i (Claims.flit ftype seq ack valid vc cr pay)
      else if seq ≠ (if (s.port i).rxAny then ((s.port i).rxLast + 1) % 4096 else 0) then (if (s.port i).discarding then s else s.askReplay i)
      else (s.acceptFlit i seq vc pay).takeHead i (Claims.flit ftype seq ack valid vc cr pay) := by
  have htype : (4096 * ftype + seq) / 4096 = ftype ∧ (4096 * ftype + seq) % 4096 = seq := by omega
  unfold State.flitArrives Port.opened
  dsimp only
  simp only [padTo_of_length (flit_length hp), flit_seq (show ftype < 16 by omega) hs, flit_vc (show vc < 256 by omega), htype.1, htype.2,
    show ftype ≠ 2 by omega, if_false, Nat.mod_eq_of_lt hv, hk, flit_payload hp]
  exact if_neg (by rw [flit_crc hp, bne_self_eq_false, decide_eq_false (show ¬3 ≤ ftype by omega)]; decide)

end

/-- A RETRY_REQ sent: it names the last flit received and returns the credits of the lowest channel that owes any (R308, R313). -/
theorem State.askReplay_eq (s : State) (i : Nat) : s.askReplay i = (s.modPort i fun p =>
    { p with discarding := true, ackDue := false, owed := (match Claims.owes (s.port i) with | some x => p.owed.set x.1 0 | none => p.owed) }).emit
      (.flit i (Claims.flit 2 0 ((s.port i).rxLast % 4096) (s.port i).rxAny 0 (Claims.owes (s.port i)) (List.replicate 240 0))) := by
  unfold State.askReplay Port.bareFlit
  rw [flitSeal_eq, State.modPort_congr (g := fun p =>
    { p with discarding := true, ackDue := false, owed := (match Claims.owes (s.port i) with | some x => p.owed.set x.1 0 | none => p.owed) })]
  · rfl
  · dsimp only
    rw [told_eq] <;> rfl

/-- A flit whose codeword fails is asked for again. -/
theorem State.flitArrives_bad (s : State) (i : Nat) (flit : List Byte) : s.flitArrives i false flit = s.askReplay i := by
  unfold State.flitArrives
  exact if_pos (by rw [Bool.not_false, Bool.true_or, Bool.true_or])

theorem exec_flitReceive (hr : s.runsLanug i = true) (hup : (s.port i).state = .up) (ok : Bool) (flit : List Byte) :
    exec (.flitReceive i ok flit) s = .next (s.flitArrives i ok flit) := if_pos ⟨hr, hup⟩

theorem exec_retryReq (hr : s.runsLanug i = true) (hup : (s.port i).state = .up) {ack : Nat} (ha : ack < 4096) (valid : Bool) :
    exec (.retryReq i ack valid) s = .next (s.retryRequested i ack valid) := by
  show execRetryReq i ack valid s = _
  rw [execRetryReq, if_pos ⟨hr, hup⟩, Nat.mod_eq_of_lt ha]

/-- A RETRY_REQ within the limits of R314: everything unacknowledged goes out again. -/
theorem State.retryReplays (hi : i < s.ports.length) {ack : Nat} {valid : Bool}
    (h1 : (((s.port i).acked ack valid).countReplay s.mclk).failRun ≤ 8) (h2 : (((s.port i).acked ack valid).countReplay s.mclk).replayTimes.length ≤ 256) :
    Claims.PortOnly s (s.retryRequested i ack valid) i
      ∧ (s.out ++ (Claims.unacked (s.port i) ack valid).map fun x => Out.flit i x.2.2) <+: (s.retryRequested i ack valid).out
      ∧ Claims.unacked (s.port i) ack valid <+: ((s.retryRequested i ack valid).port i).replay
      ∧ ((s.retryRequested i ack valid).port i).rxStream = (s.port i).rxStream := by
  have hfields := Port.countReplay_fields ((s.port i).acked ack valid) s.mclk
  obtain ⟨hrep, -, -, -, hstream⟩ := (s.port i).acked_fields ack valid
  have hlen : i < (s.modPort i fun p => (p.acked ack valid).countReplay s.mclk).ports.length := by rw [State.modPort_ports_length]; exact hi
  have hport : (s.modPort i fun p => (p.acked ack valid).countReplay s.mclk).port i = ((s.port i).acked ack valid).countReplay s.mclk := State.port_modPort hi
  have hreq : s.retryRequested i ack valid = ((s.modPort i fun p => (p.acked ack valid).countReplay s.mclk).replayPort i).settle i := by
    unfold State.retryRequested
    dsimp only
    rw [hport]
    exact if_neg (by omega)
  obtain ⟨q, bs, hq, heq⟩ := State.replayPort_eq hlen
  rw [hport, hfields.1, hrep] at heq
  rw [hport] at hq
  have honly : Claims.PortOnly s ((s.modPort i fun p => (p.acked ack valid).countReplay s.mclk).replayPort i) i := by
    rw [heq, State.modPort_modPort, List.append_assoc]
    exact PortOnly.modPort_out s i _ _
  have hself : ((s.modPort i fun p => (p.acked ack valid).countReplay s.mclk).replayPort i).port i = q := by
    rw [heq]
    exact State.port_modPort (f := fun _ => q) hlen
  obtain ⟨st, rt, hsettle⟩ := State.settle_port (s := (s.modPort i fun p => (p.acked ack valid).countReplay s.mclk).replayPort i) (i := i) (by
    rw [heq]
    show i < (State.modPort _ i fun _ => q).ports.length
    rw [State.modPort_ports_length]
    exact hlen)
  have hout : ((s.modPort i fun p => (p.acked ack valid).countReplay s.mclk).replayPort i).out
      <+: (((s.modPort i fun p => (p.acked ack valid).countReplay s.mclk).replayPort i).settle i).out := (PortOnly.settle _ i).2.2
  rw [hreq]
  refine ⟨PortOnly.trans honly (PortOnly.settle _ i), List.IsPrefix.trans ?_ hout, ?_, ?_⟩
  · rw [heq]
    exact List.prefix_append _ _
  · rw [hsettle, hself]
    exact hrep ▸ hfields.1 ▸ hq.replay_prefix
  · rw [hsettle, hself]
    exact hq.fields.2.2.2.2.2.2.2.2.1.trans (hfields.2.trans hstream)

/-- A RETRY_REQ past the limits of R314 starts a retrain. -/
theorem State.retryRetrains (hi : i < s.ports.length) {ack : Nat} {valid : Bool}
    (h : 8 < (((s.port i).acked ack valid).countReplay s.mclk).failRun ∨ 256 < (((s.port i).acked ack valid).countReplay s.mclk).replayTimes.length) :
    s.retryRequested i ack valid = s.modPort i fun p => { (p.acked ack valid).countReplay s.mclk with
      failRun := 0, replayTimes := [], state := .retraining, retrains := ((p.acked ack valid).countReplay s.mclk).retrains.hit 1 } := by
  unfold State.retryRequested
  dsimp only
  rw [State.port_modPort hi, if_pos h, State.beginRetrain, State.modPort_modPort, State.modPort_modPort]

/-- Settles O44: flits in sequence, out of sequence and failing, IDLE flits, and RETRY_REQ. -/
theorem flitsArrive : Obligations.FlitsArrive := by
  unfold Obligations.FlitsArrive
  intro i s hr hi hup hk
  refine ⟨fun flit => ?_, fun seq ack vc valid cr pay hs ha hv hp hcr => ?_, fun ack valid ha => ⟨fun h1 h2 => ?_, fun hover => ?_⟩⟩
  · rw [exec_flitReceive hr hup]
    exact congrArg Host.Outcome.next ((State.flitArrives_bad s i flit).trans (State.askReplay_eq s i))
  · obtain ⟨hack, hvalid⟩ := ack_parts (valid := valid) ha
    have hdata := State.flitArrives_flit (s := s) (i := i) (ftype := 0) (seq := seq) (ack := ack) (vc := vc) (valid := valid) (cr := cr) (pay := pay)
      hk (by decide) hs hv hp
    have hidle := State.flitArrives_flit (s := s) (i := i) (ftype := 1) (seq := seq) (ack := ack) (vc := vc) (valid := valid) (cr := cr) (pay := pay)
      hk (by decide) hs hv hp
    rw [if_neg (by decide)] at hdata
    rw [if_pos rfl] at hidle
    refine ⟨fun hseq => ?_, fun hseq hd => ?_, fun hseq hd => ?_, ?_⟩
    · rw [if_neg (not_not.mpr hseq)] at hdata
      have hport : (s.acceptFlit i seq vc pay).port i = _ := State.port_modPort hi
      obtain ⟨honly, h1, h2, h3, h4, h5⟩ := State.takeHead_port (s := s.acceptFlit i seq vc pay) (i := i) (by exact (State.modPort_ports_length ..).symm ▸ hi)
        (Claims.flit 0 seq ack valid vc cr pay)
      rw [flit_ack ha, hack, hvalid] at h5
      rw [hport] at h1 h2 h3 h4 h5
      exact ⟨_, by rw [exec_flitReceive hr hup, hdata], PortOnly.trans (PortOnly.modPort s i _) honly, h1, h2, h3, h4, h5⟩
    · rw [if_pos hseq, if_neg (by rw [hd]; decide)] at hdata
      rw [exec_flitReceive hr hup, hdata]
      exact congrArg Host.Outcome.next (State.askReplay_eq s i)
    · rw [if_pos hseq, if_pos hd] at hdata
      rw [exec_flitReceive hr hup, hdata]
    · obtain ⟨honly, h1, h2, h3, h4, h5⟩ := State.takeHead_port hi (Claims.flit 1 seq ack valid vc cr pay)
      rw [flit_ack ha, hack, hvalid] at h5
      exact ⟨_, by rw [exec_flitReceive hr hup, hidle], honly, h1, h4, h5⟩
  · obtain ⟨hport, hout, hstream⟩ := State.retryReplays hi h1 h2
    exact ⟨_, exec_retryReq hr hup ha valid, hport, hout, hstream⟩
  · have hretrain := State.retryRetrains hi hover
    refine ⟨_, exec_retryReq hr hup ha valid, ?_⟩
    rw [hretrain, State.port_modPort hi]
    exact ⟨PortOnly.modPort s i _, rfl, ((Port.countReplay_fields _ _).1).trans (Port.acked_fields _ _ _).1, rfl⟩

end Sys2Proof.Machine
end

section
/-! PROOF. Scrubbing, merge buffers and retirement of arrays (R127, R268, R269, R271, R275, R279, R280, R410). -/
namespace Sys2Proof.Machine

open Safety (OnlyData)

variable {s : State}

/-! What the decoding of a codeword can change. -/

/-- What stands between two states of which the second has logged, stored, poisoned, repaired and scheduled. -/
def Decoded (s t : State) : Prop :=
  ∃ m po f rs tr fu ps ws, t = { s with mem := m, poison := po, faults := f, remaps := s.remaps ++ rs, trackers := tr, fuseScheduled := fu, parts := ps, windows := ws }

theorem Decoded.refl (s : State) : Decoded s s :=
  ⟨s.mem, s.poison, s.faults, [], s.trackers, s.fuseScheduled, s.parts, s.windows, by rw [List.append_nil]⟩

theorem Decoded.trans {t u : State} (h : Decoded s t) (g : Decoded t u) : Decoded s u := by
  obtain ⟨_, _, _, rs, _, _, _, _, rfl⟩ := h
  obtain ⟨m, po, f, rs', tr, fu, ps, ws, rfl⟩ := g
  exact ⟨m, po, f, rs ++ rs', tr, fu, ps, ws, by rw [← List.append_assoc]⟩

theorem Decoded.scrubber {t : State} (h : Decoded s t) : t.scrubbers = s.scrubbers := by
  obtain ⟨_, _, _, _, _, _, _, _, rfl⟩ := h
  rfl

theorem Decoded.merge {t : State} (h : Decoded s t) : t.merge = s.merge := by
  obtain ⟨_, _, _, _, _, _, _, _, rfl⟩ := h
  rfl

theorem State.isRemapped_eq (s : State) (a : Nat) :
    s.isRemapped a = (s.localOf a).any fun x => s.remaps.any fun r => r.mem == x.1 && r.unit == x.2.1 && r.granule == x.2.2 / 64 := by
  unfold State.isRemapped
  cases s.localOf a with
  | none => rfl
  | some x => rfl

/-- A remapped granule stays remapped. -/
theorem Decoded.isRemapped {t : State} (h : Decoded s t) {a : Nat} (hr : s.isRemapped a = true) : t.isRemapped a = true := by
  obtain ⟨_, _, _, rs, _, _, _, _, rfl⟩ := h
  rw [State.isRemapped_eq] at hr ⊢
  change ((s.localOf a).any fun x => (s.remaps ++ rs).any fun r => r.mem == x.1 && r.unit == x.2.1 && r.granule == x.2.2 / 64) = true
  cases hl : s.localOf a with
  | none =>
    rw [hl] at hr
    contradiction
  | some x =>
    rw [hl, Option.any_some] at hr
    rw [Option.any_some, List.any_append, hr, Bool.true_or]

/-- A codeword has no more symbols in error where no fault is new. -/
theorem Decoded.symbolsAt_length {t : State} (h : Decoded s t) (hf : t.faults.Sublist s.faults) (cw : Nat) :
    (t.symbolsAt cw).length ≤ (s.symbolsAt cw).length := by
  unfold State.symbolsAt
  dsimp only
  have hfilter := hf.filter (fun f => f.addr == cw)
  by_cases ht : ((t.faults.filter fun f => f.addr == cw).isEmpty || t.isRemapped cw) = true
  · rw [if_pos ht]
    exact Nat.zero_le _
  · have hs : ¬((s.faults.filter fun f => f.addr == cw).isEmpty || s.isRemapped cw) = true := by
      intro hs
      apply ht
      rcases Bool.or_eq_true _ _ ▸ hs with he | hr
      · rw [List.isEmpty_iff.mp he] at hfilter
        rw [List.sublist_nil.mp hfilter]
        rfl
      · rw [h.isRemapped hr, Bool.or_true]
    rw [if_neg ht, if_neg hs, List.length_map, List.length_map]
    exact hfilter.length_le

theorem Decoded.symbolsAt_nil {t : State} (h : Decoded s t) (hf : t.faults.Sublist s.faults) {cw : Nat} (hs : s.symbolsAt cw = []) : t.symbolsAt cw = [] := by
  have hlen := h.symbolsAt_length hf cw
  rw [hs] at hlen
  exact List.length_eq_zero_iff.mp (Nat.le_zero.mp hlen)

theorem clean_iff (cw : Nat) : s.decodeCw cw = .clean ↔ poisonUnit cw ∉ s.poison ∧ s.symbolsAt cw = [] := by
  unfold State.decodeCw
  by_cases hp : s.poison.contains (poisonUnit cw) = true
  · rw [if_pos hp]
    refine iff_of_false ?_ fun h => h.1 (List.contains_iff_mem.mp hp)
    split <;> simp
  · rw [if_neg hp]
    have hnot : poisonUnit cw ∉ s.poison := fun h => hp (List.contains_iff_mem.mpr h)
    refine Iff.trans ?_ (and_iff_right hnot).symm
    cases hsym : s.symbolsAt cw with
    | nil => simp
    | cons f fs => cases fs with
      | nil => simp
      | cons g gs => simp only [reduceCtorEq, iff_false]; split_ifs <;> simp

theorem State.memEvent_eq (s : State) (ev a position status ring : Nat) : ∃ ps ws, s.memEvent ev a position status ring = { s with parts := ps, windows := ws } := by
  unfold State.memEvent
  split
  · exact State.log_eq _ _ _
  · exact ⟨s.parts, s.windows, rfl⟩

/-! Repair (R279, R280). -/

/-- A granule none of whose codewords is uncorrectable or miscorrected moves as it is. -/
theorem State.moved_of_read {g : Nat} (h : ∀ cw ∈ granuleCodewords g, s.decodeCw cw ≠ .uncorrectable ∧ s.decodeCw cw ≠ .miscorrected) : s.moved g = s := by
  unfold State.moved
  split
  · rfl
  · have hfold : ∀ l : List Nat, (∀ cw ∈ l, cw ∈ granuleCodewords g) → l.foldl State.moveCw s = s := by
      intro l hl
      induction l with
      | nil => rfl
      | cons cw l ih =>
        obtain ⟨h1, h2⟩ := h cw (hl cw List.mem_cons_self)
        have hcw : s.moveCw cw = s := by
          unfold State.moveCw
          split
          · contradiction
          · contradiction
          · rfl
        rw [List.foldl_cons, hcw]
        exact ih fun c hc => hl c (List.mem_cons_of_mem _ hc)
    exact hfold _ fun _ hc => hc

/-- What a repair leaves of stored data: nothing changes, or the granule has moved into its replacement (R280). -/
def Repaired (s : State) (g : Nat) (t : State) : Prop :=
  ∃ u rs fu ps ws, (u = s ∨ u = s.moved g)
    ∧ t = { s with mem := u.mem, poison := u.poison, remaps := s.remaps ++ rs, fuseScheduled := fu, parts := ps, windows := ws }

theorem Repaired.refl (s : State) (g : Nat) : Repaired s g s := ⟨s, [], s.fuseScheduled, s.parts, s.windows, Or.inl rfl, by rw [List.append_nil]⟩

theorem Repaired.memEvent {g : Nat} {t : State} (h : Repaired s g t) (ev a position status ring : Nat) : Repaired s g (t.memEvent ev a position status ring) := by
  obtain ⟨u, rs, fu, ps, ws, hu, rfl⟩ := h
  obtain ⟨ps', ws', he⟩ := State.memEvent_eq { s with mem := u.mem, poison := u.poison, remaps := s.remaps ++ rs, fuseScheduled := fu, parts := ps, windows := ws }
    ev a position status ring
  exact ⟨u, rs, fu, ps', ws', hu, he⟩

theorem Repaired.scheduleFuse {g : Nat} {t : State} (h : Repaired s g t) (k : MemKind) (u granule device : Nat) :
    Repaired s g (t.scheduleFuse k u granule device) := by
  obtain ⟨v, rs, fu, ps, ws, hv, rfl⟩ := h
  unfold State.scheduleFuse
  dsimp only
  generalize (k, u, if k = .sump then granule * 16 + device else granule) = e
  split
  · exact ⟨v, rs, fu, ps, ws, hv, rfl⟩
  · exact ⟨v, rs, _, ps, ws, hv, rfl⟩

theorem Repaired.remapGranule (s : State) (a : Nat) (k : MemKind) (u granule : Nat) (persist : Bool) :
    Repaired s (a / 64 * 64) (s.remapGranule a k u granule persist) := by
  rw [State.remapGranule_eq]
  obtain ⟨m, po, ps, ws, h⟩ := s.moved_eq (a / 64 * 64)
  refine ⟨s.moved (a / 64 * 64), [s.remapEntry a k u granule persist], s.fuseScheduled, ps, ws, Or.inr rfl, ?_⟩
  rw [h]

theorem State.repair_spec (s : State) (a device : Nat) : Repaired s (a / 64 * 64) (s.repair a device) := by
  unfold State.repair
  split
  · exact Repaired.refl s _
  next k u off _ =>
    dsimp only
    generalize h1 : (if (s.scrubSetting (quarterOfUnit k u) k).repair = 0 ∨ s.isRemapped a = true then s
      else if remapCapacity k ≤ (s.remapTable k u).length then s.memEvent 7 a 0 0 0xFFFF
      else (s.remapGranule a k u (off / 64) true).memEvent 5 a 0 0 0xFFFF) = s1
    have hs1 : Repaired s (a / 64 * 64) s1 := by
      rw [← h1]
      split
      · exact Repaired.refl s _
      · split
        · exact (Repaired.refl s _).memEvent _ _ _ _ _
        · exact (Repaired.remapGranule s a k u _ _).memEvent _ _ _ _ _
    split
    · exact hs1
    · split
      · exact hs1.scheduleFuse _ _ _ _
      · exact (hs1.scheduleFuse _ _ _ _).memEvent _ _ _ _ _

theorem Repaired.ite {c : Prop} [Decidable c] {g : Nat} {t u : State} (ht : Repaired s g t) (hu : Repaired s g u) :
    Repaired s g (if c then t else u) := by
  split
  · exact ht
  · exact hu

theorem State.countCorrected_spec (s : State) (a device : Nat) : ∃ tr, Repaired { s with trackers := tr } (a / 64 * 64) (s.countCorrected a device) := by
  unfold State.countCorrected
  split
  · exact ⟨_, Repaired.ite (State.repair_spec _ _ _) (Repaired.refl _ _)⟩
  · exact ⟨s.trackers, Repaired.refl _ _⟩

/-- A corrected codeword, recorded and counted: a repair may follow. -/
theorem State.corrected_spec (s : State) (cw sym pat status ring : Nat) :
    ∃ tr ps ws, Repaired { s with trackers := tr, parts := ps, windows := ws } (cw / 64 * 64) (s.corrected cw sym pat status ring) := by
  unfold State.corrected
  dsimp only
  obtain ⟨ps, ws, he⟩ := State.memEvent_eq s 1 cw (sym + pat * 256 + if inSump cw = true then cw / 4 % 16 * 4096 else 0) status ring
  rw [he]
  obtain ⟨tr, h⟩ := State.countCorrected_spec { s with parts := ps, windows := ws } cw (if sym < 10 then sym else 15)
  exact ⟨tr, ps, ws, h⟩

/-! A scrub read of a granule with one codeword in error. -/

section
variable {a c0 : Nat}

theorem granule_of_codeword (ha : a % 64 = 0) {cw : Nat} (h : cw ∈ granuleCodewords a) : cw / 64 * 64 = a := by
  obtain ⟨h1, h2⟩ := mem_granuleCodewords ha h
  have h3 : 0 < codewordBytes cw := by unfold codewordBytes; split <;> decide
  omega

/-- A codeword that read clean still does where no fault of its own is new and its unit has not been poisoned. -/
theorem Decoded.clean {t : State} (h : Decoded s t) (hf : t.faults.Sublist s.faults) {cw : Nat} (hp : poisonUnit cw ∉ t.poison)
    (hc : s.decodeCw cw = .clean) : t.decodeCw cw = .clean :=
  (clean_iff cw).mpr ⟨hp, h.symbolsAt_nil hf ((clean_iff cw).mp hc).2⟩

/-- Codewords that read clean or poisoned are left as they are. -/
theorem decodeStores_quiet {l : List Nat} (h : ∀ cw ∈ l, s.decodeCw cw = .clean ∨ s.decodeCw cw = .poisoned) :
    l.foldl (fun s cw => s.decodeStore cw 0 0xFFFF false false) s = s := by
  induction l with
  | nil => rfl
  | cons cw l ih =>
    have hcw : s.decodeStore cw 0 0xFFFF false false = s := by
      unfold State.decodeStore
      rcases h cw List.mem_cons_self with hc | hc
      · rw [hc]
      · rw [hc]
        exact if_neg (by decide)
    rw [List.foldl_cons, hcw]
    exact ih fun c hc => h c (List.mem_cons_of_mem _ hc)

/-- The codewords of a granule of which one alone does not read clean or poisoned: that one is decoded, and the others are left as they are. -/
theorem decodeStores_one {l : List Nat} (hnd : l.Nodup) (hc0 : c0 ∈ l)
    (hbefore : ∀ cw ∈ l, cw ≠ c0 → s.decodeCw cw = .clean ∨ s.decodeCw cw = .poisoned)
    (hafter : ∀ cw ∈ l, cw ≠ c0 → (s.decodeStore c0 0 0xFFFF false false).decodeCw cw = .clean
      ∨ (s.decodeStore c0 0 0xFFFF false false).decodeCw cw = .poisoned) :
    l.foldl (fun s cw => s.decodeStore cw 0 0xFFFF false false) s = s.decodeStore c0 0 0xFFFF false false := by
  obtain ⟨l1, l2, rfl⟩ := List.append_of_mem hc0
  have hne1 : ∀ cw ∈ l1, cw ≠ c0 := fun cw hcw he => (List.nodup_append.mp hnd).2.2 cw hcw c0 List.mem_cons_self he
  have hne2 : ∀ cw ∈ l2, cw ≠ c0 := fun cw hcw he => (List.nodup_cons.mp (List.nodup_append.mp hnd).2.1).1 (he ▸ hcw)
  rw [List.foldl_append, decodeStores_quiet fun cw hcw => hbefore cw (List.mem_append_left _ hcw) (hne1 cw hcw), List.foldl_cons]
  exact decodeStores_quiet fun cw hcw => hafter cw (List.mem_append_right _ (List.mem_cons_of_mem _ hcw)) (hne2 cw hcw)

theorem granuleCodewords_nodup (a : Nat) : (granuleCodewords a).Nodup := by
  unfold granuleCodewords codewordsIn
  rw [if_neg (by decide)]
  refine List.Nodup.map (fun i j h => ?_) List.nodup_range
  split at h <;> omega

/-- A codeword whose unit is not poisoned, with one symbol in error at most, reads as data. -/
theorem decodeCw_of_short {cw : Nat} (hp : poisonUnit cw ∉ s.poison) (hl : (s.symbolsAt cw).length ≤ 1) :
    s.decodeCw cw ≠ .uncorrectable ∧ s.decodeCw cw ≠ .miscorrected := by
  unfold State.decodeCw
  rw [if_neg fun h => hp (List.contains_iff_mem.mp h)]
  match hsym : s.symbolsAt cw with
  | [] => simp
  | [f] => simp
  | f :: g :: fs => rw [hsym] at hl; simp at hl

theorem corrected_iff {cw sym pat : Nat} (h : s.decodeCw cw = .corrected sym pat) : poisonUnit cw ∉ s.poison ∧ (s.symbolsAt cw).length ≤ 1 := by
  unfold State.decodeCw at h
  by_cases hp : s.poison.contains (poisonUnit cw) = true
  · rw [if_pos hp] at h
    split at h <;> contradiction
  · refine ⟨fun hm => hp (List.contains_iff_mem.mpr hm), ?_⟩
    rw [if_neg hp] at h
    match hsym : s.symbolsAt cw with
    | [] => simp
    | [f] => simp
    | f :: g :: fs =>
      rw [hsym] at h
      dsimp only at h
      split at h
      · contradiction
      · split at h <;> contradiction

/-- One corrected codeword in a granule that is else clean: only its fault goes, unless it is stuck (R269, R275). -/
theorem decodeStores_corrected (ha : a % 64 = 0) (hc0 : c0 ∈ granuleCodewords a) (hclean : ∀ cw ∈ granuleCodewords a, cw ≠ c0 → s.decodeCw cw = .clean)
    {sym pat : Nat} (hc : s.decodeCw c0 = .corrected sym pat) :
    let t := (granuleCodewords a).foldl (fun s cw => s.decodeStore cw 0 0xFFFF false false) s
    t.mem = s.mem ∧ t.poison = s.poison ∧ t.faults = s.faults.filter (fun f => f.addr != c0 || f.stuck) ∧ Decoded s t := by
  have hsub : (s.faults.filter fun f => f.addr != c0 || f.stuck).Sublist s.faults := List.filter_sublist
  have hstep : s.decodeStore c0 0 0xFFFF false false = State.corrected { s with faults := s.faults.filter fun f => f.addr != c0 || f.stuck } c0 sym pat 0 0xFFFF := by
    unfold State.decodeStore
    rw [hc]
  obtain ⟨tr, ps, ws, u, rs, fu, ps', ws', hu, ht⟩ := State.corrected_spec { s with faults := s.faults.filter fun f => f.addr != c0 || f.stuck } c0 sym pat 0 0xFFFF
  rw [← hstep, granule_of_codeword ha hc0] at *
  have hdec : Decoded s { s with faults := s.faults.filter (fun f => f.addr != c0 || f.stuck), trackers := tr, parts := ps, windows := ws } :=
    ⟨_, _, _, [], _, _, _, _, by rw [List.append_nil]⟩
  have hmoved : State.moved { s with faults := s.faults.filter (fun f => f.addr != c0 || f.stuck), trackers := tr, parts := ps, windows := ws } a
      = { s with faults := s.faults.filter (fun f => f.addr != c0 || f.stuck), trackers := tr, parts := ps, windows := ws } := by
    refine State.moved_of_read fun cw hcw => ?_
    by_cases hne : cw = c0
    · obtain ⟨hp, hl⟩ := corrected_iff hc
      rw [hne]
      exact decodeCw_of_short hp ((hdec.symbolsAt_length hsub c0).trans hl)
    · rw [hdec.clean hsub ((clean_iff cw).mp (hclean cw hcw hne)).1 (hclean cw hcw hne)]
      exact ⟨by decide, by decide⟩
  have hus : u = { s with faults := s.faults.filter (fun f => f.addr != c0 || f.stuck), trackers := tr, parts := ps, windows := ws } :=
    hu.elim id fun h => h.trans hmoved
  subst hus
  have hd : Decoded s (s.decodeStore c0 0 0xFFFF false false) := by
    rw [ht]
    exact ⟨_, _, _, rs, _, _, _, _, rfl⟩
  have hfaults : (s.decodeStore c0 0 0xFFFF false false).faults = s.faults.filter fun f => f.addr != c0 || f.stuck := by rw [ht]
  have hpoison : (s.decodeStore c0 0 0xFFFF false false).poison = s.poison := by rw [ht]
  intro t
  have hfold : t = s.decodeStore c0 0 0xFFFF false false := by
    refine decodeStores_one (granuleCodewords_nodup a) hc0 (fun cw hcw hne => Or.inl (hclean cw hcw hne)) fun cw hcw hne => Or.inl ?_
    exact hd.clean (hfaults ▸ hsub) (hpoison ▸ ((clean_iff cw).mp (hclean cw hcw hne)).1) (hclean cw hcw hne)
  rw [hfold]
  exact ⟨by rw [ht], hpoison, hfaults, hd⟩

theorem length_le_one_of_eq {l : List Nat} (hnd : l.Nodup) (h : ∀ x ∈ l, x = c0) : l.length ≤ 1 := by
  match l, hnd, h with
  | [], _, _ => exact Nat.zero_le 1
  | [x], _, _ => exact le_rfl
  | x :: y :: l, hnd, h =>
    have hxy : x = y := (h x List.mem_cons_self).trans (h y (List.mem_cons_of_mem _ List.mem_cons_self)).symm
    exact absurd (hxy ▸ List.mem_cons_self) (List.nodup_cons.mp hnd).1

/-- All but one of a granule's codewords carry the poison pattern: in the sump that is enough to read as poisoned (R273). -/
theorem sump_readsPoisoned (ha : a % 64 = 0) {cw : Nat} (hcw : cw ∈ granuleCodewords a) (hsump : inSump cw = true)
    (h : ∀ c ∈ granuleCodewords a, c ≠ c0 → s.symbolsAt c = []) : 9 ≤ ((granuleCodewords (cw / 64 * 64)).filter s.carriesPoison).length := by
  rw [granule_of_codeword ha hcw]
  obtain ⟨hlo, hhi⟩ := mem_granuleCodewords ha hcw
  have hb : 0 < codewordBytes cw := by unfold codewordBytes; split <;> decide
  have hlen : (granuleCodewords a).length = 16 := by
    unfold granuleCodewords codewordsIn
    rw [if_neg (by decide), List.length_map, List.length_range, ← inSump_of_granule ha hlo (by omega), hsump]
    simp only [if_true]
    omega
  have hrest : ((granuleCodewords a).filter fun c => !s.carriesPoison c).length ≤ 1 := by
    refine length_le_one_of_eq (c0 := c0) ((granuleCodewords_nodup a).filter _) fun c hc => ?_
    obtain ⟨hm, hnot⟩ := List.mem_filter.mp hc
    by_contra hne
    have hcarry : s.carriesPoison c = true := by
      unfold State.carriesPoison
      rw [h c hm hne]
    rw [hcarry] at hnot
    contradiction
  have htotal := List.length_eq_length_filter_add (l := granuleCodewords a) s.carriesPoison
  omega

/-- The codewords that read clean read clean or poisoned once the unit of another has been poisoned. -/
theorem Decoded.others {t : State} (h : Decoded s t) (hf : t.faults.Sublist s.faults) (hp : ∀ v, v ∈ t.poison ↔ v = poisonUnit c0 ∨ v ∈ s.poison)
    (ha : a % 64 = 0) (hclean : ∀ cw ∈ granuleCodewords a, cw ≠ c0 → s.decodeCw cw = .clean) {cw : Nat} (hcw : cw ∈ granuleCodewords a) (hne : cw ≠ c0) :
    t.decodeCw cw = .clean ∨ t.decodeCw cw = .poisoned := by
  have hsym : ∀ c ∈ granuleCodewords a, c ≠ c0 → t.symbolsAt c = [] := fun c hc hcn => h.symbolsAt_nil hf ((clean_iff c).mp (hclean c hc hcn)).2
  by_cases hpo : poisonUnit cw ∈ t.poison
  · have hreads : t.readsPoisoned cw = true := by
      unfold State.readsPoisoned
      split
      · rfl
      · split
        next hsump => exact decide_eq_true (sump_readsPoisoned ha hcw hsump hsym)
        · unfold State.carriesPoison
          rw [hsym cw hcw hne]
    right
    unfold State.decodeCw
    rw [if_pos (List.contains_iff_mem.mpr hpo), if_pos hreads]
  · exact Or.inl ((clean_iff cw).mpr ⟨hpo, hsym cw hcw hne⟩)

/-- How a codeword reads depends on the poisoned units, whatever their order. -/
theorem decodeCw_congr {m : Tbl Byte} {po : List Nat} {ps : List Part} {ws : List Window} (hp : ∀ v, v ∈ po ↔ v ∈ s.poison) (cw : Nat) :
    State.decodeCw { s with mem := m, poison := po, parts := ps, windows := ws } cw = s.decodeCw cw := by
  have hc : po.contains (poisonUnit cw) = s.poison.contains (poisonUnit cw) := by
    rw [Bool.eq_iff_iff, List.contains_iff_mem, List.contains_iff_mem, hp]
  unfold State.decodeCw
  dsimp only
  rw [hc]
  rfl

/-- The bytes of a granule outside a codeword stay when the codeword is stored as it reads. -/
theorem writeBack_outside (ha : a % 64 = 0) (hc0 : c0 ∈ granuleCodewords a) (hok : Tbl.ok 0 s.mem = true) {b : Nat} (hb : codewordOf b ≠ c0) :
    Tbl.get 0 (s.writeBack c0).mem b = Tbl.get 0 s.mem b := by
  obtain ⟨hlo, hhi⟩ := mem_granuleCodewords ha hc0
  rw [State.writeBack_mem, get_putBytes hok, State.read_length, if_neg]
  rintro ⟨h1, h2⟩
  apply hb
  have hs : inSump b = inSump c0 := by rw [inSump_of_granule ha (by omega) (by omega), inSump_of_granule ha hlo (by unfold codewordBytes at hhi; split at hhi <;> omega)]
  have hmem := hc0
  unfold granuleCodewords codewordsIn at hmem
  rw [if_neg (by decide), ← inSump_of_granule ha hlo (by unfold codewordBytes at hhi; split at hhi <;> omega)] at hmem
  obtain ⟨i, -, hi⟩ := List.mem_map.mp hmem
  unfold codewordOf
  unfold codewordBytes at h2
  rw [hs]
  split at h2
  next h =>
    rw [if_pos h] at hi ⊢
    omega
  next h =>
    rw [if_neg h] at hi ⊢
    omega

/-- A codeword whose unit is poisoned moves at most itself, and no further unit is poisoned by it. -/
theorem State.moveCw_poisoned (hp : poisonUnit c0 ∈ s.poison) : ∃ m po ps ws, s.moveCw c0 = { s with mem := m, poison := po, parts := ps, windows := ws }
    ∧ (m = s.mem ∨ m = (s.writeBack c0).mem) ∧ ∀ v, v ∈ po ↔ v ∈ s.poison := by
  unfold State.moveCw
  split
  · obtain ⟨ps, ws, he⟩ := State.memEvent_eq ((s.writeBack c0).addPoison (poisonUnit c0)) 2 c0 0 0 0xFFFF
    refine ⟨_, _, ps, ws, he, Or.inr rfl, fun v => mem_setIns.trans ⟨fun h => ?_, Or.inr⟩⟩
    exact h.elim (fun h => h ▸ hp) id
  · exact ⟨_, s.poison, s.parts, s.windows, rfl, Or.inr rfl, fun _ => Iff.rfl⟩
  · exact ⟨s.mem, s.poison, s.parts, s.windows, rfl, Or.inl rfl, fun _ => Iff.rfl⟩

/-- A granule of which one codeword alone is not read as data or as poison moves with that codeword as it reads. -/
theorem State.moved_one (hc0 : c0 ∈ granuleCodewords a) (hp : poisonUnit c0 ∈ s.poison)
    (hothers : ∀ cw ∈ granuleCodewords a, cw ≠ c0 → s.decodeCw cw = .clean ∨ s.decodeCw cw = .poisoned) :
    ∃ m po ps ws, s.moved a = { s with mem := m, poison := po, parts := ps, windows := ws } ∧ (m = s.mem ∨ m = (s.writeBack c0).mem)
      ∧ ∀ v, v ∈ po ↔ v ∈ s.poison := by
  unfold State.moved
  split
  · exact ⟨s.mem, s.poison, s.parts, s.windows, rfl, Or.inl rfl, fun _ => Iff.rfl⟩
  · have hquiet : ∀ (t : State) (l : List Nat), (∀ cw ∈ l, t.decodeCw cw = .clean ∨ t.decodeCw cw = .poisoned) → l.foldl State.moveCw t = t := by
      intro t l hl
      induction l with
      | nil => rfl
      | cons cw l ih =>
        have hcw : t.moveCw cw = t := by
          unfold State.moveCw
          rcases hl cw List.mem_cons_self with h | h <;> rw [h]
        rw [List.foldl_cons, hcw]
        exact ih fun c hc => hl c (List.mem_cons_of_mem _ hc)
    obtain ⟨m, po, ps, ws, hmove, hm, hpo⟩ := State.moveCw_poisoned hp
    have hnd := granuleCodewords_nodup a
    obtain ⟨l1, l2, hl⟩ := List.append_of_mem hc0
    rw [hl] at hnd hothers ⊢
    have hne1 : ∀ cw ∈ l1, cw ≠ c0 := fun cw hcw he => (List.nodup_append.mp hnd).2.2 cw hcw c0 List.mem_cons_self he
    have hne2 : ∀ cw ∈ l2, cw ≠ c0 := fun cw hcw he => (List.nodup_cons.mp (List.nodup_append.mp hnd).2.1).1 (he ▸ hcw)
    refine ⟨m, po, ps, ws, ?_, hm, hpo⟩
    rw [List.foldl_append, hquiet s l1 fun cw hcw => hothers cw (List.mem_append_left _ hcw) (hne1 cw hcw), List.foldl_cons, hmove]
    refine hquiet _ l2 fun cw hcw => ?_
    rw [decodeCw_congr hpo]
    exact hothers cw (List.mem_append_right _ (List.mem_cons_of_mem _ hcw)) (hne2 cw hcw)

/-- One uncorrectable codeword in a granule that is else clean: its unit is poisoned, and no byte outside it changes (R269, R275). -/
theorem decodeStores_uncorrectable (ha : a % 64 = 0) (hc0 : c0 ∈ granuleCodewords a) (hclean : ∀ cw ∈ granuleCodewords a, cw ≠ c0 → s.decodeCw cw = .clean)
    (hc : s.decodeCw c0 = .uncorrectable) :
    let t := (granuleCodewords a).foldl (fun s cw => s.decodeStore cw 0 0xFFFF false false) s
    (∀ v, v ∈ t.poison ↔ v = poisonUnit c0 ∨ v ∈ s.poison)
      ∧ (Tbl.ok 0 s.mem = true → ∀ b, codewordOf b ≠ c0 → Tbl.get 0 t.mem b = Tbl.get 0 s.mem b)
      ∧ t.faults = s.faults.filter (fun f => f.stuck || poisonUnit f.addr != poisonUnit c0) ∧ Decoded s t := by
  have hsub : (s.faults.filter fun f => f.stuck || poisonUnit f.addr != poisonUnit c0).Sublist s.faults := List.filter_sublist
  obtain ⟨ps, ws, he⟩ := State.memEvent_eq (State.addPoison { s.writeBack c0 with
    faults := s.faults.filter fun f => f.stuck || poisonUnit f.addr != poisonUnit c0 } (poisonUnit c0)) 2 c0 0 0 0xFFFF
  have hstep : s.decodeStore c0 0 0xFFFF false false = State.repair (State.memEvent (State.addPoison { s.writeBack c0 with
      faults := s.faults.filter fun f => f.stuck || poisonUnit f.addr != poisonUnit c0 } (poisonUnit c0)) 2 c0 0 0 0xFFFF) c0 15 := by
    unfold State.decodeStore
    rw [hc]
    rfl
  rw [he] at hstep
  generalize hs2 : ({ State.addPoison { s.writeBack c0 with faults := s.faults.filter fun f => f.stuck || poisonUnit f.addr != poisonUnit c0 }
    (poisonUnit c0) with parts := ps, windows := ws } : State) = s2 at hstep
  have hdec : Decoded s s2 := ⟨_, _, _, [], _, _, _, _, by rw [← hs2, List.append_nil]; rfl⟩
  have hf2 : s2.faults = s.faults.filter fun f => f.stuck || poisonUnit f.addr != poisonUnit c0 := by rw [← hs2]; rfl
  have hp2 : ∀ v, v ∈ s2.poison ↔ v = poisonUnit c0 ∨ v ∈ s.poison := by rw [← hs2]; exact fun v => mem_setIns
  have hm2 : s2.mem = (s.writeBack c0).mem := by rw [← hs2]; rfl
  obtain ⟨m, po, ps', ws', hmoved, hm, hpo⟩ := State.moved_one hc0 ((hp2 _).mpr (Or.inl rfl)) fun cw hcw hne => hdec.others (hf2 ▸ hsub) hp2 ha hclean hcw hne
  obtain ⟨u, rs, fu, ps3, ws3, hu, ht⟩ := State.repair_spec s2 c0 15
  rw [granule_of_codeword ha hc0] at hu
  have hup : ∀ v, v ∈ u.poison ↔ v = poisonUnit c0 ∨ v ∈ s.poison := by
    rcases hu with rfl | rfl
    · exact hp2
    · rw [hmoved]
      exact fun v => (hpo v).trans (hp2 v)
  have hum : Tbl.ok 0 s.mem = true → ∀ b, codewordOf b ≠ c0 → Tbl.get 0 u.mem b = Tbl.get 0 s.mem b := by
    intro hok b hb
    have hw := writeBack_outside ha hc0 hok hb
    rw [← hm2] at hw
    rcases hu with rfl | rfl
    · exact hw
    · rw [hmoved]
      rcases hm with rfl | rfl
      · exact hw
      · have hok2 : Tbl.ok 0 s2.mem = true := by
          rw [hm2, State.writeBack_mem]
          exact ok_putBytes _ hok
        exact (writeBack_outside ha hc0 hok2 hb).trans hw
  have hd : Decoded s (s.decodeStore c0 0 0xFFFF false false) := by
    rw [hstep, ht]
    exact hdec.trans ⟨_, _, _, rs, _, _, _, _, rfl⟩
  have hfaults : (s.decodeStore c0 0 0xFFFF false false).faults = s.faults.filter fun f => f.stuck || poisonUnit f.addr != poisonUnit c0 := by
    rw [hstep, ht]
    exact hf2
  have hpoison : ∀ v, v ∈ (s.decodeStore c0 0 0xFFFF false false).poison ↔ v = poisonUnit c0 ∨ v ∈ s.poison := by
    rw [hstep, ht]
    exact hup
  intro t
  have hfold : t = s.decodeStore c0 0 0xFFFF false false :=
    decodeStores_one (granuleCodewords_nodup a) hc0 (fun cw hcw hne => Or.inl (hclean cw hcw hne)) fun cw hcw hne =>
      hd.others (hfaults ▸ hsub) hpoison ha hclean hcw hne
  rw [hfold]
  refine ⟨hpoison, fun hok b hb => ?_, hfaults, hd⟩
  rw [hstep, ht]
  exact hum hok b hb

end

/-! The commands. -/

theorem addrOf_granule (s : State) (m : MemKind) (u g : Nat) : s.addrOf m u (64 * g) % 64 = 0 := by
  have hscratch : scratchBase % 64 = 0 := by decide
  have hslice : sliceBytes % 64 = 0 := by decide
  have hsump : sumpBase % 64 = 0 := by decide
  have hsumpQuarter : sumpQuarter % 64 = 0 := by decide
  have hhbmQuarter : hbmQuarter % 64 = 0 := by decide
  have hmul : ∀ a b : Nat, b % 64 = 0 → a * b % 64 = 0 := fun a b hb => by rw [Nat.mul_mod, hb, Nat.mul_zero]
  unfold State.addrOf
  cases m with
  | scratchpad =>
    have hu := hmul u _ hslice
    dsimp only
    omega
  | hbm =>
    have hp := hmul (s.lowQ (u / 2)) _ hhbmQuarter
    dsimp only
    rw [if_pos rfl]
    omega
  | sump =>
    have hp := hmul (s.lowQ (u / 2)) _ hsumpQuarter
    dsimp only
    rw [if_neg (by decide)]
    omega

theorem State.drain_of_none {s : State} {g : Nat} (h : ∀ e ∈ s.merge, e.granule ≠ g) : s.drain g = s := by
  have hn : s.entryAt g = none := by
    refine List.find?_eq_none.mpr fun e he => ?_
    rw [beq_iff_eq]
    exact h e he
  unfold State.drain
  rw [hn]

theorem State.scrubber_key (s : State) (m : MemKind) (u : Nat) : (s.scrubber m u).mem = m ∧ (s.scrubber m u).unit = u := by
  unfold State.scrubber
  cases hf : s.scrubbers.find? fun x => x.mem == m && x.unit == u with
  | none => exact ⟨rfl, rfl⟩
  | some x =>
    have hx := List.find?_some hf
    rw [Bool.and_eq_true, beq_iff_eq, beq_iff_eq] at hx
    exact hx

theorem State.scrubber_setScrubber (s : State) (x : Scrubber) : (s.setScrubber x).scrubber x.mem x.unit = x := by
  have hnone : (s.scrubbers.filter fun y => !(y.mem == x.mem && y.unit == x.unit)).find? (fun y => y.mem == x.mem && y.unit == x.unit) = none := by
    refine List.find?_eq_none.mpr fun y hy hp => ?_
    have hy2 := (List.mem_filter.mp hy).2
    rw [hp] at hy2
    contradiction
  unfold State.setScrubber State.scrubber
  dsimp only
  rw [List.find?_append, hnone, Option.none_or, List.find?_cons_of_pos (by rw [beq_self_eq_true, beq_self_eq_true]; rfl), Option.getD_some]

theorem scrubber_step {s : State} {m : MemKind} {u : Nat} (x : Scrubber) (hx : x.mem = m ∧ x.unit = u) : (s.setScrubber x).scrubber m u = x := by
  obtain ⟨rfl, rfl⟩ := hx
  exact s.scrubber_setScrubber x

/-- SCRUB_READ of a unit with a granule left and no merge-buffer entry for it. -/
theorem execScrubRead_of_left {s : State} {m : MemKind} {u : Nat} (hs : s.scrubs m u = true) (hl : (s.scrubber m u).granule < s.unitGranules m u)
    (hm : ∀ e ∈ s.merge, e.granule ≠ s.addrOf m u (64 * (s.scrubber m u).granule)) :
    execScrubRead m u s = .next (State.setScrubber
      ((granuleCodewords (s.addrOf m u (64 * (s.scrubber m u).granule))).foldl (fun s cw => s.decodeStore cw 0 0xFFFF false false) s)
      { s.scrubber m u with granule := (s.scrubber m u).granule + 1 }) := by
  unfold execScrubRead
  dsimp only
  rw [if_pos (by rw [hs, decide_eq_true hl]; rfl), State.drain_of_none hm]

theorem unitsIn_clean {s : State} (l : List Nat) :
    let t := l.foldl State.cleanUnit s
    t.mem = s.mem ∧ t.merge = s.merge ∧ ∀ v, v ∈ t.poison ↔ v ∈ s.poison ∧ v ∉ l := by
  induction l generalizing s with
  | nil => exact ⟨rfl, rfl, fun v => ⟨fun h => ⟨h, List.not_mem_nil⟩, fun h => h.1⟩⟩
  | cons x l ih =>
    obtain ⟨hm, hg, hp⟩ := ih (s := s.cleanUnit x)
    have hx : ∀ v, v ∈ (s.cleanUnit x).poison ↔ v ≠ x ∧ v ∈ s.poison := fun v => by
      show v ∈ setDel s.poison x ↔ _
      unfold setDel
      rw [List.mem_filter]
      simp [and_comm]
    refine ⟨hm, hg, fun v => (hp v).trans ?_⟩
    rw [hx, List.mem_cons, not_or]
    tauto

/-- Settles O46: SCRUB_READ, SCRUB_PASS_END and MERGE_ENTRY_TIMEOUT, granule by granule. -/
theorem scrubbingAndMerging : Obligations.ScrubbingAndMerging := by
  intro s
  refine ⟨fun m u hs => ?_, fun m u hs => ?_, fun g => ⟨fun hm => ?_, fun e he => ?_⟩⟩
  · have hkey := s.scrubber_key m u
    refine ⟨fun hl hm => ?_, fun hl => ?_, fun hpos hl => ?_⟩
    · have hrun := execScrubRead_of_left hs hl hm
      have ha := addrOf_granule s m u (s.scrubber m u).granule
      refine ⟨fun hq => ?_, fun c0 hc0 hclean => ⟨fun sym pat hc => ?_, fun hc => ?_⟩⟩
      · rw [decodeStores_quiet hq] at hrun
        exact hrun
      · obtain ⟨hmem, hpoison, hfaults, -⟩ := decodeStores_corrected ha hc0 hclean hc
        exact ⟨_, hrun, hmem, hpoison, hfaults, congrArg Scrubber.granule (scrubber_step { s.scrubber m u with granule := (s.scrubber m u).granule + 1 } hkey)⟩
      · obtain ⟨hpoison, hmem, hfaults, -⟩ := decodeStores_uncorrectable ha hc0 hclean hc
        exact ⟨_, hrun, hpoison, hmem, hfaults, congrArg Scrubber.granule (scrubber_step { s.scrubber m u with granule := (s.scrubber m u).granule + 1 } hkey)⟩
    · show execScrubRead m u s = _
      unfold execScrubRead
      dsimp only
      rw [if_neg (by rw [decide_eq_false (Nat.not_lt.mpr hl), Bool.and_false]; exact Bool.false_ne_true)]
    · refine ⟨{ s.setScrubber { s.scrubber m u with granule := 0, passes := (s.scrubber m u).passes + 1 } with trackers := s.trackers.filter fun y => !(y.mem == m && (if m = .hbm then y.unit / 64 else y.unit) == u) }, ?_, ?_, rfl⟩
      · show execScrubPassEnd m u s = _
        unfold execScrubPassEnd
        dsimp only
        rw [if_pos (by rw [hs, decide_eq_true ⟨hpos, hl⟩]; rfl)]
      · exact scrubber_step (s := s) { s.scrubber m u with granule := 0, passes := (s.scrubber m u).passes + 1 } hkey
  · constructor
    · show execScrubRead m u s = _
      unfold execScrubRead
      dsimp only
      rw [if_neg (by rw [hs]; exact Bool.false_ne_true)]
    · show execScrubPassEnd m u s = _
      unfold execScrubPassEnd
      dsimp only
      rw [if_neg (by rw [hs]; exact Bool.false_ne_true)]
  · exact congrArg Host.Outcome.next (State.drain_of_none hm)
  · refine ⟨s.drain g, rfl, State.drain_only s g rfl, fun hall => ?_, fun hne hf => ?_⟩
    · have hd : s.drain g = { (unitsIn g 64).foldl State.cleanUnit s with merge := ((unitsIn g 64).foldl State.cleanUnit s).merge.filter fun e => e.granule != g } := by
        unfold State.drain State.entryAt
        rw [he]
        dsimp only
        rw [if_pos hall]
      obtain ⟨hmem, hmerge, hpoison⟩ := unitsIn_clean (s := s) (unitsIn g 64)
      rw [hd]
      exact ⟨hmem, congrArg (List.filter fun e => e.granule != g) hmerge, hpoison⟩
    · unfold State.drain State.entryAt
      rw [he]
      dsimp only
      rw [if_neg hne, if_pos (by rw [hf]; rfl)]

/-! Retirement of an array (R127, R410, R417). -/

/-- Insertion keeps a rising list rising. -/
theorem insertBy_rising {x : Nat} {l : List Nat} (h : l.Pairwise (· ≤ ·)) : (insertBy (· < ·) x l).Pairwise (· ≤ ·) := by
  induction l with
  | nil => exact List.pairwise_singleton _ _
  | cons y l ih =>
    obtain ⟨hy, hl⟩ := List.pairwise_cons.mp h
    rw [insertBy]
    split
    · next hlt =>
      have hxy : x ≤ y := Nat.le_of_lt (of_decide_eq_true hlt)
      refine List.pairwise_cons.mpr ⟨fun z hz => ?_, h⟩
      rcases List.mem_cons.mp hz with rfl | hz
      · exact hxy
      · exact hxy.trans (hy z hz)
    · next hlt =>
      have hyx : y ≤ x := Nat.le_of_not_lt fun hx => hlt (decide_eq_true hx)
      refine List.pairwise_cons.mpr ⟨fun z hz => ?_, ih hl⟩
      rcases List.mem_cons.mp ((insertBy_perm _ x l).mem_iff.mp hz) with rfl | hz
      · exact hyx
      · exact hy z hz

theorem sortBy_rising (l : List Nat) : (sortBy (· < ·) l).Pairwise (· ≤ ·) := by
  have hfold : ∀ acc : List Nat, acc.Pairwise (· ≤ ·) → (l.foldl (fun acc x => insertBy (· < ·) x acc) acc).Pairwise (· ≤ ·) := by
    induction l with
    | nil => exact fun acc h => h
    | cons x l ih => exact fun acc h => ih _ (insertBy_rising h)
  exact hfold [] List.Pairwise.nil

/-- The first of a sorted list is its least. -/
theorem head_sortBy {l : List Nat} {b : Nat} (hb : b ∈ l) (hmin : ∀ x ∈ l, b ≤ x) : (sortBy (· < ·) l)[0]? = some b := by
  have hperm := sortBy_perm (fun a b : Nat => decide (a < b)) l
  have hrise := sortBy_rising l
  cases hs : sortBy (fun a b : Nat => decide (a < b)) l with
  | nil =>
    rw [hs] at hperm
    exact absurd (hperm.mem_iff.mpr hb) List.not_mem_nil
  | cons y ys =>
    rw [hs] at hperm hrise
    have hyb : y ≤ b := by
      rcases List.mem_cons.mp (hperm.mem_iff.mpr hb) with rfl | hb'
      · exact le_refl _
      · exact (List.pairwise_cons.mp hrise).1 b hb'
    have hby : b ≤ y := hmin y (hperm.mem_iff.mp List.mem_cons_self)
    rw [List.getElem?_cons_zero, le_antisymm hyb hby]

theorem onArray_isEmpty {pt : Part} {a : Nat} : (pt.onArray a).isEmpty = true ↔ ∀ k ∈ pt.packets, ∀ sn, k.snap = some sn → a ∉ sn.leaves := by
  unfold Part.onArray
  rw [List.isEmpty_iff, List.map_eq_nil_iff, List.filter_eq_nil_iff]
  refine forall₂_congr fun k _ => ?_
  cases k.snap with
  | none => simp
  | some sn => simp

theorem State.logQuarter_retirement (s : State) (q : Nat) (r : LogRecord) :
    (s.logQuarter q r).retired = s.retired ∧ (s.logQuarter q r).retiring = s.retiring := by
  have h : Safety.sansData (s.logQuarter q r) = Safety.sansData s := State.logQuarter_only s q r rfl
  have hr := congrArg State.retired h
  have hg := congrArg State.retiring h
  exact ⟨hr, hg⟩

theorem notMem_setDel {l : List Nat} {n : Nat} : n ∉ setDel l n := by
  unfold setDel
  rw [List.mem_filter]
  simp

/-- Settles O47: an array that awaits retirement leaves once no packet is on it, and its quarter's lowest spare takes its place. -/
theorem arraysRetire : Obligations.ArraysRetire := by
  intro a s hfatal
  refine ⟨fun hret hfree hnew => ?_, fun hno => ?_⟩
  · have hrun : execArrayAutoRetire a s = .next (s.retireArray a
        (((((s.part (s.lowQ (a / 64))).log.reverse).find? fun r => r.event == 0x40 && r.unit == a).map (·.ring)).getD 0xFFFF)) := by
      unfold execArrayAutoRetire
      dsimp only
      rw [if_neg]
      rw [onArray_isEmpty.mpr hfree, hfatal, List.contains_iff_mem.mpr hret]
      decide
    generalize ((((s.part (s.lowQ (a / 64))).log.reverse).find? fun r => r.event == 0x40 && r.unit == a).map (·.ring)).getD 0xFFFF = ring at hrun
    refine ⟨_, hrun, ?_⟩
    have hnew' : ¬s.retired.contains a = true := fun h => hnew (List.contains_iff_mem.mp h)
    unfold State.retireArray
    rw [if_neg hnew']
    dsimp only
    by_cases hr : s.reserve.contains a = true
    · rw [if_pos hr]
      have hkept := State.logQuarter_retirement { s with reserve := setDel s.reserve a, retired := setIns s.retired a, retiring := setDel s.retiring a } (a / 64) { mkEvent 0x4A a 0xFFFF with ring := ring }
      refine ⟨?_, ?_, fun _ => ⟨ring, rfl⟩, fun h => absurd (List.contains_iff_mem.mp hr) h, fun h => absurd (List.contains_iff_mem.mp hr) h⟩
      · rw [hkept.1]
        exact mem_setIns.mpr (Or.inl rfl)
      · rw [hkept.2]
        exact notMem_setDel
    · rw [if_neg hr]
      refine ⟨?_, ?_, fun h => absurd (List.contains_iff_mem.mpr h) hr, fun _ b hb hmin => ⟨ring, ?_⟩, fun _ hnone => ⟨ring, ?_⟩⟩
      · rw [(State.logQuarter_retirement _ _ _).1]
        exact mem_setIns.mpr (Or.inl rfl)
      · rw [(State.logQuarter_retirement _ _ _).2]
        exact notMem_setDel
      · have hs : s.nextSpare (a / 64) = some b := head_sortBy hb hmin
        rw [hs]
        rfl
      · have hs : s.nextSpare (a / 64) = none := by
          unfold State.nextSpare
          rw [hnone]
          rfl
        rw [hs]
        rfl
  · show execArrayAutoRetire a s = _
    unfold execArrayAutoRetire
    dsimp only
    rw [if_pos]
    rcases hno with h | h
    · exact Or.inl (Bool.eq_false_iff.mpr fun hc => h (List.contains_iff_mem.mp hc))
    · exact Or.inr (Or.inr (Bool.eq_false_iff.mpr fun hc => h (onArray_isEmpty.mp hc)))

end Sys2Proof.Machine
end

section
/-! PROOF. Lanug messages received: what drops them, and what an accepted data message, response or control message does (R310, R322, R331 to R340, R433). -/

namespace Sys2Proof.Machine

open Safety (OnlyData OnlyWork)

section

variable {s : State} {i p : Nat} {m : Msg} {mtype : Nat} {f : State → State}

/-! Receiving. -/

theorem takes_iff : Claims.Takes s i ↔ (!s.runsLanug i || (s.port i).state != .up || s.halvesDown.contains (portHalf i)) = false := by
  unfold Claims.Takes
  rw [Bool.or_eq_false_iff, Bool.or_eq_false_iff, Bool.not_eq_false', bne_eq_false_iff_eq, and_assoc, ← List.contains_iff_mem, Bool.not_eq_true]

theorem State.receive_of_not_takes (h : ¬Claims.Takes s i) : s.receive i mtype m f = s :=
  if_pos (by rwa [takes_iff, Bool.not_eq_false] at h)

/-- A message on another channel than that of its type. -/
def wrongChannel (s : State) (i : Nat) (m : Msg) : Bool := match (s.port i).carrying m with | some v => v != vcOf m.mtype | none => false

theorem wrongChannel_iff : wrongChannel s i m = true ↔ ∃ v, (s.port i).carrying m = some v ∧ v ≠ vcOf m.mtype := by
  unfold wrongChannel
  cases (s.port i).carrying m with
  | none => simp
  | some v => simp

theorem State.receive_of_takes (h : Claims.Takes s i) : s.receive i mtype m f =
    if m.mtype = 0 ∨ 9 < m.mtype ∨ m.dstEp ≠ s.endpoint ∨ wrongChannel s i m = true then (s.modPort i (·.consume m)).dropMsg i
    else if m.mtype ≠ mtype then s else f (s.modPort i (·.consume m)) :=
  if_neg (by rw [takes_iff.mp h]; exact Bool.false_ne_true)

theorem State.receive_of_wrong (h : Claims.Takes s i)
    (hw : m.mtype = 0 ∨ 9 < m.mtype ∨ m.dstEp ≠ s.endpoint ∨ ∃ v, (s.port i).carrying m = some v ∧ v ≠ vcOf m.mtype) :
    s.receive i mtype m f = (s.modPort i (·.consume m)).dropMsg i := by
  rw [State.receive_of_takes h, if_pos (by rwa [wrongChannel_iff])]

theorem State.receive_of_arrives (h : Claims.Arrives s i m mtype) (hpos : mtype ≠ 0 := by decide) (hle : mtype ≤ 9 := by decide) :
    s.receive i mtype m f = f (s.modPort i (·.consume m)) := by
  obtain ⟨⟨hruns, hup, hhalf⟩, htype, hdst, hchan⟩ := h
  exact State.receive_arrives hruns hup (Bool.eq_false_iff.mpr fun hc => hhalf (List.contains_iff_mem.mp hc)) htype hdst hchan hpos hle f

/-! The epoch check (Table 14.3). -/

theorem Claims.Listens.consume (h : Claims.Listens s i p) (m : Msg) : Claims.Listens (s.modPort i (·.consume m)) i p := by
  obtain ⟨hpart, hstandby, hwaking, hkeys⟩ := h
  refine ⟨hpart, hstandby, hwaking, fun hc => ?_⟩
  rw [State.consume_keys]
  exact hkeys hc

theorem Claims.Accepts.consume (h : Claims.Accepts s i p m) : Claims.Accepts (s.modPort i (·.consume m)) i p m := by
  obtain ⟨hl, hrest⟩ := h
  exact ⟨Claims.Listens.consume hl m, hrest⟩

/-- What the check leaves to decide for a partition that can listen. -/
theorem State.checked_of_awake {exempt : Bool} (hpart : s.isPart p = true) (h1 : (s.part p).pstate ≠ .standby) (h2 : (s.part p).pstate ≠ .waking) :
    s.checked i p m exempt f =
      if (s.part p).confidential && (s.port i).keys.isNone && !exempt then s.dropMsg i
      else if (s.part p).members.isEmpty || (s.part p).quarantined then s.modPart p fun pt => { pt with unsetDrops := satAdd (2 ^ 64 - 1) pt.unsetDrops 1 }
      else if !(s.part p).members.contains m.srcEp then
        (s.modPart p fun pt => { pt with staleDrops := satAdd (2 ^ 64 - 1) pt.staleDrops 1 }).sendStale p m
      else if m.epoch < (s.part p).epoch then s.modPart p fun pt => { pt with lagDrops := satAdd (2 ^ 64 - 1) pt.lagDrops 1 }
      else if (s.part p).epoch < m.epoch then s.modPart p fun pt => { pt with earlyDrops := satAdd (2 ^ 64 - 1) pt.earlyDrops 1 }
      else f s := by
  unfold State.checked
  dsimp only
  rw [if_neg]
  rw [hpart]
  cases h : (s.part p).pstate with
  | standby => exact absurd h h1
  | waking => exact absurd h h2
  | _ => exact Bool.false_ne_true

theorem State.checked_of_listens {exempt : Bool} (h : Claims.Listens s i p) :
    s.checked i p m exempt f =
      if (s.part p).members.isEmpty || (s.part p).quarantined then s.modPart p fun pt => { pt with unsetDrops := satAdd (2 ^ 64 - 1) pt.unsetDrops 1 }
      else if !(s.part p).members.contains m.srcEp then
        (s.modPart p fun pt => { pt with staleDrops := satAdd (2 ^ 64 - 1) pt.staleDrops 1 }).sendStale p m
      else if m.epoch < (s.part p).epoch then s.modPart p fun pt => { pt with lagDrops := satAdd (2 ^ 64 - 1) pt.lagDrops 1 }
      else if (s.part p).epoch < m.epoch then s.modPart p fun pt => { pt with earlyDrops := satAdd (2 ^ 64 - 1) pt.earlyDrops 1 }
      else f s := by
  obtain ⟨hpart, h1, h2, hkeys⟩ := h
  rw [State.checked_of_awake hpart h1 h2, if_neg]
  rw [Bool.and_eq_true, Bool.and_eq_true]
  rintro ⟨⟨hc, hn⟩, -⟩
  rw [Option.isNone_iff_eq_none] at hn
  have hs := hkeys hc
  rw [hn] at hs
  contradiction

theorem State.checked_of_accepts {exempt : Bool} (h : Claims.Accepts s i p m) : s.checked i p m exempt f = f s := by
  obtain ⟨hl, hm, hq, hin, he⟩ := h
  rw [State.checked_of_listens hl, if_neg, if_neg, if_neg (by omega), if_neg (by omega)]
  · rw [List.contains_iff_mem.mpr hin]
    exact Bool.false_ne_true
  · rw [hq, Bool.or_false, List.isEmpty_iff]
    exact hm

end

/-! Messages to memory (O48, O49). -/

/-- The three messages to memory, each with its type, whether R433 exempts it, and what it does once accepted. -/
def memoryMessages (i : Nat) (m : Msg) : List (Instr × Nat × (State → Nat → Bool) × (Nat → State → State)) :=
  [(.writeMsg i m, M_WRITE, fun s p => (s.keyLanding i p m).isSome, fun p s => s.landWrite i p m),
   (.readReqMsg i m, M_READ_REQ, fun _ _ => false, fun p s => s.serveRead p m),
   (.atomicMsg i m, M_ATOMIC, fun _ _ => false, fun p s => s.serveAtomic p m)]

theorem exec_memoryMessage (i : Nat) (m : Msg) (s : State) : ∀ r ∈ memoryMessages i m, exec r.1 s =
    .next (s.receive i r.2.1 m fun s => match s.ownerOf (deviceOf m) with
      | none => s
      | some p => s.checked i p m (r.2.2.1 s p) (r.2.2.2 p)) := by
  unfold memoryMessages
  simp only [List.forall_mem_cons, List.not_mem_nil, false_imp_iff, implies_true, and_true]
  exact ⟨rfl, rfl, rfl⟩

/-- A message to memory that arrives for an owned address comes to the check. -/
theorem exec_memoryMessage_arrives {i p : Nat} {m : Msg} {s : State} {r : Instr × Nat × (State → Nat → Bool) × (Nat → State → State)}
    (hr : r ∈ memoryMessages i m) (h : Claims.Arrives s i m r.2.1) (ho : s.ownerOf (m.addr % 2 ^ 49) = some p) :
    exec r.1 s = .next ((s.modPort i (·.consume m)).checked i p m (r.2.2.1 (s.modPort i (·.consume m)) p) (r.2.2.2 p)) := by
  have htypes : ∀ r ∈ memoryMessages i m, r.2.1 ≠ 0 ∧ r.2.1 ≤ 9 := by
    unfold memoryMessages
    simp only [List.forall_mem_cons, List.not_mem_nil, false_imp_iff, implies_true, and_true]
    decide
  have htype := htypes r hr
  have ho' : (s.modPort i (·.consume m)).ownerOf (deviceOf m) = some p := ho
  rw [exec_memoryMessage i m s r hr, State.receive_of_arrives h htype.1 htype.2]
  rw [ho']

theorem min_satAdd (x : Nat) : satAdd (2 ^ 64 - 1) x 1 = min (2 ^ 64 - 1) (x + 1) := rfl

/-- Settles O48: each row of Table 14.3 drops and counts what it says, before the message does anything. -/
theorem epochCheck : Obligations.EpochCheck := by
  intro i m s cmd hcmd
  obtain ⟨r, hr, rfl, hexempt⟩ : ∃ r ∈ memoryMessages i m, cmd = (r.1, r.2.1) ∧ ∀ t p, (r.2.1 = M_WRITE → t.keyLanding i p m = none) → r.2.2.1 t p = false := by
    unfold memoryMessages
    simp only [List.mem_cons, List.not_mem_nil, or_false] at hcmd
    rcases hcmd with rfl | rfl | rfl
    · exact ⟨_, List.mem_cons_self, rfl, fun t p h => by show (t.keyLanding i p m).isSome = false; rw [h rfl]; rfl⟩
    · exact ⟨_, List.mem_cons_of_mem _ List.mem_cons_self, rfl, fun _ _ _ => rfl⟩
    · exact ⟨_, List.mem_cons_of_mem _ (List.mem_cons_of_mem _ List.mem_cons_self), rfl, fun _ _ _ => rfl⟩
  intro s1 dropped
  refine ⟨fun hno => ?_, fun htakes hwrong => ?_, fun harr p ho => ?_⟩
  · rw [exec_memoryMessage i m s r hr, State.receive_of_not_takes hno]
  · rw [exec_memoryMessage i m s r hr, State.receive_of_wrong htakes hwrong]
    rfl
  · have hrun := exec_memoryMessage_arrives hr harr ho
    intro pt count
    refine ⟨fun hpart h1 h2 hc hk hland => ?_, fun hl => ?_⟩
    · rw [hrun, State.checked_of_awake (s := s.modPort i (·.consume m)) hpart h1 h2, if_pos]
      · rfl
      · have hc' : ((s.modPort i (·.consume m)).part p).confidential = true := hc
        rw [hc', State.consume_keys, hk, hexempt _ _ hland]
        rfl
    · rw [State.checked_of_listens (Claims.Listens.consume hl m)] at hrun
      have hpt : (s.modPort i (·.consume m)).part p = pt := rfl
      simp only [hpt, min_satAdd] at hrun
      refine ⟨fun hu => ?_, fun hm hq hout => ?_, fun hm hq hin => ?_⟩
      · rw [if_pos (by rwa [Bool.or_eq_true, List.isEmpty_iff])] at hrun
        exact hrun
      · rw [if_neg (by rw [hq, Bool.or_false, List.isEmpty_iff]; exact hm), if_pos (by rw [Bool.not_eq_true', Bool.eq_false_iff]; exact fun h => hout (List.contains_iff_mem.mp h))] at hrun
        exact hrun
      · rw [if_neg (by rw [hq, Bool.or_false, List.isEmpty_iff]; exact hm), if_neg (by rw [List.contains_iff_mem.mpr hin]; exact Bool.false_ne_true)] at hrun
        refine ⟨fun hlag => ?_, fun hearly => ?_⟩
        · rw [if_pos hlag] at hrun
          exact hrun
        · rw [if_neg (by omega), if_pos hearly] at hrun
          exact hrun

/-! Accepted messages to memory. -/

theorem exec_memoryMessage_accepted {i p : Nat} {m : Msg} {s : State} {r : Instr × Nat × (State → Nat → Bool) × (Nat → State → State)}
    (hr : r ∈ memoryMessages i m) (h : Claims.Arrives s i m r.2.1) (ho : s.ownerOf (m.addr % 2 ^ 49) = some p) (ha : Claims.Accepts s i p m) :
    exec r.1 s = .next (r.2.2.2 p (s.modPort i (·.consume m))) := by
  rw [exec_memoryMessage_arrives hr h ho, State.checked_of_accepts (Claims.Accepts.consume ha)]

section

variable {s : State} {i p : Nat} {m : Msg}

theorem State.landWrite_page (h1 : s.exchangePage p ≤ deviceOf m) (h2 : deviceOf m < s.exchangePage p + 4096) :
    s.landWrite i p m = ((s.modPart p fun pt => { pt with exchange := pt.exchange ++ [ExchangeMsg.parse m.data m.poisonMap] }).respond p m M_WRITE_ACK 0 []).exchangeArrived p
      (ExchangeMsg.parse m.data m.poisonMap) := by
  unfold State.landWrite
  dsimp only
  rw [if_pos ⟨h1, h2⟩]
  rfl

/-- A WRITE outside the exchange page and every landing area. -/
theorem State.landWrite_memory (h : deviceOf m < s.exchangePage p ∨ s.exchangePage p + 4096 ≤ deviceOf m) (hkey : s.keyLanding i p m = none)
    (hgather : s.gatherLanding p m = none) (hin : s.inLanding p m = false) :
    s.landWrite i p m = if s.mayReach p m (deviceOf m) m.data.length = false then (s.refuseAccess p m).respond p m M_WRITE_ACK 0 []
      else if s.reachable (deviceOf m) m.data.length = false then s else (s.storeAll (writesOf m)).respond p m M_WRITE_ACK 0 [] := by
  unfold State.landWrite
  dsimp only
  rw [if_neg (by omega), hgather]
  dsimp only
  rw [hin, hkey, Bool.or_false]
  simp only [Bool.not_eq_true']
  rfl

theorem State.serveRead_served (hf : s.faults = []) (hm : s.mayReach p m (deviceOf m) m.len = true) (hr : s.reachable (deviceOf m) m.len = true) :
    s.serveRead p m = s.respond p m M_READ_RESP (s.poisonMapOf (deviceOf m) m.len) (s.read (deviceOf m) m.len) := by
  unfold State.serveRead
  dsimp only
  rw [if_neg (by rw [hm]; exact Bool.false_ne_true), if_neg (by rw [hr]; exact Bool.false_ne_true), if_pos (by rw [hf]; rfl)]

theorem State.serveRead_refused (hm : s.mayReach p m (deviceOf m) m.len = false) : s.serveRead p m = (s.refuseAccess p m).respond p m M_READ_RESP 0 [] :=
  if_pos (by rw [hm]; rfl)

/-! One atomic add with no symbol in error and no poison. -/

theorem State.read_of_bytes {t : State} (hf : s.faults = []) (h : SameBytes s t) (a n : Nat) : t.read a n = s.read a n := by
  unfold State.read
  refine List.map_congr_left fun k _ => ?_
  rw [State.byte_of_no_faults hf, State.byte_of_no_faults (h.2.trans hf), h.1]

theorem State.drain_poison (hf : s.faults = []) (hp : s.poison = []) (g : Nat) : (s.drain g).poison = [] := by
  have hclean : ∀ (l : List Nat) (t : State), t.poison = [] → (l.foldl State.cleanUnit t).poison = [] := by
    intro l
    induction l with
    | nil => exact fun t h => h
    | cons u l ih => exact fun t h => ih _ (by show setDel t.poison u = []; rw [h]; rfl)
  unfold State.drain
  split
  · exact hp
  · dsimp only
    split
    · exact hclean _ _ hp
    · rw [if_pos (by rw [hf]; rfl)]
      exact hp

/-- The merge-buffer entries of a list of granules drained. -/
theorem State.drains_spec (hf : s.faults = []) (hp : s.poison = []) (l : List Nat) :
    SameBytes s (l.foldl State.drain s) ∧ (l.foldl State.drain s).poison = [] ∧ OnlyData s (l.foldl State.drain s) := by
  refine ⟨foldl_bytes (fun t g ht => State.drain_bytes ht g) l s hf, ?_, only_foldl (fun t g ht => State.drain_only t g ht) rfl l⟩
  induction l generalizing s with
  | nil => exact hp
  | cons g l ih => exact ih ((State.drain_bytes hf g).2.trans hf) (State.drain_poison hf hp g)

theorem State.badIn_of_none (hf : s.faults = []) (hp : s.poison = []) (a n : Nat) : s.badIn a n = false := if_pos (by rw [hf, hp]; rfl)

/-- One add: the element found, and the sum in its place. -/
theorem State.atomicElt_spec (hf : s.faults = []) (hp : s.poison = []) (kind a y : Nat) :
    ∃ u, s.atomicElt kind a y false = (u, leNat (s.read a (atomicWidth kind)), false) ∧ OnlyData s u
      ∧ u.mem = putBytes s.mem a (toLe (atomicWidth kind) (atomicAdd kind (leNat (s.read a (atomicWidth kind))) y)) := by
  obtain ⟨hbytes, hpoison, hdata⟩ := State.drains_spec hf hp (dedupNat [a / 64 * 64, (a + atomicWidth kind - 1) / 64 * 64])
  unfold State.atomicElt
  dsimp only
  generalize (dedupNat [a / 64 * 64, (a + atomicWidth kind - 1) / 64 * 64]).foldl State.drain s = s0 at *
  have hf0 : s0.faults = [] := hbytes.2.trans hf
  have hread : s0.readNat a (atomicWidth kind) = leNat (s.read a (atomicWidth kind)) := congrArg leNat (State.read_of_bytes hf hbytes a _)
  rw [State.badIn_of_none hf0 hpoison, if_pos (by rw [hf0]; rfl), hread]
  refine ⟨_, rfl, State.store_only _ _ hdata, ?_⟩
  rw [(State.store_bytes hf0 _).1, hbytes.1]

/-- An ATOMIC of one element. -/
theorem State.serveAtomic_one (hf : s.faults = []) (hp : s.poison = []) (hmap : m.poisonMap = 0) (hal : atomicAligned (m.mflags % 4) (deviceOf m) = true)
    (hlen : m.data.length = atomicWidth (m.mflags % 4)) (hpos : 0 < atomicWidth (m.mflags % 4))
    (hm : s.mayReach p m (deviceOf m) (atomicWidth (m.mflags % 4)) = true) (hr : s.reachable (deviceOf m) (atomicWidth (m.mflags % 4)) = true) :
    ∃ u, s.serveAtomic p m = u.respond p m M_ATOMIC_RESP 0 (toLe (atomicWidth (m.mflags % 4)) (leNat (s.read (deviceOf m) (atomicWidth (m.mflags % 4)))))
      ∧ OnlyData s u ∧ u.mem = putBytes s.mem (deviceOf m) (toLe (atomicWidth (m.mflags % 4))
        (atomicAdd (m.mflags % 4) (leNat (s.read (deviceOf m) (atomicWidth (m.mflags % 4)))) (leNat m.data))) := by
  obtain ⟨u, helt, hdata, hmem⟩ := State.atomicElt_spec hf hp (m.mflags % 4) (deviceOf m) (leNat m.data)
  refine ⟨u, ?_, hdata, hmem⟩
  have htake : m.data.take (atomicWidth (m.mflags % 4)) = m.data := List.take_of_length_le hlen.le
  unfold State.serveAtomic
  dsimp only
  rw [hlen, Nat.div_self hpos, Nat.one_mul, hal, hm, hr, hmap]
  simp only [List.range_one, List.foldl_cons, List.foldl_nil, Nat.mul_zero, List.drop_zero, Nat.add_zero, htake, Nat.zero_testBit, Bool.or_self, helt]
  rfl

end

theorem exec_memoryMessages_accepted {i p : Nat} {m : Msg} {s : State} (ho : s.ownerOf (m.addr % 2 ^ 49) = some p) (ha : Claims.Accepts s i p m) :
    (Claims.Arrives s i m M_WRITE → exec (.writeMsg i m) s = .next ((s.modPort i (·.consume m)).landWrite i p m))
    ∧ (Claims.Arrives s i m M_READ_REQ → exec (.readReqMsg i m) s = .next ((s.modPort i (·.consume m)).serveRead p m))
    ∧ (Claims.Arrives s i m M_ATOMIC → exec (.atomicMsg i m) s = .next ((s.modPort i (·.consume m)).serveAtomic p m)) := by
  have h : ∀ r ∈ memoryMessages i m, Claims.Arrives s i m r.2.1 → exec r.1 s = .next (r.2.2.2 p (s.modPort i (·.consume m))) :=
    fun r hr harr => exec_memoryMessage_accepted hr harr ho ha
  unfold memoryMessages at h
  simp only [List.forall_mem_cons] at h
  obtain ⟨hwrite, hread, hatomic, -⟩ := h
  exact ⟨hwrite, hread, hatomic⟩

theorem State.mayReach_modPort (s : State) (j : Nat) (f : Port → Port) (p : Nat) (m : Msg) (a n : Nat) : (s.modPort j f).mayReach p m a n = s.mayReach p m a n := rfl

theorem State.inLanding_modPort (s : State) (j : Nat) (f : Port → Port) (p : Nat) (m : Msg) : (s.modPort j f).inLanding p m = s.inLanding p m := rfl

theorem State.read_modPort (s : State) (j : Nat) (f : Port → Port) (a n : Nat) : (s.modPort j f).read a n = s.read a n := rfl

theorem State.poisonMapOf_modPort (s : State) (j : Nat) (f : Port → Port) (a n : Nat) : (s.modPort j f).poisonMapOf a n = s.poisonMapOf a n := rfl

theorem atomicAdd_int32 (x y : Nat) : atomicAdd 0 x y = (x + y) % 2 ^ (8 * 4) := rfl

theorem atomicAdd_int64 (x y : Nat) : atomicAdd 1 x y = (x + y) % 2 ^ (8 * 8) := rfl

/-- The kinds of ATOMIC that add whole numbers: their width, their alignment and their sum (Table 10.6). -/
theorem atomicKind_int {k a w : Nat} (h : (k = 0 ∧ w = 4 ∧ a % 4 = 0) ∨ (k = 1 ∧ w = 8 ∧ a % 8 = 0)) :
    atomicWidth k = w ∧ atomicAligned k a = true ∧ 0 < w ∧ ∀ x y, atomicAdd k x y = (x + y) % 2 ^ (8 * w) := by
  rcases h with ⟨rfl, rfl, ha⟩ | ⟨rfl, rfl, ha⟩
  · exact ⟨rfl, decide_eq_true ha, Nat.zero_lt_succ 3, atomicAdd_int32⟩
  · exact ⟨rfl, decide_eq_true ha, Nat.zero_lt_succ 7, atomicAdd_int64⟩

/-- Settles O49: an accepted WRITE, READ_REQ and ATOMIC, and the exchange page. -/
theorem dataMessages : Obligations.DataMessages := by
  intro i p m s ho hacc a s1 n page
  have ha : deviceOf m = a := rfl
  have hpg : s1.exchangePage p = page := rfl
  have hfs : s1.faults = s.faults := rfl
  have hps : s1.poison = s.poison := rfl
  have hms : s1.mem = s.mem := rfl
  have hreach : ∀ n, s1.mayReach p m a n = s.mayReach p m a n := fun n => State.mayReach_modPort s _ _ p m a n
  have hreachable : ∀ n, s1.reachable a n = s.reachable a n := fun n => (Same.modPort s _ _).reachable a n
  have hread : ∀ n, s1.read a n = s.read a n := fun n => State.read_modPort s _ _ a n
  obtain ⟨hwrite, hreadReq, hatomic⟩ := exec_memoryMessages_accepted ho hacc
  refine ⟨fun harr hpage hkey hgather hin => ?_, fun harr hlo hhi => ?_, fun harr => ⟨fun hm hr hf => ?_, fun hm => ?_⟩, fun harr hf hp hmap w hw hn hm hr => ?_⟩
  · have hland := State.landWrite_memory (s := s1) (i := i) (p := p) (m := m) (by rw [hpg, ha]; exact hpage) hkey hgather ((State.inLanding_modPort s _ _ p m).trans hin)
    rw [ha, hreach, hreachable] at hland
    refine ⟨fun hm hr => ?_, fun hm => ?_, fun hm hr => ?_⟩
    · rw [if_neg (ne_false_of_eq_true hm), if_neg (ne_false_of_eq_true hr)] at hland
      refine ⟨s1.storeAll (writesOf m), _, hwrite harr, hland, State.storeAll_only _ _ rfl, fun hf => ?_⟩
      rw [(State.storeAll_bytes (hfs.trans hf) _).1, hms]
    · rw [if_pos hm] at hland
      exact (hwrite harr).trans (congrArg Host.Outcome.next hland)
    · rw [if_neg (ne_false_of_eq_true hm), if_pos hr] at hland
      exact (hwrite harr).trans (congrArg Host.Outcome.next hland)
  · exact (hwrite harr).trans (congrArg Host.Outcome.next (State.landWrite_page (by rw [hpg, ha]; exact hlo) (by rw [hpg, ha]; exact hhi)))
  · have hserve := State.serveRead_served (s := s1) (p := p) (m := m) (hfs.trans hf) ((hreach _).trans hm) ((hreachable _).trans hr)
    rw [ha, hread, State.poisonMapOf_modPort] at hserve
    exact (hreadReq harr).trans (congrArg Host.Outcome.next hserve)
  · exact (hreadReq harr).trans (congrArg Host.Outcome.next (State.serveRead_refused ((hreach _).trans hm)))
  · obtain ⟨hwidth, hal, hpos, hadd⟩ := atomicKind_int hw
    have hone := State.serveAtomic_one (s := s1) (p := p) (m := m) (hfs.trans hf) (hps.trans hp) hmap hal (hn.trans hwidth.symm) (hwidth ▸ hpos)
      (by rw [hwidth]; exact (hreach _).trans hm) (by rw [hwidth]; exact (hreachable _).trans hr)
    rw [hwidth, hadd, ha, hread, hms] at hone
    obtain ⟨u, hserve, hdata, hmem⟩ := hone
    exact ⟨u, _, hatomic harr, hserve, hdata, hmem⟩

/-! Responses and register messages (O50). -/

theorem regWindow_of_lt {a win off : Nat} (hw : win < 5) (ho : off < 0x10000) (ha : a = 0x0F0000000000 + 0x10000 * win + off) :
    regWindow a = some (win, off) := by
  unfold regWindow
  dsimp only
  rw [if_neg (by omega)]
  have hquot : (a - 0x0F0000000000) / 65536 = win := by omega
  have hrem : (a - 0x0F0000000000) % 65536 = off := by omega
  rw [hquot, hrem]

theorem regWindow_of_ge {a : Nat} (h : 0x0F0000050000 ≤ a) : regWindow a = none := by
  unfold regWindow
  dsimp only
  rw [if_pos (by omega)]

section

variable {s : State} {m : Msg}

theorem State.serveReg_read {win off : Nat} (h : regWindow (deviceOf m) = some (win, off)) (hd : m.data = []) (ho : off % 8 = 0) :
    s.serveReg m = (s.readClears win off).respond (s.lowQ (win % 4)) m M_REG_RESP 0 (toLe 8 (s.regValue win off).toNat) := by
  unfold State.serveReg
  dsimp only
  rw [h]
  dsimp only
  rw [if_pos (by rw [hd]; rfl), State.regRead_whole _ _ _ ho]

theorem State.serveReg_write {win off : Nat} (h : regWindow (deviceOf m) = some (win, off)) (hd : m.data ≠ []) :
    s.serveReg m = s.regWrite (.reg 0) win off m.data.length (BitVec.ofNat 64 (leNat m.data)) := by
  unfold State.serveReg
  dsimp only
  rw [h]
  dsimp only
  rw [if_neg (by rw [List.isEmpty_iff]; exact hd)]

theorem State.serveReg_bad (h1 : 0x0F0000050000 ≤ deviceOf m) (h2 : deviceOf m < 0x100000000000) :
    s.serveReg m = if m.data = [] then (s.badAccess 4 (.reg 0) (!m.data.isEmpty) (deviceOf m % 65536)).respond 0 m M_REG_RESP 0 (List.replicate 8 0)
      else s.badAccess 4 (.reg 0) (!m.data.isEmpty) (deviceOf m % 65536) := by
  unfold State.serveReg
  dsimp only
  rw [regWindow_of_ge h1]
  dsimp only
  rw [if_neg (by rw [isControlRange, decide_eq_true ⟨by omega, h2⟩]; exact Bool.false_ne_true)]
  simp only [List.isEmpty_iff]

end

/-- Settles O50: each response completes what waits for it, and REG reaches registers. -/
theorem responsesReturn : Obligations.ResponsesReturn := by
  intro i m s s1 without
  refine ⟨fun harr => ⟨fun q hq hacc => ?_, fun hno => ?_⟩, fun harr => ⟨fun q hq hacc => ?_, fun hno => ⟨fun hown => ?_, fun ref k hown hk hacc => ?_⟩⟩,
    fun harr => ?_, fun harr => ⟨fun win off hw ho ha => ⟨fun hd h8 => ?_, fun hd => ?_⟩, fun hwin hlo hhi => ?_⟩, fun harr => ⟨fun q hq => ?_, fun hno => ?_⟩⟩
  · have hq1 : s1.bridgeReqs.find? (fun r => r.msgId == m.msgId && r.aperture && !r.isWrite) = some q := hq
    have hrun : exec (.readRespMsg i m) s = .next (if m.data = [] then (((without q).log q.fn (mkEvent 0x4E q.member 4)).emit (.completerAbort q.fn)).bridgeEvent q.fn
        else (without q).hostData q.fn (m.data.take q.bytes) (m.poisonMap % 2 ^ ceilDiv q.bytes 64)) := by
      refine congrArg Host.Outcome.next ((State.receive_of_arrives harr).trans ?_)
      dsimp only
      rw [hq1]
      exact State.checked_of_accepts (Claims.Accepts.consume hacc)
    refine ⟨fun hd => ?_, fun hd => ?_⟩
    · rw [if_neg hd] at hrun
      exact hrun
    · rw [if_pos hd] at hrun
      exact hrun
  · have hno1 : s1.bridgeReqs.find? (fun r => r.msgId == m.msgId && r.aperture && !r.isWrite) = none := hno
    refine congrArg Host.Outcome.next ((State.receive_of_arrives harr).trans ?_)
    rw [hno1]
  · have hq1 : s1.bridgeReqs.find? (fun r => r.msgId == m.msgId && r.isWrite) = some q := hq
    refine congrArg Host.Outcome.next ((State.receive_of_arrives harr).trans ?_)
    rw [hq1]
    exact State.checked_of_accepts (Claims.Accepts.consume hacc)
  · have hno1 : s1.bridgeReqs.find? (fun r => r.msgId == m.msgId && r.isWrite) = none := hno
    have hown1 : s1.ackOwner m.msgId = none := hown
    refine congrArg Host.Outcome.next ((State.receive_of_arrives harr).trans ?_)
    rw [hno1]
    dsimp only
    rw [hown1]
  · have hno1 : s1.bridgeReqs.find? (fun r => r.msgId == m.msgId && r.isWrite) = none := hno
    have hown1 : s1.ackOwner m.msgId = some ref := hown
    have hk1 : s1.packet ref = some k := hk
    refine congrArg Host.Outcome.next ((State.receive_of_arrives harr).trans ?_)
    rw [hno1]
    dsimp only
    rw [hown1]
    dsimp only
    rw [hk1]
    exact State.checked_of_accepts (Claims.Accepts.consume hacc)
  · exact congrArg Host.Outcome.next (State.receive_of_arrives harr)
  · exact congrArg Host.Outcome.next ((State.receive_of_arrives harr).trans (State.serveReg_read (regWindow_of_lt hw ho ha) hd h8))
  · exact congrArg Host.Outcome.next ((State.receive_of_arrives harr).trans (State.serveReg_write (regWindow_of_lt hw ho ha) hd))
  · exact ⟨_, State.badAccess_recorded (s := s1) (by rw [show s1.windows.length = 5 from hwin]; decide) _ _ (Nat.mod_lt _ (by decide)),
      congrArg Host.Outcome.next ((State.receive_of_arrives harr).trans (State.serveReg_bad hlo hhi))⟩
  · have hq1 : s1.bridgeReqs.find? (fun r => r.msgId == m.msgId && !r.aperture && !r.isWrite) = some q := hq
    refine congrArg Host.Outcome.next ((State.receive_of_arrives harr).trans ?_)
    rw [hq1]
  · have hno1 : s1.bridgeReqs.find? (fun r => r.msgId == m.msgId && !r.aperture && !r.isWrite) = none := hno
    refine congrArg Host.Outcome.next ((State.receive_of_arrives harr).trans ?_)
    rw [hno1]

end Sys2Proof.Machine
end

section
/-! PROOF. Control messages: the early table and its matches, heartbeats, STALE, LOST and NOTIFY (R325, R331, R334, R338). -/

namespace Sys2Proof.Machine

open Safety (OnlyData OnlyWork)

variable {s : State} {i p : Nat} {m : Msg}

/-- The commands of control messages, with their kinds and what each does with the payload. -/
def controlRows (i : Nat) (m : Msg) : List (Instr × Nat × (Control → State → State)) :=
  let collective := fun (c : Control) (s : State) => s.checked i c.dstPart m (c.opcode == 0x0B02) fun s => s.controlArrived c.dstPart m c
  [(.readyMsg i m, 1, collective), (.doneMsg i m, 2, collective), (.arriveMsg i m, 3, collective),
   (.heartbeatMsg i m, 4, fun c s => if s.isPart c.dstPart && (s.part c.dstPart).members.contains m.srcEp then
      s.modPart c.dstPart fun pt => { pt with heartbeats := Tbl.set 0 pt.heartbeats m.srcEp s.mclk, lost := pt.lost.filter (· ≠ m.srcEp) } else s),
   (.staleMsg i m, 5, fun c s => s.partList.foldl (fun s p => if s.takesOver i p then s.quarantine p m c else s.dropMsg i) s),
   (.lostMsg i m, 6, fun c s => if !s.isPart c.dstPart then s else if !s.takesOver i c.dstPart then s.dropMsg i
      else if (s.part c.dstPart).members.contains m.srcEp then s.loseEndpoint c.dstPart c.arg0 else s),
   (.notifyMsg i m, 7, fun c s => if s.isBridge && s.board.group.contains m.srcEp && decide (c.srcPart < 4) then
      s.raiseMsix (s.lowQ c.srcPart) (1 + c.arg0 % 2 ^ 64 % 63) else s.dropMsg i)]

theorem exec_controlRow : ∀ r ∈ controlRows i m, exec r.1 s = .next (s.control i r.2.1 m r.2.2) := by
  unfold controlRows
  simp only [List.forall_mem_cons, List.not_mem_nil, false_imp_iff, implies_true, and_true]
  exact ⟨rfl, rfl, rfl, rfl, rfl, rfl, rfl⟩

theorem State.control_other {kind : Nat} {f : Control → State → State} (h : (Control.parse m.data).kind ≠ kind ∨ s.fatal = true) : s.control i kind m f = s :=
  if_pos h

theorem State.control_arrives {kind : Nat} {f : Control → State → State} (hk : (Control.parse m.data).kind = kind) (hf : s.fatal = false)
    (h : Claims.Arrives s i m M_CONTROL) : s.control i kind m f = f (Control.parse m.data) (s.modPort i (·.consume m)) := by
  unfold State.control
  dsimp only
  rw [if_neg, State.receive_of_arrives h]
  rw [hf]
  exact fun hn => hn.elim (fun hne => hne hk) Bool.false_ne_true

/-! READY, DONE and ARRIVE. -/

/-- A control message as the early table keeps it. -/
def earlyOf (s : State) (m : Msg) (c : Control) : EarlyMsg :=
  ⟨c.kind, c.srcPart, m.srcEp, c.round, c.opcode, c.ctag, c.srcRank, c.ghash, c.arg0, c.arg1, c.arg2, c.arg3, s.mclk⟩

theorem State.controlArrived_early {c : Control} (h : s.matching p c = none) (hroom : (s.part p).early.length < 1024) :
    s.controlArrived p m c = s.modPart p fun pt => { pt with early := pt.early ++ [earlyOf s m c] } := by
  unfold State.controlArrived
  rw [h]
  exact State.modPart_congr (if_pos hroom)

theorem State.controlArrived_full {c : Control} (h : s.matching p c = none) (hfull : 1024 ≤ (s.part p).early.length) :
    s.controlArrived p m c = s.modPart p fun pt => { pt with earlyDrops := min (2 ^ 64 - 1) (pt.earlyDrops + 1) } := by
  unfold State.controlArrived
  rw [h]
  exact State.modPart_congr (if_neg (Nat.not_lt.mpr hfull))

theorem State.controlArrived_done {c : Control} {k : Packet} (h : s.matching p c = some k) (hk : c.kind = 2) :
    s.controlArrived p m c = (s.landDone (k.ref p) c.srcRank c.round).goOn (k.ref p) := by
  unfold State.controlArrived
  rw [h]
  exact if_pos hk

theorem State.controlArrived_taken {c : Control} {k : Packet} {sn : Snap} (h : s.matching p c = some k) (hk : c.kind ≠ 2) (hsn : k.snap = some sn) :
    s.controlArrived p m c = ((s.setPacket p { k with remote := k.remote.map fun r => r.take (earlyOf s m c) }).lateness p m.srcEp (usBetween sn.time s.mclk)).goOn (k.ref p) := by
  unfold State.controlArrived
  rw [h]
  dsimp only
  rw [if_neg hk, hsn]
  rfl

/-- The three messages of collectives, accepted. -/
theorem exec_collective {r : Instr × Nat × (Control → State → State)} (hr : r ∈ (controlRows i m).take 3) (hk : (Control.parse m.data).kind = r.2.1)
    (hf : s.fatal = false) (h : Claims.Arrives s i m M_CONTROL) (ha : Claims.Accepts s i (Control.parse m.data).dstPart m) :
    exec r.1 s = .next ((s.modPort i (·.consume m)).controlArrived (Control.parse m.data).dstPart m (Control.parse m.data)) := by
  rw [exec_controlRow r (List.mem_of_mem_take hr), State.control_arrives hk hf h]
  have hcollective : ∀ r ∈ (controlRows i m).take 3, r.2.2 = fun c s => s.checked i c.dstPart m (c.opcode == 0x0B02) fun s => s.controlArrived c.dstPart m c := by
    unfold controlRows
    simp only [List.take_succ_cons, List.take_zero, List.forall_mem_cons, List.not_mem_nil, false_imp_iff, implies_true, and_true]
  rw [hcollective r hr]
  exact congrArg Host.Outcome.next (State.checked_of_accepts (Claims.Accepts.consume ha))

/-! STALE and NOTIFY. -/

theorem staleOne_eq (c : Control) : Claims.staleOne i m c s p = if s.takesOver i p then s.quarantine p m c else s.dropMsg i := by
  unfold Claims.staleOne State.takesOver State.quarantine
  dsimp only
  by_cases hover : ((s.part p).confidential && (s.port i).keys.isNone) = true
  · rw [if_pos hover, if_neg]
    · rfl
    · rw [Bool.and_eq_true] at hover
      rw [hover.1, ← Option.not_isNone, hover.2]
      exact Bool.false_ne_true
  · have htakes : (!(s.part p).confidential || (s.port i).keys.isSome) = true := by
      rw [← Option.not_isNone, ← Bool.not_and, Bool.not_eq_true']
      exact Bool.eq_false_iff.mpr hover
    rw [if_neg hover, if_pos htakes]
    simp only [Bool.and_eq_true, List.contains_iff_mem, decide_eq_true_eq, Bool.not_eq_true', and_assoc]

theorem leNat_lt (bs : List Byte) : leNat bs < 256 ^ bs.length := by
  induction bs with
  | nil => exact Nat.one_pos
  | cons b bs ih =>
    have hb := b.isLt
    rw [leNat, List.length_cons, Nat.pow_succ]
    omega

theorem Control.parse_arg0_lt (b : List Byte) : (Control.parse b).arg0 < 2 ^ 64 := by
  have h := leNat_lt ((b.drop 0x18).take 8)
  have hl : ((b.drop 0x18).take 8).length ≤ 8 := List.length_take_le _ _
  exact h.trans_le (le_trans (Nat.pow_le_pow_right (by decide) hl) (by decide))

/-- Settles O51: each control message reaches the packet it matches or is kept, and the others act on their partition. -/
theorem controlMessages : Obligations.ControlMessages := by
  intro i m s c s1 rows
  have hrows : rows = (controlRows i m).map fun r => (r.1, r.2.1) := rfl
  refine ⟨fun row hrow hno => ?_, fun hf harr => ⟨fun row hrow hk hacc => ?_, fun hk => ?_, fun hk => ?_, fun hk hpart hkeys => ?_, fun hk => ?_⟩⟩
  · rw [hrows] at hrow
    obtain ⟨r, hr, rfl⟩ := List.mem_map.mp hrow
    rw [exec_controlRow r hr, State.control_other hno]
  · rw [hrows, ← List.map_take] at hrow
    obtain ⟨r, hr, rfl⟩ := List.mem_map.mp hrow
    have hrun := exec_collective hr hk hf harr hacc
    refine ⟨fun hnone hroom => ?_, fun hnone hfull => ?_, fun k sn hmatch hsn => ⟨fun h2 => ?_, fun h2 => ?_⟩⟩
    · rw [State.controlArrived_early (s := s1) hnone hroom] at hrun
      exact hrun
    · rw [State.controlArrived_full (s := s1) hnone hfull] at hrun
      exact hrun
    · rw [State.controlArrived_done (s := s1) hmatch (hk.trans h2)] at hrun
      exact hrun
    · rw [State.controlArrived_taken (s := s1) hmatch (hk ▸ h2) hsn] at hrun
      exact hrun
  · refine congrArg Host.Outcome.next ((State.control_arrives hk hf harr).trans ?_)
    simp only [Bool.and_eq_true, List.contains_iff_mem]
    rfl
  · refine congrArg Host.Outcome.next ((State.control_arrives hk hf harr).trans ?_)
    have hone : (fun s p => if s.takesOver i p then s.quarantine p m c else s.dropMsg i) = Claims.staleOne i m c :=
      funext fun s => funext fun p => (staleOne_eq c).symm
    rw [← hone]
    rfl
  · refine congrArg Host.Outcome.next ((State.control_arrives hk hf harr).trans ?_)
    have hover : s1.takesOver i c.dstPart = true := by
      unfold State.takesOver
      rw [State.consume_keys, Bool.or_eq_true, Bool.not_eq_true']
      exact hkeys
    rw [if_neg (by rw [show s1.isPart c.dstPart = true from hpart]; exact Bool.false_ne_true), if_neg (by rw [hover]; exact Bool.false_ne_true)]
    simp only [List.contains_iff_mem]
    rfl
  · refine congrArg Host.Outcome.next ((State.control_arrives hk hf harr).trans ?_)
    rw [Nat.mod_eq_of_lt (Control.parse_arg0_lt m.data)]
    simp only [Bool.and_eq_true, List.contains_iff_mem, decide_eq_true_eq, and_assoc]
    rfl

/-! Peers watched (O52). -/

theorem namesObject_iff (op : Nat) : namesObject op = true ↔ 0x0501 ≤ op ∧ op ≤ 0x0505 := by
  unfold namesObject
  simp only [decide_eq_true_eq]

theorem ctx_pkt {k : Packet} {c : Ctx} (h : s.ctx p k = some c) : c.pkt = k := (State.ctx_state h).2.2

theorem execExchangeTimeout_eq {p : PacketRef} {k : Packet} {c : Ctx} {r : Remote} (hk : s.packet p = some k) (hc : s.ctx p.part k = some c)
    (hr : k.remote = some r) (member : Nat) : execExchangeTimeout p member s =
      if namesObject k.hdr.opcode = true ∧ k.phase = .running ∧ s.fatal = false ∧ c.owes r member = true
          ∧ member < r.keys.length ∧ c.snap.time + (s.part p.part).hbTime * msCycles ≤ s.mclk then .next (s.endFailed p.part k ERR_TIMEOUT)
      else .next s := by
  unfold execExchangeTimeout
  rw [hk]
  dsimp only
  rw [hc, hr]

theorem execCollTimeout_eq {p : PacketRef} {k : Packet} {c : Ctx} {r : Remote} (hk : s.packet p = some k) (hc : s.ctx p.part k = some c)
    (hr : k.remote = some r) (rank : Nat) : execCollTimeout p rank s =
      if namesObject k.hdr.opcode = false ∧ k.phase = .running ∧ s.fatal = false ∧ (c.awaits r).contains rank = true ∧ (s.part p.part).collLimit ≠ 0
          ∧ c.snap.time + (s.part p.part).collLimit * msCycles ≤ s.mclk then .next (s.endFailed p.part k ERR_TIMEOUT)
      else .next s := by
  unfold execCollTimeout
  rw [hk]
  dsimp only
  rw [hc, hr]

/-- How a running packet of an exchange ends. -/
theorem State.endFailed_object {k : Packet} {c : Ctx} {r : Remote} (hc : s.ctx p k = some c) (hr : k.remote = some r)
    (hobj : 0x0501 ≤ k.hdr.opcode ∧ k.hdr.opcode ≤ 0x0505) (hrun : k.phase = .running) (code : Nat) :
    s.endFailed p k code = match k.hdr.opcode with
      | 0x0502 => s.compact p k c r [code]
      | 0x0503 => s.combineEnd p k c r [code]
      | 0x0504 => s.combineBwdEnd p k c r [code]
      | 0x0501 => (s.endPacket p { k with res := k.res.kept } code).dropExchange p c.routeKey
      | _ => (s.endPacket p { k with res := Result.empty } code).dropExchange p c.placeKey := by
  have htoRun : ¬k.toRun = true := by
    unfold Packet.toRun
    rw [hrun]
    exact Bool.false_ne_true
  unfold State.endFailed
  split
  next c' r' hc' hr' =>
    obtain rfl : c = c' := Option.some.inj (hc.symm.trans hc')
    obtain rfl : r = r' := Option.some.inj (hr.symm.trans hr')
    split
    case h_1 h =>
      rw [if_neg htoRun]
      simp only [h]
    case h_2 h =>
      rw [if_neg htoRun]
      simp only [h]
    case h_3 h =>
      rw [if_neg htoRun]
      simp only [h]
    case h_4 h => simp only [h]
    case h_5 h => simp only [h]
    case h_6 h => omega
    case h_7 h2 h3 h4 h1 h5 _ =>
      obtain h | h | h | h | h : k.hdr.opcode = 0x0501 ∨ k.hdr.opcode = 0x0502 ∨ k.hdr.opcode = 0x0503 ∨ k.hdr.opcode = 0x0504 ∨ k.hdr.opcode = 0x0505 := by
        omega
      exacts [(h1 h).elim, (h2 h).elim, (h3 h).elim, (h4 h).elim, (h5 h).elim]
  next hno => exact absurd hr (hno c r hc)

/-- How a packet of no exchange ends: a REBUILD's spare loses its entry (R407). -/
theorem State.endFailed_other {k : Packet} {c : Ctx} {r : Remote} (hc : s.ctx p k = some c) (hr : k.remote = some r)
    (hobj : ¬(0x0501 ≤ k.hdr.opcode ∧ k.hdr.opcode ≤ 0x0505)) (code : Nat) :
    s.endFailed p k code = if k.hdr.opcode = 0x0806 ∧ c.isSpare = true then (s.endPacket p k code).modPart p (·.dropFilling c.gen) else s.endPacket p k code := by
  unfold State.endFailed
  rw [hc, hr]
  dsimp only
  split
  case h_6 h =>
    by_cases hs : c.isSpare = true
    · rw [if_pos ⟨h, hs⟩]
      exact State.modPart_congr (if_pos hs)
    · rw [if_neg (fun hn => hs hn.2)]
      exact State.modPart_self (if_neg hs)
  case h_7 h => exact (if_neg fun hn => h hn.1).symm
  all_goals omega

theorem neighbours_eq (members : List Nat) (own : Nat) (ahead : Bool) : neighbours members own (!ahead) =
    dedupNat (((List.range (min 4 (members.length - 1))).map fun j => (members[(if ahead then members.idxOf own + 1 + j
      else members.idxOf own + members.length - 1 - j) % max 1 members.length]?).getD own).filter (· ≠ own)) := by
  cases ahead with
  | true => rfl
  | false => rfl

/-- Settles O52: heartbeats to the members ahead, the loss of a silent member behind, and the limits on waiting. -/
theorem peersWatched : Obligations.PeersWatched := by
  intro s hf
  refine ⟨fun part hpart => ?_, fun p k c r x hk hc hr => ?_⟩
  · intro pt own i n near say
    have hnear : ∀ ahead, near ahead = neighbours pt.members s.endpoint (!ahead) := fun ahead => (neighbours_eq _ _ ahead).symm
    have hpart' : ¬s.isPart part = false := by rw [hpart]; decide
    have hf' : ¬s.fatal = true := by rw [hf]; decide
    refine ⟨fun hm => ?_, fun hm => ⟨?_, fun ep => ?_⟩, fun ep hm => ⟨fun hin hsilent => ?_, fun hno => ?_⟩⟩
    · show execHeartbeatTimer part s = _
      unfold execHeartbeatTimer
      dsimp only
      rw [if_neg (by rw [List.isEmpty_iff]; tauto), hnear]
      rfl
    · exact if_pos (Or.inr (Or.inl (List.isEmpty_iff.mpr hm)))
    · exact if_pos (Or.inr (Or.inl (List.isEmpty_iff.mpr hm)))
    · show execPeerLost part ep s = _
      rw [hnear] at hin
      unfold execPeerLost
      dsimp only
      rw [if_neg]
      · rfl
      · have hsilent' : decide (Tbl.get 0 (s.part part).heartbeats ep + (s.part part).hbTime * msCycles ≤ s.mclk) = true := decide_eq_true hsilent
        have hin' : (neighbours (s.part part).members s.endpoint true).contains ep = true := List.contains_iff_mem.mpr hin
        rw [hsilent', hin', List.isEmpty_iff, hpart, hf]
        simp only [Bool.true_eq_false, Bool.false_eq_true, or_false, false_or]
        exact hm
    · rw [hnear] at hno
      refine if_pos ?_
      rcases hno with hout | hearly
      · exact Or.inr (Or.inr (Or.inr (Or.inr (Bool.eq_false_iff.mpr fun h => hout (List.contains_iff_mem.mp h)))))
      · exact Or.inr (Or.inr (Or.inr (Or.inl (decide_eq_false (Nat.not_le.mpr hearly)))))
  · intro pt late object ended
    have hex : exec (.exchangeTimeout p x) s = _ := execExchangeTimeout_eq hk hc hr x
    have hcoll : exec (.collTimeout p x) s = _ := execCollTimeout_eq hk hc hr x
    have hobject : namesObject k.hdr.opcode = true ↔ object := namesObject_iff _
    have hnobject : namesObject k.hdr.opcode = false ↔ ¬object := by rw [← hobject, Bool.not_eq_true]
    refine ⟨fun ho hrun howes hlt hlate => ?_, fun hno => ?_, fun ho hrun hin hlim hlate => ?_, fun hno => ?_⟩
    · rw [if_pos ⟨hobject.mpr ho, hrun, hf, howes, hlt, hlate⟩, State.endFailed_object hc hr ho hrun] at hex
      exact hex
    · rw [if_neg] at hex
      · exact hex
      · rintro ⟨h1, h2, -, h4, h5, h6⟩
        rcases hno with h | h | h | h | h
        · exact h (hobject.mp h1)
        · exact h h2
        · exact ne_false_of_eq_true h4 h
        · exact Nat.not_le.mpr h5 h
        · exact h h6
    · rw [if_pos ⟨hnobject.mpr ho, hrun, hf, List.contains_iff_mem.mpr hin, hlim, hlate⟩, State.endFailed_other hc hr ho] at hcoll
      exact hcoll
    · rw [if_neg] at hcoll
      · exact hcoll
      · rintro ⟨h1, h2, -, h4, h5, h6⟩
        rcases hno with h | h | h | h | h
        · exact hnobject.mp h1 h
        · exact h h2
        · exact h (List.contains_iff_mem.mp h4)
        · exact h5 h
        · exact h h6

end Sys2Proof.Machine
end

section
/-! PROOF. Collectives: the own part of each, the READYs that follow it, a group of one rank, and the reduction of a bucket (R331, R342 to R352). -/

namespace Sys2Proof.Machine

open Safety (OnlyData OnlyWork)

section

variable {s : State} {p : PacketRef} {k : Packet} {c : Ctx} {r : Remote}

/-! A packet's own part. -/

theorem State.begun_of_reached {w : WorkOut} (h : Claims.Reached s k w) (hm : w.mismatched = []) (r : Remote) : s.begun k w r = Claims.running s k w r := by
  unfold State.begun Claims.running Claims.result
  dsimp only
  rw [reached_workCodes h, h.2, hm, List.isEmpty_nil, if_pos rfl, List.append_nil]
  rfl

/-- A packet's own part that reached its memory leaves what Claims.Works says. -/
theorem State.begin_works (hk : s.packet p = some k) {w : WorkOut} (h : Claims.Reached s k w) (hm : w.mismatched = []) (r : Remote) :
    Claims.Works s (s.begin p.part k w r) p w (Claims.running s k w r) := by
  obtain ⟨hp, ho, hf, hmem⟩ := State.begin_spec hk w r
  refine ⟨State.begun_of_reached h hm r ▸ hp, ho, hf, fun hs => (hmem hs).2.trans ?_⟩
  rw [reached_workCodes_contains h, if_neg Bool.false_ne_true]

theorem Claims.Works.fatal {t : State} {w : WorkOut} {k' : Packet} (h : Claims.Works s t p w k') : t.fatal = s.fatal := by
  have hw := congrArg State.fatal (show Safety.sansWork p.part t = Safety.sansWork p.part s from h.frame)
  exact hw

/-! The start of a collective. -/

theorem startRemote_ready {code : Nat} {own : Ctx → Remote → WorkOut × Remote} {args : Ctx → Remote → Nat × Nat × Nat × Nat}
    (h : Claims.Ready s p code k c) (hr : k.remote = some r) :
    startRemote code own args p s = ((s.begin p.part k (own c r).1 (own c r).2).controlAll p.part p c.ctag 1 (args c (own c r).2) (c.sources (own c r).2)).advance
      (advanceFuel r.keys.length) p := by
  unfold startRemote
  rw [h.found]
  dsimp only
  rw [h.ctx, hr]
  dsimp only
  rw [if_pos ⟨h.opcode, h.phase, h.alive⟩]

/-- Each collective starts by the own part and the arguments of its row, and its own part finds no residue mismatch. -/
theorem collectives_run (p : PacketRef) : ∀ row ∈ Claims.collectives p,
    (∀ s, exec row.cmd s = .next (startRemote row.code row.own row.args p s)) ∧ ∀ c r, (row.own c r).1.mismatched = [] := by
  unfold Claims.collectives
  simp only [List.mem_cons, List.not_mem_nil, or_false]
  rintro row (rfl | rfl | rfl | rfl | rfl | rfl)
  all_goals exact ⟨fun _ => rfl, fun _ _ => rfl⟩

theorem collectives_codes {row : Claims.CollectiveRow} (h : row ∈ Claims.collectives p) : row.code ∈ [0x0601, 0x0602, 0x0603, 0x0604, 0x0605, 0x0606] :=
  (show (Claims.collectives p).map (·.code) = [0x0601, 0x0602, 0x0603, 0x0604, 0x0605, 0x0606] from rfl) ▸ List.mem_map_of_mem h

/-- A packet's remote part before its first message, in a group of one rank. -/
structure Alone (r : Remote) : Prop where
  keys : r.keys.length = 1
  rank : r.rank = 0
  ready : r.ready = []
  sentTo : r.sentTo = []
  round : r.round = 0

/-- No collective's own part takes or sends a message. -/
theorem collectives_alone (p : PacketRef) : ∀ row ∈ Claims.collectives p, ∀ c r, Alone r → Alone (row.own c r).2 := by
  have hstage : ∀ (r : Remote) (step n : Nat), Alone r → Alone (r.stageRound step n) := by
    intro r step n h
    unfold Remote.stageRound
    split
    · exact h
    · exact ⟨h.keys, h.rank, h.ready, h.sentTo, h.round⟩
  unfold Claims.collectives
  simp only [List.forall_mem_cons, List.not_mem_nil, false_imp_iff, implies_true, and_true]
  refine ⟨fun c r h => hstage _ _ _ ⟨h.keys, h.rank, h.ready, h.sentTo, h.round⟩, fun c r h => ?_, fun c r h => ?_, fun c r h => ?_, fun c r h => ?_, fun c r h => h⟩
  all_goals exact ⟨h.keys, h.rank, h.ready, h.sentTo, h.round⟩

theorem Alone.others (h : Alone r) : r.others = [] := by
  unfold Remote.others
  rw [h.keys, h.rank]
  rfl

theorem Alone.rounds (h : Alone r) : rounds r.keys.length = 0 := by
  rw [h.keys]
  rfl

theorem Alone.sources (h : Alone r) (c : Ctx) (hop : c.pkt.hdr.opcode ∈ [0x0601, 0x0602, 0x0603, 0x0604, 0x0605, 0x0606]) : c.sources r = [] := by
  unfold Ctx.sources
  simp only [List.mem_cons, List.not_mem_nil, or_false] at hop
  rcases hop with hop | hop | hop | hop | hop | hop
  · simp only [hop, h.rounds, List.range_zero, List.map_nil]
  all_goals simp only [hop, h.others, List.filter_nil, List.map_nil]

theorem Alone.targets (h : Alone r) (c : Ctx) (hop : c.pkt.hdr.opcode ∈ [0x0601, 0x0602, 0x0603, 0x0604, 0x0605, 0x0606]) : c.targets r = [] := by
  unfold Ctx.targets
  simp only [List.mem_cons, List.not_mem_nil, or_false] at hop
  rcases hop with hop | hop | hop | hop | hop | hop
  · simp only [hop, h.rounds, List.range_zero, List.filter_nil, List.map_nil]
  all_goals simp only [hop, h.others, List.filter_nil, List.map_nil]

/-- In a group of one rank a running collective but RS_INT has only its end left. -/
theorem Alone.collectiveNext (h : Alone r) {c : Ctx} (hc : c.pkt = k) (hop : k.hdr.opcode ∈ [0x0601, 0x0602, 0x0603, 0x0604, 0x0605, 0x0606])
    (hrs : k.hdr.opcode ≠ 0x0602) (part : Nat) : s.collectiveNext part k c r = some (s.endRunning part k (c.collectiveEnd r)) := by
  have hsources := h.sources c (hc.symm ▸ hop)
  have htargets := h.targets c (hc.symm ▸ hop)
  unfold State.collectiveNext
  dsimp only
  rw [if_neg (by rw [h.ready]; exact fun hn => Bool.false_ne_true hn.2)]
  by_cases hb : k.hdr.opcode = 0x0606
  · rw [if_pos hb, h.rounds, if_neg (fun hn => Nat.not_lt_zero _ hn.1), if_neg (fun hn => Nat.not_lt_zero _ hn.1), if_pos (Nat.zero_le _)]
  · have hpar : k.hdr.opcode ≠ 0x0804 := by
      intro hn
      rw [hn] at hop
      exact absurd hop (by decide)
    rw [if_neg hb, htargets, List.find?_nil, h.sentTo, List.find?_nil]
    dsimp only
    rw [if_neg (by rw [h.rounds]; exact fun hn => Nat.not_lt_zero _ hn.2.1), if_pos, if_neg hpar]
    unfold Ctx.allSent Ctx.allLanded
    rw [hsources, htargets, bne_iff_ne.mpr hrs]
    rfl

theorem State.endRunning_finished {part : Nat} (hk : s.packet ⟨part, k.ring, k.idx⟩ = some k) (w : WorkOut) :
    ∃ k', (s.endRunning part k w).packet ⟨part, k.ring, k.idx⟩ = some k' ∧ k'.phase = .finished := by
  unfold State.endRunning
  exact ⟨_, (State.finish_spec hk _).1, rfl⟩

/-- A running packet with one action left ends by it. -/
theorem State.advance_ends {fuel : Nat} {w : WorkOut} (hk : s.packet p = some k) (hc : s.ctx p.part k = some c) (hr : k.remote = some r)
    (hrun : k.phase = .running) (hf : s.fatal = false) (hn : s.collectiveNext p.part k c r = some (s.endRunning p.part k w)) :
    State.advance (fuel + 1) p s = s.endRunning p.part k w := by
  have hkeys := State.packet_keys hk
  obtain ⟨k', hk', hfin⟩ := State.endRunning_finished (part := p.part) (k := k) (by rw [hkeys.1, hkeys.2]; exact hk) w
  rw [hkeys.1, hkeys.2] at hk'
  unfold State.advance
  rw [hk]
  dsimp only
  rw [hc, hr]
  dsimp only
  rw [if_neg (by rw [hf]; exact fun hno => hno.elim (fun hne => hne hrun) Bool.false_ne_true), hn]
  dsimp only
  generalize s.endRunning p.part k w = t at *
  cases fuel with
  | zero => rfl
  | succ n =>
    unfold State.advance
    rw [show t.packet p = some k' from hk']
    dsimp only
    split
    · exact if_pos (Or.inl (by rw [hfin]; decide))
    · rfl

end

/-- Settles O53: each collective does its own part, sends its READYs and goes on; in a group of one rank it ends. -/
theorem collectivesStart : Obligations.CollectivesStart := by
  intro p row hrow s k c r h hr hreach w r1 k1
  obtain ⟨hexec, hmis⟩ := collectives_run p row hrow
  have hcode := collectives_codes hrow
  have hworks : Claims.Works s (s.begin p.part k w r1) p w k1 := State.begin_works h.found hreach (hmis c r) r1
  have hrun : exec row.cmd s = .next (((s.begin p.part k w r1).controlAll p.part p c.ctag 1 (row.args c r1) (c.sources r1)).advance (advanceFuel r.keys.length) p) := by
    rw [hexec, startRemote_ready h hr]
  refine ⟨s.begin p.part k w r1, hworks, hrun, fun hrs hn hrank hready hsent hround => ?_⟩
  have halone : Alone r1 := collectives_alone p row hrow c r ⟨hn, hrank, hready, hsent, hround⟩
  have hop : k.hdr.opcode ∈ [0x0601, 0x0602, 0x0603, 0x0604, 0x0605, 0x0606] := h.opcode ▸ hcode
  have hpkt : c.pkt = k := (State.ctx_state h.ctx).2.2
  obtain ⟨sn, hsn, -⟩ := Option.map_eq_some_iff.mp h.ctx
  have hctx : (s.begin p.part k w r1).ctx p.part k1 = some ⟨s.begin p.part k w r1, p.part, k1, sn⟩ := Option.map_eq_some_iff.mpr ⟨sn, hsn, rfl⟩
  have hnext := halone.collectiveNext (s := s.begin p.part k w r1) (k := k1) (c := ⟨s.begin p.part k w r1, p.part, k1, sn⟩) rfl hop (h.opcode ▸ hrs) p.part
  refine ⟨_, hctx, hrun.trans (congrArg Host.Outcome.next ?_)⟩
  rw [halone.sources c (hpkt ▸ hop)]
  exact State.advance_ends hworks.packet hctx rfl rfl ((Claims.Works.fatal hworks).trans h.alive) hnext

section

variable {s : State} {p : PacketRef} {k : Packet} {c : Ctx} {r : Remote} {bucket : Nat}

/-- The work of a bucket's reduction with the result that the packet already has. -/
def reduceWork (k : Packet) (c : Ctx) (r : Remote) (bucket : Nat) : WorkOut :=
  let w := (c.bucketReduceWork r bucket).1
  { w with res := { k.res with codes := k.res.codes ++ w.res.codes, count1 := k.res.count1 + w.res.count1,
                               watch := k.res.watch ++ w.res.watch, clipped := k.res.clipped + w.res.clipped } }

/-- The totals of a bucket in its partition: added into its layer's, and its counter raised (R346). -/
def bucketTotals (c : Ctx) (bucket : Nat) (totals : List Nat) (pt : Part) : Part :=
  let pt1 := if c.rsLayer ≠ 0xFFFF ∧ (pt.layer c.rsLayer).slot.isSome = true ∧ (pt.layer c.rsLayer).scope = .reduced then
    pt.setLayer c.rsLayer ((pt.layer c.rsLayer).addTotals totals) else pt
  if c.bucketSig bucket = 0xFFFF then pt1 else pt1.raise (c.bucketSig bucket) 1

theorem execBucketReduce_of_running (h : Claims.Running s p 0x0602 k c) (hr : k.remote = some r) : execBucketReduce p bucket s =
    if k.hdr.opcode = 0x0602 ∧ k.phase = .running ∧ s.fatal = false ∧ bucket < c.buckets ∧ !r.finishedUnits.contains bucket ∧ c.allLanded r = true then
      if c.addr 0x20 ≠ 0 ∧ s.reachable (c.shift (c.addr 0x20)) 32 = false then .next (s.endPacket p.part k ERR_PEER_UNREACHABLE)
      else
        let s1 := s.begin p.part k (reduceWork k c r bucket) { r with finishedUnits := setIns r.finishedUnits bucket }
        if (s1.packet p).any fun k1 => k1.phase == .running then
          .next (((if c.addr 0x20 = 0 then s1 else s1.addQuads (c.shift (c.addr 0x20)) (c.bucketReduceWork r bucket).2).modPart p.part
            (bucketTotals c bucket (c.bucketReduceWork r bucket).2)).advance (advanceFuel r.keys.length) p)
        else .next s1
    else .next s := by
  unfold execBucketReduce
  rw [h.found]
  dsimp only
  rw [h.ctx, hr]
  rfl

end

/-- Settles O54: a landed bucket is reduced once, with its totals and its counter. -/
theorem bucketsReduced : Obligations.BucketsReduced := by
  intro p bucket s k c r h hr
  have hrun : exec (.bucketReduce p bucket) s = _ := execBucketReduce_of_running h hr
  have hin : (!r.finishedUnits.contains bucket) = true ↔ bucket ∉ r.finishedUnits := by
    rw [Bool.not_eq_true', ← Bool.not_eq_true, List.contains_iff_mem]
  refine ⟨fun hlt hnew hall => ?_, fun hno => ?_⟩
  · rw [if_pos ⟨h.opcode, h.phase, h.alive, hlt, hin.mpr hnew, hall⟩] at hrun
    intro out w out32
    refine ⟨fun ho => ?_, fun ho hreach => ?_⟩
    · rw [if_pos ho] at hrun
      exact hrun
    · rw [if_neg ho] at hrun
      have hworks : Claims.Works s (s.begin p.part k w { r with finishedUnits := setIns r.finishedUnits bucket }) p w
          (Claims.running s k w { r with finishedUnits := setIns r.finishedUnits bucket }) := State.begin_works h.found hreach rfl _
      refine ⟨_, hworks, ?_⟩
      dsimp only at hrun
      rw [show reduceWork k c r bucket = w from rfl, hworks.packet, if_pos (by rw [Option.any_some]; rfl)] at hrun
      exact hrun
  · rw [if_neg] at hrun
    · exact hrun
    · rintro ⟨-, -, -, hlt, hnew, hall⟩
      rcases hno with hle | hold | hland
      · omega
      · exact hin.mp hnew hold
      · exact ne_false_of_eq_true hall hland

end Sys2Proof.Machine
end

section
/-! PROOF. Expert exchanges: ROUTE, DISPATCH, COMBINE and COMBINE_BWD start and send, and DISPATCH compacts (R224 to R240). -/

namespace Sys2Proof.Machine

open Safety (OnlyData OnlyWork)

section

variable {s : State} {p : PacketRef} {k : Packet} {c : Ctx} {r : Remote}

/-! A wave at or beyond the wave count. -/

/-- Work of nothing ends its packet and changes nothing else. -/
theorem finish_nothing (he : s.engineDown k = false) : s.finish p.part k (WorkOut.of Result.empty) =
    s.setPacket p.part { k with phase := .finished, res := Claims.result s k (WorkOut.of Result.empty) } :=
  State.finish_of_no_access he Result.empty p.part

theorem execDispatchRows_past (h : Claims.Ready s p 0x0502 k c) (hr : k.remote = some r) (hw : c.waveCount ≤ c.wave) :
    execDispatchRows p s = .next (s.finish p.part k (WorkOut.of Result.empty)) := by
  unfold execDispatchRows
  rw [h.found]
  dsimp only
  rw [h.ctx, hr]
  dsimp only
  rw [if_pos ⟨h.opcode, h.phase, h.alive⟩, if_pos hw]

theorem execCombineRows_past (h : Claims.Ready s p 0x0503 k c) (hr : k.remote = some r) (hw : c.waveCount ≤ c.wave) :
    execCombineRows p s = .next (s.finish p.part k (WorkOut.of Result.empty)) := by
  unfold execCombineRows
  rw [h.found]
  dsimp only
  rw [h.ctx, hr]
  dsimp only
  rw [if_pos ⟨h.opcode, h.phase, h.alive⟩, if_pos hw]

theorem execCombineBwd_past (h : Claims.Ready s p 0x0504 k c) (hr : k.remote = some r) (hw : c.waveCount ≤ c.wave) :
    execCombineBwd p s = .next (s.finish p.part k (WorkOut.of Result.empty)) := by
  unfold execCombineBwd
  rw [h.found]
  dsimp only
  rw [h.ctx, hr]
  dsimp only
  rw [if_pos ⟨h.opcode, h.phase, h.alive⟩, if_pos hw]

/-! ROUTE. -/

theorem execRoute_alone (h : Claims.Ready s p 0x0501 k c) (hd : c.defer = false) :
    execRoute p s = .next (s.finish p.part k (c.routeWork c.gate (c.assigned c.gate) 1)) := by
  unfold execRoute
  rw [h.found]
  dsimp only
  rw [h.ctx]
  dsimp only
  rw [if_pos ⟨h.opcode, h.phase, h.alive⟩, if_pos hd]

/-- A ROUTE with DEFER whose own part runs sends its wave count. -/
theorem execRoute_deferred (h : Claims.Ready s p 0x0501 k c) (hd : c.defer = true) (hr : k.remote = some r) {w : WorkOut} {r0 : Remote} {k1 : Packet}
    (hw : w = c.routeWork c.gate (c.assigned c.gate) (localWaves (c.assigned c.gate))) (hr0 : r0 = { r with vec := [(localWaves (c.assigned c.gate) : Int)] })
    (hp : (s.begin p.part k w r0).packet p = some k1) (hrun : k1.phase = .running) :
    let sent := (s.begin p.part k w r0).sendMembers p.part p r0
      (r.others.map fun i => (i, c.routeKey.msg r.rank X_COUNT 0 0 ⟨toLe 4 (localWaves (c.assigned c.gate)), []⟩))
    let k2 := { k1 with remote := some sent.2 }
    let u := sent.1.setPacket p.part k2
    execRoute p s = .next ((u.routeNext p.part k2 c sent.2).getD u) := by
  subst hw hr0
  unfold execRoute
  rw [h.found]
  dsimp only
  rw [h.ctx]
  dsimp only
  rw [if_pos ⟨h.opcode, h.phase, h.alive⟩, if_neg (by rw [hd]; decide), hr]
  dsimp only
  rw [hp]
  dsimp only
  rw [if_neg (not_not.mpr hrun)]

/-! DISPATCH. -/

/-- The places of the rows that wave 0 reads: those of its records, and those it stages for later waves. -/
def waveSpans (c : Ctx) : List (Nat × Nat) :=
  (c.waveRecs c.wave ++ if c.deferred && c.wave == 0 then c.laterRecs else []).flatMap fun y => Claims.rowSpans (c.loc 1) [0, y.1 / max 1 c.routeK]

/-- A DISPATCH past its own part: it stages, sends, and lands the rows it holds. -/
theorem execDispatchRows_sends (h : Claims.Ready s p 0x0502 k c) (hr : k.remote = some r) (hw : c.wave < c.waveCount) {w : WorkOut} {k1 : Packet}
    (hwork : w = { WorkOut.of Result.empty with reads := if c.wave = 0 then waveSpans c else [] })
    (hp : (s.begin p.part k w r).packet p = some k1) (hrun : k1.phase = .running) :
    let row := fun (i : Nat) => c.s.rowPayload (c.loc 1) [0, i / max 1 c.routeK]
    let later := if c.deferred && c.wave == 0 then c.laterRecs else []
    let b := if later = [] then s.begin p.part k w r else (s.begin p.part k w r).modPart p.part (·.stage c.waveKey k1 (later.map fun y => (y.1, row y.1)))
    let headers := (List.range c.nMembers).map fun m => (m, c.waveKey.msg r.rank X_HEADER 0 0 (countsPayload (c.headerCounts m)))
    let totals := if c.lastWave then (List.range c.nMembers).map fun m => (m, c.waveKey.msg r.rank X_TOTALS 0 0 (countsPayload c.totalCounts)) else []
    let rows := (c.waveRecs c.wave).map fun y => (y.2.gslot / c.nSlots, c.waveKey.msg r.rank X_ROW (y.2.gslot % c.nSlots) y.2.pos
      (((s.part p.part).staged c.waveKey y.1).getD (row y.1)))
    let sent := b.sendMembers p.part p r (headers ++ totals ++ rows)
    execDispatchRows p s = .next (sent.1.landStore p.part (if later = [] then k1 else { k1 with pool := [] }) sent.2 2 c
      (c.landRows (sent.1.held p.part c.waveKey) (rowsOf (sent.1.held p.part c.waveKey)))) := by
  subst hwork
  intro row later b headers totals rows sent
  unfold execDispatchRows
  rw [h.found]
  dsimp only
  rw [h.ctx, hr]
  dsimp only
  rw [if_pos ⟨h.opcode, h.phase, h.alive⟩, if_neg (Nat.not_le.mpr hw)]
  split
  next heq => exact absurd (heq.symm.trans hp) (by simp)
  next k1' heq =>
    obtain rfl : k1' = k1 := Option.some.inj (heq.symm.trans hp)
    rw [if_neg (not_not.mpr hrun)]
    simp only [List.isEmpty_iff, Packet.staged] <;> rfl

/-! COMBINE and COMBINE_BWD. -/

/-- An exchange goes on by `f` where its packet still runs after what it held has landed. -/
theorem next_of_packet {o : Option Packet} {t : State} {f : Packet → State} :
    (match o with
      | none => Host.Outcome.next t
      | some k => .next (if k.phase ≠ .running then t else f k) : Host.Outcome State Fault Refusal) =
    .next (match o with
      | none => t
      | some k => if k.phase ≠ .running then t else f k) := by
  cases o with
  | none => rfl
  | some k => rfl

/-- The rows of a wave that a COMBINE sends: the source's rank, the slot, the place in its segment, and the row. -/
def combineRows (c : Ctx) (r : Remote) : List (Nat × Nat × Nat × Nat) :=
  (List.range c.nSlots).flatMap fun l => (List.range c.nMembers).flatMap fun σ =>
    (List.range (c.segRows r l σ)).map fun i => (σ, l, i, r.seg c.nMembers l σ + i)

/-- What a COMBINE reads: its segment table and its rows. -/
def combineReads (c : Ctx) (r : Remote) : List (Nat × Nat) :=
  (c.shift (c.addr 0x10), 4 * c.nSlots * (c.nMembers + 1)) :: (combineRows c r).flatMap fun x => Claims.rowSpans (c.loc 1) [0, x.2.2.2, x.2.1]

/-- A COMBINE past its own part: it sends, lands the rows it holds, and goes on. -/
theorem execCombineRows_sends (h : Claims.Ready s p 0x0503 k c) (hr : k.remote = some r) (hw : c.wave < c.waveCount) {w : WorkOut} {r1 : Remote} {k1 : Packet}
    (hr1 : r1 = { r with vec := (c.segTable (c.shift (c.addr 0x10))).map Int.ofNat })
    (hwork : w = { WorkOut.of Result.empty with reads := combineReads c r1 })
    (hp : (s.begin p.part k w r1).packet p = some k1) (hrun : k1.phase = .running) :
    let sent := (s.begin p.part k w r1).sendMembers p.part p r1 ((combineRows c r1).map fun x =>
      (x.1, c.waveKey.msg r.rank X_ROW x.2.1 x.2.2.1 (c.s.rowPayload (c.loc 1) [0, x.2.2.2, x.2.1])))
    let u := sent.1.landStore p.part k1 sent.2 3 c (c.landReturned (rowsOf (sent.1.held p.part c.waveKey)))
    execCombineRows p s = .next (match u.packet p with
      | none => u
      | some k3 => if k3.phase ≠ .running then u else (u.combineNext p.part k3 { c with s := u } sent.2).getD u) := by
  subst hwork hr1
  intro sent u
  unfold execCombineRows
  rw [h.found]
  dsimp only
  rw [h.ctx, hr]
  dsimp only
  rw [if_pos ⟨h.opcode, h.phase, h.alive⟩, if_neg (Nat.not_le.mpr hw)]
  split
  next heq => exact absurd (heq.symm.trans hp) (by simp)
  next k1' heq =>
    obtain rfl : k1' = k1 := Option.some.inj (heq.symm.trans hp)
    rw [if_neg (not_not.mpr hrun), ← next_of_packet] <;> rfl

/-- The own part of a COMBINE_BWD: its segment table, and at wave 0 the rows of its gradient. -/
def bwdWork (c : Ctx) : WorkOut :=
  { WorkOut.of { Result.empty with ternInvalid := if c.wave = 0 then c.s.ternDense (c.loc 1) else 0 } with
    reads := (c.shift (c.addr 0x20), 4 * c.nSlots * (c.nMembers + 1)) :: if c.wave = 0 then waveSpans c else [] }

/-- A COMBINE_BWD past its own part: it stages, sends, lands the rows it holds, and goes on. -/
theorem execCombineBwd_sends (h : Claims.Ready s p 0x0504 k c) (hr : k.remote = some r) (hw : c.wave < c.waveCount) {w : WorkOut} {r1 : Remote} {k1 : Packet}
    (hr1 : r1 = { r with vec := (c.segTable (c.shift (c.addr 0x20))).map Int.ofNat })
    (hwork : w = bwdWork c)
    (hp : (s.begin p.part k w r1).packet p = some k1) (hrun : k1.phase = .running) :
    let later := if c.deferred && c.wave == 0 then c.laterRecs else []
    let b := if later = [] then s.begin p.part k w r1 else (s.begin p.part k w r1).modPart p.part (·.stage c.waveKey k1 (later.map fun y => (y.1, c.bwdRow y.1)))
    let sent := b.sendMembers p.part p r1 ((c.waveRecs c.wave).map fun y => (y.2.gslot / max 1 c.nSlots,
      c.waveKey.msg r.rank X_ROW (y.2.gslot % max 1 c.nSlots) y.2.pos (((s.part p.part).staged c.waveKey y.1).getD (c.bwdRow y.1))))
    let u := sent.1.landStore p.part (if later = [] then k1 else { k1 with pool := [] }) sent.2 3 c
      (c.landGrads sent.2 (rowsOf (sent.1.held p.part c.waveKey)))
    execCombineBwd p s = .next (match u.packet p with
      | none => u
      | some k4 => if k4.phase ≠ .running then u else (u.combineBwdNext p.part k4 { c with s := u } sent.2).getD u) := by
  subst hwork hr1
  intro later b sent u
  unfold execCombineBwd
  rw [h.found]
  dsimp only
  rw [h.ctx, hr]
  dsimp only
  rw [if_pos ⟨h.opcode, h.phase, h.alive⟩, if_neg (Nat.not_le.mpr hw)]
  split
  next heq => exact absurd (heq.symm.trans hp) (by simp)
  next k1' heq =>
    obtain rfl : k1' = k1 := Option.some.inj (heq.symm.trans hp)
    rw [if_neg (not_not.mpr hrun), ← next_of_packet]
    simp only [List.isEmpty_iff, Packet.staged] <;> rfl

/-! DISPATCH_COMPACT. -/

/-- The work of a compaction that no fault ends, with its counts and its segment table. -/
theorem State.compact_spec (hr : k.remote = some r) (part : Nat) :
    let ms := (s.held part c.waveKey).filter fun m => !(r.finishedUnits.contains m.src)
    let counts := (List.range c.nSlots).map fun l => (List.range c.nMembers).map fun σ => (c.segment ms l σ).length
    ∃ w, w.res.count0 = (counts.map List.sum).sum ∧ w.res.count1 = r.sent
      ∧ (⟨c.addr 0x18, counts.flatMap fun ns => (List.range (ns.length + 1)).flatMap fun i => toLe 4 (ns.take i).sum, false⟩ : Write) ∈ w.writes
      ∧ s.compact part k c r [] = ((s.finish part k w).countDrops part ((rowsOf ms).filter fun m => !c.rowFits ms m).length).dropExchange part c.waveKey := by
  intro ms counts
  have hk : { k with remote := some r } = k := by rw [← hr]
  have hcounts : (((List.range c.nSlots).map fun l => (List.range c.nMembers).map fun σ => c.segment ms l σ).map fun ss => ss.map List.length) = counts := by
    rw [List.map_map]
    exact List.map_congr_left fun l _ => List.map_map
  unfold State.compact
  dsimp only
  rw [hk, hcounts]
  refine ⟨_, rfl, rfl, List.mem_append_right _ ?_, rfl⟩
  simp only [List.flatMap_map, List.mem_singleton]

end

/-- Settles O55: the four exchanges start, send and go on, and DISPATCH compacts once all has arrived. -/
theorem expertsExchange : Obligations.ExpertsExchange := by
  intro p s k c r ended key g recs later staged roomless seg r1 segBytes sources
  refine ⟨fun h => ?_, fun hw he hr => ⟨fun h => ?_, fun h => ?_, fun h => ?_⟩,
    fun hw hr => ⟨fun h => ?_, fun h => ?_, fun h => ?_⟩, fun h hr => ?_⟩
  · refine ⟨fun hd hreach => ⟨_, execRoute_alone h hd, State.finish_works h.found hreach⟩, fun hd hr => ?_⟩
    intro w r0 hreach
    have hworks := State.begin_works h.found hreach rfl r0
    have hrun := execRoute_deferred h hd hr rfl rfl hworks.packet rfl
    exact ⟨_, hworks, hrun⟩
  · exact (execDispatchRows_past h hr hw).trans (congrArg Host.Outcome.next (finish_nothing he))
  · exact (execCombineRows_past h hr hw).trans (congrArg Host.Outcome.next (finish_nothing he))
  · exact (execCombineBwd_past h hr hw).trans (congrArg Host.Outcome.next (finish_nothing he))
  · intro row w hreach
    have hworks := State.begin_works h.found hreach rfl r
    have hrun := execDispatchRows_sends h hr hw rfl hworks.packet rfl
    exact ⟨_, hworks, hrun⟩
  · intro rows w hreach
    have hworks := State.begin_works h.found hreach rfl r1
    have hseg : seg = c.shift (c.addr 0x10) := congrArg (fun a => c.shift (c.addr a)) (if_pos h.opcode)
    have hwork : w = { WorkOut.of Result.empty with reads := combineReads c r1 } := by
      unfold combineReads
      rw [← hseg]
      rfl
    have hrun := execCombineRows_sends h hr hw (congrArg (fun a => { r with vec := (c.segTable a).map Int.ofNat }) hseg) hwork hworks.packet rfl
    exact ⟨_, hworks, hrun⟩
  · intro w hreach
    have hworks := State.begin_works h.found hreach rfl r1
    have hseg : seg = c.shift (c.addr 0x20) := congrArg (fun a => c.shift (c.addr a)) (if_neg (by rw [h.opcode]; decide))
    have hwork : w = bwdWork c := by
      unfold bwdWork
      rw [← hseg]
      rfl
    have hrun := execCombineBwd_sends h hr hw (congrArg (fun a => { r with vec := (c.segTable a).map Int.ofNat }) hseg) hwork hworks.packet rfl
    exact ⟨_, hworks, hrun⟩
  · have hexec : exec (.dispatchCompact p) s = if k.hdr.opcode = 0x0502 ∧ k.phase = .running ∧ s.fatal = false ∧ c.dispatchComplete r (s.held p.part c.waveKey) = true
        then .next (s.compact p.part k c r []) else .next s := by
      show execDispatchCompact p s = _
      unfold execDispatchCompact
      rw [h.found]
      dsimp only
      rw [h.ctx, hr]
    refine ⟨fun hall => ?_, fun hno => ?_⟩
    · obtain ⟨w, hcount0, hcount1, hseg, hcompact⟩ := State.compact_spec (s := s) (c := c) hr p.part
      rw [if_pos ⟨h.opcode, h.phase, h.alive, hall⟩, hcompact] at hexec
      exact ⟨w, hcount0, hcount1, hseg, fun hreach => ⟨_, State.finish_works h.found hreach, hexec⟩⟩
    · rw [if_neg (fun hn => ne_false_of_eq_true hn.2.2.2 hno)] at hexec
      exact hexec

end Sys2Proof.Machine
end

section
/-! PROOF. Placement objects: SET, STEP, a revision and RELEASE (R218, R220, R243). -/

namespace Sys2Proof.Machine

open Safety (OnlyData OnlyWork)

section

variable {s : State} {p : PacketRef} {k : Packet} {c : Ctx} {r : Remote}

/-- A PLACE_EXPERTS that begins to exchange runs, sends its messages, and goes on. -/
theorem State.placeStart_spec (hk : s.packet p = some k) (he : s.engineDown k = false) (c : Ctx) (r : Remote) (what : Nat) (data : Payload) :
    ∃ b, Claims.Works s b p (WorkOut.of Result.empty) (Claims.running s k (WorkOut.of Result.empty) r) ∧
      let sent := b.sendMembers p.part p r (r.others.map fun i => (i, c.placeKey.msg r.rank what 0 0 data))
      s.placeStart p k c r what data = (sent.1.setRemote p.part (Claims.running s k (WorkOut.of Result.empty) r) sent.2).placeAdvance 4 p := by
  have hworks := State.begin_works hk (reached_of_no_access he Result.empty) rfl r
  refine ⟨_, hworks, ?_⟩
  intro sent
  unfold State.placeStart
  dsimp only
  rw [hworks.packet]
  dsimp only
  exact if_neg fun hn => hn rfl

/-- A packet that does not run does not go on. -/
theorem State.placeAdvance_idle (hk : s.packet p = some k) (h : k.phase ≠ .running) (fuel : Nat) : State.placeAdvance fuel p s = s := by
  cases fuel with
  | zero => rfl
  | succ n =>
    unfold State.placeAdvance
    rw [hk]
    dsimp only
    split
    · exact if_pos (Or.inr (Or.inl h))
    · rfl

/-- One action of a running exchange of placement. -/
theorem State.placeAdvance_step (hk : s.packet p = some k) (hc : s.ctx p.part k = some c) (hr : k.remote = some r) (hop : k.hdr.opcode = 0x0505)
    (h : k.phase = .running) (hf : s.fatal = false) (fuel : Nat) :
    State.placeAdvance (fuel + 1) p s = (s.placeNext p.part k c r).elim s (State.placeAdvance fuel p) := by
  rw [State.placeAdvance, hk]
  dsimp only
  rw [hc, hr]
  dsimp only
  rw [if_neg]
  · cases s.placeNext p.part k c r with
    | none => rfl
    | some t => rfl
  · rw [hf]
    rintro (hn | hn | hn)
    · exact hn hop
    · exact hn h
    · exact Bool.false_ne_true hn

theorem execPlaceExpertsSet_eq (hk : s.packet p = some k) (hc : s.ctx p.part k = some c) (hr : k.remote = some r) : execPlaceExpertsSet p s =
    if k.hdr.opcode = 0x0505 ∧ k.phase = .ready ∧ s.fatal = false ∧ c.placeOp = 0 then .next (s.placeStart p k c r X_DIGEST ⟨c.setDigest, []⟩) else .next s := by
  unfold execPlaceExpertsSet
  rw [hk]
  dsimp only
  rw [hc, hr]

theorem execPlacementRevision_eq (hk : s.packet p = some k) (hc : s.ctx p.part k = some c) (hr : k.remote = some r) : execPlacementRevision p s =
    if k.hdr.opcode = 0x0505 ∧ s.fatal = false ∧ c.placeOp = 1 then
      if k.phase = .refWait ∧ (s.part p.part).objHeld c.objNo = false then .next (s.placeStart p k c r X_LOADS ⟨c.o.loads.flatMap (toLe 8), []⟩)
      else .next (s.placeAdvance 4 p)
    else .next s := by
  unfold execPlacementRevision
  rw [hk]
  dsimp only
  rw [hc, hr]

theorem execPlaceExpertsStep_eq (hk : s.packet p = some k) (hc : s.ctx p.part k = some c) : execPlaceExpertsStep p s =
    if k.hdr.opcode = 0x0505 ∧ k.phase = .ready ∧ s.fatal = false ∧ c.placeOp = 1 then
      if c.o.due then
        if k.remote.isNone ∧ ((s.part p.part).members.isEmpty ∨ (s.part p.part).quarantined) then
          .next (s.endPacket p.part k (if (s.part p.part).members.isEmpty then ERR_PEER_UNREACHABLE else ERR_EPOCH))
        else .next (s.setPacket p.part { k with phase := .refWait, remote := some (k.remote.getD c.placeRemote) })
      else .next (s.finish p.part k (Claims.effects [.objStep c.objNo, .objMirror c.objNo]))
    else .next s := by
  unfold execPlaceExpertsStep
  rw [hk]
  dsimp only
  rw [hc]
  rfl

theorem execPlaceExpertsRelease_eq (hk : s.packet p = some k) (hc : s.ctx p.part k = some c) : execPlaceExpertsRelease p s =
    if k.hdr.opcode = 0x0505 ∧ (k.phase = .ready ∨ k.phase = .refWait) ∧ s.fatal = false ∧ c.placeOp = 2 then
      if (s.part p.part).objHeld c.objNo then .next (s.setPacket p.part { k with phase := .refWait })
      else .next (s.finish p.part k (Claims.effects [.objMirror c.objNo, .objUnset c.objNo]))
    else .next s := by
  unfold execPlaceExpertsRelease
  rw [hk]
  dsimp only
  rw [hc]
  rfl

end

/-- Settles O56: SET and a revision exchange, STEP counts or begins a revision, and RELEASE waits while the object is held. -/
theorem placementChanges : Obligations.PlacementChanges := by
  intro p s k c hk hc hop hf waiting ends talks
  have htalks : ∀ (cmd : Instr) (r : Remote) (what : Nat) (data : Payload), exec cmd s = .next (s.placeStart p k c r what data) → talks cmd r what data := by
    intro cmd r what data hexec he
    obtain ⟨b, hworks, hstart⟩ := State.placeStart_spec hk he c r what data
    exact ⟨b, hworks, hexec.trans (congrArg Host.Outcome.next hstart)⟩
  have hends : ∀ (cmd : Instr) (es : List Effect), exec cmd s = .next (s.finish p.part k (Claims.effects es)) → ends cmd es :=
    fun cmd es hexec he => hexec.trans (congrArg Host.Outcome.next (State.finish_of_no_access he _ p.part))
  refine ⟨fun r hr => ⟨fun hready hset => ?_, fun hstep => ?_⟩, fun hready hstep => ?_, fun hphase hrel => ?_⟩
  · have hexec : exec (.placeExpertsSet p) s = _ := execPlaceExpertsSet_eq hk hc hr
    rw [if_pos ⟨hop, hready, hf, hset⟩] at hexec
    exact htalks _ _ _ _ hexec
  · have hexec : exec (.placementRevision p) s = _ := execPlacementRevision_eq hk hc hr
    rw [if_pos ⟨hop, hf, hstep⟩] at hexec
    refine ⟨fun hwait hfree => ?_, fun hwait hheld => ?_, fun hrun t hnext => ?_, fun hrun hnext => ?_⟩
    · rw [if_pos ⟨hwait, hfree⟩] at hexec
      exact htalks _ _ _ _ hexec
    · rw [if_neg (fun hn => ne_false_of_eq_true hheld hn.2), State.placeAdvance_idle hk (by rw [hwait]; decide)] at hexec
      exact hexec
    · rw [if_neg (by rw [hrun]; exact fun hn => absurd hn.1 (by decide)), State.placeAdvance_step hk hc hr hop hrun hf, hnext] at hexec
      exact hexec
    · rw [if_neg (by rw [hrun]; exact fun hn => absurd hn.1 (by decide)), State.placeAdvance_step hk hc hr hop hrun hf, hnext] at hexec
      exact hexec
  · intro pt alone
    have hexec : exec (.placeExpertsStep p) s = _ := execPlaceExpertsStep_eq hk hc
    rw [if_pos ⟨hop, hready, hf, hstep⟩] at hexec
    simp only [Option.isNone_iff_eq_none, List.isEmpty_iff] at hexec
    refine ⟨fun hdue hno => ?_, fun hdue halone => ?_, fun hdue => ?_⟩
    · rw [if_pos hdue, if_neg hno] at hexec
      exact hexec
    · rw [if_pos hdue, if_pos halone] at hexec
      exact hexec
    · rw [if_neg (by rw [hdue]; exact Bool.false_ne_true)] at hexec
      exact hends _ _ hexec
  · have hexec : exec (.placeExpertsRelease p) s = _ := execPlaceExpertsRelease_eq hk hc
    rw [if_pos ⟨hop, hphase, hf, hrel⟩] at hexec
    refine ⟨fun hheld => ?_, fun hfree => ?_⟩
    · rw [if_pos hheld] at hexec
      exact hexec
    · rw [if_neg (by rw [hfree]; exact Bool.false_ne_true)] at hexec
      exact hends _ _ hexec

end Sys2Proof.Machine
end

section
/-! PROOF. Snapshots: a generation opened, filled, closed, committed, discarded and restored, parity units and rebuilt stripes (R395 to R407). -/

namespace Sys2Proof.Machine

open Safety (OnlyData OnlyWork)

section

variable {s : State} {p : PacketRef} {k : Packet} {c : Ctx} {r : Remote}

/-! Each command on a packet with its context. -/

theorem execSnapBegin_eq (hk : s.packet p = some k) (hc : s.ctx p.part k = some c) : execSnapBegin p s =
    if k.hdr.opcode = 0x0801 ∧ k.phase = .ready ∧ s.fatal = false ∧ c.u 4 1 = 0 then
      if (s.part p.part).beginFails c.gen then .next (s.finish p.part k (WorkOut.of { Result.of [ERR_DESCRIPTOR] 0 0 0 with field := 0 }))
      else .next ((s.finish p.part k (WorkOut.of Result.empty)).modPart p.part (·.openGen c.gen ((c.u 5 1).testBit 0)))
    else .next s := by
  unfold execSnapBegin
  rw [hk]
  dsimp only
  rw [hc]

theorem execSnapDiscard_eq (hk : s.packet p = some k) (hc : s.ctx p.part k = some c) : execSnapDiscard p s =
    if k.hdr.opcode = 0x0801 ∧ (k.phase = .ready ∨ k.phase = .refWait) ∧ s.fatal = false ∧ c.u 4 1 = 1 then
      if (s.part p.part).genUsed c.gen k.ring k.idx then .next (s.setPacket p.part { k with phase := .refWait })
      else .next ((s.finish p.part k (WorkOut.of Result.empty)).modPart p.part (·.modGen c.gen fun _ => Generation.free))
    else .next s := by
  unfold execSnapDiscard
  rw [hk]
  dsimp only
  rw [hc]

theorem execSnapWrite_ready (hk : s.packet p = some k) (hc : s.ctx p.part k = some c) (hop : k.hdr.opcode = 0x0802) (hph : k.phase = .ready)
    (hf : s.fatal = false) : execSnapWrite p s =
    if c.writesSchedule then .next (s.finish p.part k (WorkOut.of (Result.of [] (k.work.headD 0).toNat
      (min (((c.genEntry.bind fun g => g.extents[(k.work.headD 0).toNat]?).map (·.len)).getD 0 / 4096) 0xFFFFFFFF) 0)))
    else .next ((s.finish p.part k { WorkOut.of (Result.of [] (k.work.headD 0).toNat (min (c.extentLen / 4096) 0xFFFFFFFF) 0) with
        reads := [(c.shift (c.addr 0), c.extentLen)] }).modPart p.part fun pt =>
      (pt.modExtent c.gen (k.work.headD 0).toNat fun e =>
        { e with data := s.sparse (c.shift (c.addr 0)) c.extentLen, poisonUnits := s.badUnits (c.shift (c.addr 0)) c.extentLen }).modGen c.gen
          fun g => { g with poisoned := g.poisoned || !(s.badUnits (c.shift (c.addr 0)) c.extentLen).isEmpty }) := by
  unfold execSnapWrite
  rw [hk]
  dsimp only
  rw [hc]
  dsimp only
  rw [if_pos ⟨hop, hph, hf⟩]
  rfl

theorem execSnapParity_ready (hk : s.packet p = some k) (hc : s.ctx p.part k = some c) (hr : k.remote = some r) (hop : k.hdr.opcode = 0x0803)
    (hph : k.phase = .ready) (hf : s.fatal = false) {b : State}
    (hb : b = (s.begin p.part k (WorkOut.of Result.empty) { r with vec := [0] }).modPart p.part (·.modGen c.gen fun g => g.close r.ghash)) :
    execSnapParity p s = .next ((b.controlAll p.part p c.ctag 1 (0, (((b.part p.part).generation c.gen).map (·.units)).getD 0, 0, 0)
      (r.others.map fun x => (x, 0))).parityAdvance (advanceFuel (8 * r.keys.length)) p) := by
  subst hb
  unfold execSnapParity
  rw [hk]
  dsimp only
  rw [hc, hr]
  dsimp only
  rw [if_pos ⟨hop, hph, hf⟩]

/-- The work of a parity unit: its landing buffer is read. -/
def parityWork (k : Packet) (r : Remote) (unit : Nat) : WorkOut :=
  { WorkOut.of k.res with reads := [(r.bufferAt (r.keys.length - 1) (unit % 2) 0, (r.keys.length - 1) * unitBytes)] }

theorem execParityUnitXor_eq (hk : s.packet p = some k) (hc : s.ctx p.part k = some c) (hr : k.remote = some r) (unit : Nat) : execParityUnitXor p unit s =
    if k.hdr.opcode = 0x0803 ∧ k.phase = .running ∧ s.fatal = false ∧ unit = r.round ∧ (unit : Int) < r.vec.headD 0
        ∧ ((r.others.map fun x => (x, unit % 256)).all fun t => r.done.contains t) = true then
      let u := s.xorBuffer (r.bufferAt (r.keys.length - 1) (unit % 2) 0) (r.keys.length - 1)
      .next (((s.begin p.part k (parityWork k r unit)
          { r with round := unit + 1, done := r.done.filter fun t => !(r.others.map fun x => (x, unit % 256)).contains t }).modPart p.part
        (·.modGen c.gen fun g => { g with parity := g.parity ++ [(unit, u)], poisoned := g.poisoned || u.2 })).parityAdvance
          (advanceFuel (8 * r.keys.length)) p)
    else .next s := by
  unfold execParityUnitXor
  rw [hk]
  dsimp only
  rw [hc, hr]
  rfl

theorem execSnapCommit_ready {g : Generation} (hk : s.packet p = some k) (hc : s.ctx p.part k = some c) (hop : k.hdr.opcode = 0x0804) (hph : k.phase = .ready)
    (hf : s.fatal = false) (hg : c.genEntry = some g) : execSnapCommit p s =
    if g.noParity then
      if s.freeUnits p.part = 0 then .next (s.finish p.part k (WorkOut.of { Result.of [ERR_DESCRIPTOR] 0 0 0 with field := 0xFF }))
      else .next ((s.finish p.part k (WorkOut.of Result.empty)).modPart p.part
        (·.modGen c.gen fun g => { g.close c.ghash with state := .committed, ghash := c.ghash }))
    else k.remote.elim (.next s) fun r => .next ((s.begin p.part k (WorkOut.of Result.empty) r).advance (advanceFuel r.keys.length) p) := by
  unfold execSnapCommit
  rw [hk]
  dsimp only
  rw [hc]
  dsimp only
  rw [if_pos ⟨hop, hph, hf⟩, hg]
  dsimp only
  cases k.remote with
  | none => rfl
  | some r => rfl

theorem execRestoreGen_ready (hk : s.packet p = some k) (hc : s.ctx p.part k = some c) (hop : k.hdr.opcode = 0x0805) (hph : k.phase = .ready)
    (hf : s.fatal = false) : execRestoreGen p s =
    if c.restoreWaits then .next (s.setPacket p.part { k with phase := .refWait })
    else .next ((if c.restorePlans.isEmpty then s else s.modPart p.part fun _ => (c.restoreApplied (s.part p.part)).1).finish p.part k
      (c.restoreWork (s.part p.part) (c.restoreApplied (s.part p.part)).2)) := by
  unfold execRestoreGen
  rw [hk]
  dsimp only
  rw [hc]
  dsimp only
  rw [if_pos ⟨hop, hph, hf⟩]

theorem execRebuild_ready (hk : s.packet p = some k) (hc : s.ctx p.part k = some c) (hr : k.remote = some r) (hop : k.hdr.opcode = 0x0806)
    (hph : k.phase = .ready) (hf : s.fatal = false) {b : State} (hb : b = s.begin p.part k (WorkOut.of Result.empty) r) :
    execRebuild p s = .next ((if c.isSpare then b.controlAll p.part p c.ctag 1 (0, 0, 0, 0) [(c.coordinator, 0)] else b).rebuildAdvance
      (advanceFuel (8 * r.keys.length)) p) := by
  subst hb
  unfold execRebuild
  rw [hk]
  dsimp only
  rw [hc, hr]
  dsimp only
  rw [if_pos ⟨hop, hph, hf⟩]

/-- The work of a stripe: its landing buffer is read. -/
def stripeWork (k : Packet) (c : Ctx) (r : Remote) (stripe : Nat) : WorkOut :=
  { WorkOut.of k.res with reads := [(r.bufferAt (c.ranks - 1) (stripe % 2) 0, (c.ranks - 1) * unitBytes)] }

/-- A generation with the unit that a stripe gives it. -/
def withStripe (c : Ctx) (stripe : Nat) (u : List (Nat × Byte) × Bool) (g : Generation) : Generation :=
  let g1 := { g with poisoned := g.poisoned || u.2 }
  if stripe % c.ranks = c.lostRank then { g1 with parity := g1.parity ++ [(stripe / c.ranks, u)] }
  else { g1 with rebuilt := g1.rebuilt ++ [(unitInStripe c.ranks c.lostRank stripe, u)] }

theorem execRebuildStripe_eq (hk : s.packet p = some k) (hc : s.ctx p.part k = some c) (hr : k.remote = some r) (stripe : Nat) : execRebuildStripe p stripe s =
    if k.hdr.opcode = 0x0806 ∧ k.phase = .running ∧ s.fatal = false ∧ c.isSpare = true ∧ r.chosen = some r.rank ∧ stripe = r.round
        ∧ (stripe : Int) < r.vec[1]?.getD 0 ∧ ((c.survivors.map fun x => (x, stripe % 256)).all fun t => r.done.contains t) = true then
      .next (((s.begin p.part k (stripeWork k c r stripe)
          { r with round := stripe + 1, done := r.done.filter fun t => !(c.survivors.map fun x => (x, stripe % 256)).contains t }).modPart p.part
        (·.modGen c.gen (withStripe c stripe (s.xorBuffer (r.bufferAt (c.ranks - 1) (stripe % 2) 0) (c.ranks - 1))))).rebuildAdvance
          (advanceFuel (8 * c.ranks)) p)
    else .next s := by
  unfold execRebuildStripe
  rw [hk]
  dsimp only
  rw [hc, hr]
  rfl

end

theorem all_contains_iff {all done : List (Nat × Nat)} : (all.all fun t => done.contains t) = true ↔ ∀ t ∈ all, t ∈ done := by
  rw [List.all_eq_true]
  simp only [List.contains_iff_mem]

/-- Settles O57: each snapshot opcode runs as its chapter says, and the two landing commands store their unit once all has landed. -/
theorem snapshotsRun : Obligations.SnapshotsRun := by
  intro p s k c hk hc hf he pt gen done ended waiting runs
  have hended : ∀ r, s.finish p.part k (WorkOut.of r) = ended r := fun r => State.finish_of_no_access he r p.part
  have hruns : ∀ (r : Remote) (f : State → State) (cmd : Instr), exec cmd s = .next (f (s.begin p.part k (WorkOut.of Result.empty) r)) → runs r f cmd :=
    fun r f cmd hexec => ⟨_, State.begin_works hk (reached_of_no_access he Result.empty) rfl r, hexec⟩
  refine ⟨fun hop => ⟨fun hph h0 => ?_, fun hph h1 => ?_⟩, fun hop hph => ?_, fun hop hph => ?_, fun hop hph g hg => ⟨fun hno => ?_, fun hpar r hr => ?_⟩, fun r hr => ?_⟩
  · have hexec : exec (.snapBegin p) s = _ := execSnapBegin_eq hk hc
    rw [if_pos ⟨hop, hph, hf, h0⟩, hended, hended] at hexec
    refine ⟨fun hb => ?_, fun hb => ?_⟩
    · rw [if_pos hb] at hexec
      exact hexec
    · rw [if_neg (by rw [show (s.part p.part).beginFails c.gen = false from hb]; exact Bool.false_ne_true)] at hexec
      exact hexec
  · have hexec : exec (.snapDiscard p) s = _ := execSnapDiscard_eq hk hc
    rw [if_pos ⟨hop, hph, hf, h1⟩, hended] at hexec
    refine ⟨fun hu => ?_, fun hu => ?_⟩
    · rw [if_pos hu] at hexec
      exact hexec
    · rw [if_neg (by rw [show (s.part p.part).genUsed c.gen k.ring k.idx = false from hu]; exact Bool.false_ne_true)] at hexec
      exact hexec
  · intro n a res
    have hexec : exec (.snapWrite p) s = _ := execSnapWrite_ready hk hc hop hph hf
    refine ⟨fun hsched => ?_, fun hsched => ?_⟩
    · rw [if_pos hsched, hended] at hexec
      exact hexec
    · intro w hreach
      rw [if_neg (by rw [hsched]; exact Bool.false_ne_true)] at hexec
      exact ⟨_, State.finish_works hk hreach, hexec⟩
  · intro w
    have hexec : exec (.restoreGen p) s = _ := execRestoreGen_ready hk hc hop hph hf
    refine ⟨fun hwait => ?_, fun hwait => ⟨fun hplans hreach => ?_, fun hplans => ?_⟩⟩
    · rw [if_pos hwait] at hexec
      exact hexec
    · rw [if_neg (by rw [hwait]; exact Bool.false_ne_true), if_pos (by rw [hplans]; rfl)] at hexec
      exact ⟨_, hexec, State.finish_works hk hreach⟩
    · rw [if_neg (by rw [hwait]; exact Bool.false_ne_true), if_neg (by rw [List.isEmpty_iff]; exact hplans)] at hexec
      exact hexec
  · have hexec : exec (.snapCommit p) s = _ := execSnapCommit_ready hk hc hop hph hf hg
    rw [if_pos hno, hended, hended] at hexec
    refine ⟨fun hfull => ?_, fun hroom => ?_⟩
    · rw [if_pos hfull] at hexec
      exact hexec
    · rw [if_neg hroom] at hexec
      exact hexec
  · have hexec : exec (.snapCommit p) s = _ := execSnapCommit_ready hk hc hop hph hf hg
    rw [if_neg (by rw [hpar]; exact Bool.false_ne_true), hr] at hexec
    exact hruns _ _ _ hexec
  · intro others units buffer
    refine ⟨fun hop => ⟨fun hph => ?_, fun hph unit => ?_⟩, fun hop => ⟨fun hph => ?_, fun hph stripe => ?_⟩⟩
    · exact hruns _ _ _ (execSnapParity_ready hk hc hr hop hph hf rfl)
    · intro all mine
      have hexec : exec (.parityUnitXor p unit) s = _ := execParityUnitXor_eq hk hc hr unit
      refine ⟨fun hmine hreach => ?_, fun hno => ?_⟩
      · obtain ⟨hround, hlt, hall⟩ := hmine
        rw [if_pos ⟨hop, hph, hf, hround, hlt, all_contains_iff.mpr hall⟩] at hexec
        exact ⟨_, State.begin_works hk hreach rfl _, hexec⟩
      · rw [if_neg (fun hn => hno ⟨hn.2.2.2.1, hn.2.2.2.2.1, all_contains_iff.mp hn.2.2.2.2.2⟩)] at hexec
        exact hexec
    · exact hruns _ _ _ (execRebuild_ready hk hc hr hop hph hf rfl)
    · intro others a u w all mine
      have hexec : exec (.rebuildStripe p stripe) s = _ := execRebuildStripe_eq hk hc hr stripe
      refine ⟨fun hmine hreach => ?_, fun hno => ?_⟩
      · obtain ⟨hspare, hchosen, hround, hlt, hall⟩ := hmine
        rw [if_pos ⟨hop, hph, hf, hspare, hchosen, hround, hlt, all_contains_iff.mpr hall⟩] at hexec
        exact ⟨_, State.begin_works hk hreach rfl _, hexec⟩
      · rw [if_neg] at hexec
        · exact hexec
        · rintro ⟨-, -, -, hspare, hchosen, hround, hlt, hall⟩
          exact hno ⟨hspare, hchosen, hround, hlt, all_contains_iff.mp hall⟩

end Sys2Proof.Machine
end

section
/-! PROOF. Key exchange over a port, and the records of bounce queues: sent by SEND, and taken or refused (R430, R436, R437). -/

namespace Sys2Proof.Machine

open Safety (OnlyData OnlyWork)

section

variable {s : State} {p : PacketRef} {k : Packet} {c : Ctx}

/-! KEY_EXCHANGE with OP PORT and CLEAR_PORT. -/

theorem execKeyExchangePort_ready {r : Remote} (h : Claims.Ready s p 0x0B02 k c) (hr : k.remote = some r) (hop : c.keyOp = 2) :
    let sent := (s.setPacket p.part { k with phase := .running }).keyControl c r 1 0 (globalAddr s.endpoint r.landing) (s.serial % 2 ^ 64)
      (s.serial / 2 ^ 64 % 2 ^ 64) c.keyPort
    execKeyExchangePort p s =
      .next (if sent.2 = true then sent.1.keyAdvance 8 p else sent.1.endPacket p.part { k with phase := .running } ERR_PEER_UNREACHABLE) := by
  intro sent
  unfold execKeyExchangePort
  rw [h.found]
  dsimp only
  split
  next c' r' hc' hr' =>
    obtain rfl : c = c' := Option.some.inj (h.ctx.symm.trans hc')
    obtain rfl : r = r' := Option.some.inj (hr.symm.trans hr')
    rw [if_pos ⟨h.opcode, h.phase, h.alive, hop⟩]
    by_cases hsent : sent.2 = true
    · rw [if_pos hsent]
      exact congrArg Host.Outcome.next (if_pos hsent).symm
    · rw [if_neg hsent]
      exact congrArg Host.Outcome.next (if_neg hsent).symm
  next hno => exact absurd hr (hno c r h.ctx)

/-- The result of work that reads and writes nothing does not depend on the state. -/
theorem result_of_no_access (t : State) (r : Result) : Claims.result t k (WorkOut.of r) = Claims.result s k (WorkOut.of r) := by
  unfold Claims.result
  rw [show (WorkOut.of r).reads = [] from rfl, show (WorkOut.of r).writes = [] from rfl, accessCodes_nil, accessCodes_nil]

theorem execClearPort_ready (h : Claims.Ready s p 0x0B02 k c) (hop : c.keyOp = 4) : execClearPort p s =
    if (s.port c.keyPort).state = .down then
      .next ((s.modPort c.keyPort fun x => { x with keys := none, switching := none }).finish p.part k (WorkOut.of Result.empty))
    else .next ((s.setPacket p.part { k with phase := .running }).switchPort c.keyPort none) := by
  unfold execClearPort
  rw [h.found]
  dsimp only
  rw [h.ctx]
  dsimp only
  rw [if_pos ⟨h.opcode, h.phase, h.alive, hop⟩]

/-! SEND. -/

theorem execBounceSend_ready (h : Claims.Ready s p 0x0B03 k c) (hop : c.bounceOp = 2) :
    execBounceSend p s = .next (State.sendRecords sendFuel p (s.setPacket p.part { k with phase := .running, work := [0] })) := by
  unfold execBounceSend
  rw [h.found]
  dsimp only
  rw [h.ctx]
  dsimp only
  rw [if_pos ⟨h.opcode, h.phase, h.alive, hop⟩]

theorem execBounceSendRoom_running (hk : s.packet p = some k) (hop : k.hdr.opcode = 0x0B03) (hrun : k.phase = .running) (hf : s.fatal = false) :
    execBounceSendRoom p s = .next (State.sendRecords sendFuel p s) := by
  unfold execBounceSendRoom
  rw [hk]
  exact if_pos ⟨hop, hrun, hf⟩

theorem sendFuel_eq : sendFuel = sendFuel - 1 + 1 := by decide

/-- One record of a running SEND, or its end. -/
theorem State.sendRecords_step (hk : s.packet p = some k) (hc : s.ctx p.part k = some c) (hrun : k.phase = .running) (fuel : Nat) :
    let off := (k.work.headD 0).toNat
    let n := min 4032 (c.sendLen - off)
    let a := c.shift (c.addr 0x18) + off
    let codes := s.accessCodes .controller [(a, n)] []
    let s1 := s.readEffects a n (statusOf codes) k.ring
    State.sendRecords (fuel + 1) p s = if c.sendLen ≤ off then s.setPacket p.part { k with phase := .finished }
      else if ((s.part p.part).queue c.bounceQueue).room && ((s.part p.part).queue c.bounceQueue).waiting.isEmpty then
        if codes.isEmpty then State.sendRecords fuel p ((s1.bouncePut p.part c.bounceQueue ⟨0, c.addr 0x18 + off, 0, c.u 0x24 4, s1.read a n, none⟩).setPacket p.part
          { k with work := [((off + n : Nat) : Int)], res := { k.res with count0 := k.res.count0 + 1 } })
        else s1.setPacket p.part { k with phase := .finished, res := { k.res with codes := k.res.codes ++ codes } }
      else s := by
  intro off n a codes s1
  rw [State.sendRecords, hk]
  dsimp only
  rw [hc]
  dsimp only
  rw [if_neg (not_not.mpr hrun)]

end

/-! Inbound records. -/

section

variable {s : State} {p q : Nat} {b : List Byte}

/-- An accepted record opens under the partition's inbound key. -/
theorem bounceRefusal_opens (h : s.bounceRefusal p q b = 0) : ∃ data, gcmOpen (s.part p).host.keyIn (bounceNonce (s.part p).host.salt q (fieldAt b 0 8))
    (b.take 32) ((b.drop 32).take (fieldAt b 0x10 4)) ((b.drop 0xFF0).take 16) = some data := by
  unfold State.bounceRefusal at h
  dsimp only at h
  split at h
  · contradiction
  · split at h
    · contradiction
    · next hsome =>
      rw [Option.isNone_iff_eq_none] at hsome
      exact Option.ne_none_iff_exists'.mp hsome

theorem State.bounceAccept_data {data : List Byte} (hk : fieldAt b 0x14 1 = 0) (hd : gcmOpen (s.part p).host.keyIn
      (bounceNonce (s.part p).host.salt q (fieldAt b 0 8)) (b.take 32) ((b.drop 32).take (fieldAt b 0x10 4)) ((b.drop 0xFF0).take 16) = some data) :
    let taken := s.modQueue p q fun x => { x with inSeq := x.inSeq + 1, inCons := (x.inCons + 1) % 2 ^ 32 }
    s.bounceAccept p q b = if s.reachable (fieldAt b 8 8) (fieldAt b 0x10 4) then taken.store ⟨fieldAt b 8 8, data, false⟩ else taken := by
  intro taken
  have hreach : taken.reachable (fieldAt b 8 8) (fieldAt b 0x10 4) = s.reachable (fieldAt b 8 8) (fieldAt b 0x10 4) := (Same.modPart s p _).reachable _ _
  unfold State.bounceAccept
  dsimp only
  rw [if_pos hk, hd]
  dsimp only
  rw [hreach]

theorem State.bounceAccept_tail (hk : fieldAt b 0x14 1 ≠ 0) : s.bounceAccept p q b =
    ((s.modQueue p q fun x => { x with inSeq := x.inSeq + 1, inCons := (x.inCons + 1) % 2 ^ 32 }).modQueue p q
      fun x => { x with named := setIns x.named (fieldAt b 0x16 2) }).modRing p (fieldAt b 0x16 2) fun r => { r with tail := fieldAt b 8 4, stopped := false } :=
  if_neg hk

/-- A record that was asked for. -/
theorem execBounceRecord_asked {record : List Byte} (hpart : s.isPart p = true) (hbound : ((s.part p).queue q).bound = true)
    (hstopped : ((s.part p).queue q).stopped = false) (hasked : ((s.part p).queue q).inCons ≠ ((s.part p).queue q).inProd) (hf : s.fatal = false) :
    execBounceRecord p q record s = if s.bounceRefusal p q (padTo 4096 record) = 0 then .next (s.bounceAccept p q (padTo 4096 record))
      else .next ((s.modQueue p q fun b => { b with stopped := true }).bouncePut p q
        ⟨2, fieldAt (padTo 4096 record) 0 8, 0, s.bounceRefusal p q (padTo 4096 record), [], none⟩) := by
  refine if_neg ?_
  rw [hpart, hbound, hstopped, hf]
  rintro (h | h | h | h | h)
  · contradiction
  · contradiction
  · contradiction
  · exact hasked h
  · contradiction

end

/-- Settles O58: PORT and CLEAR_PORT, the records of a SEND, and an inbound record taken or refused. -/
theorem keysAndBounce : Obligations.KeysAndBounce := by
  refine ⟨fun p s k c h => ?_, fun p s k c hk hc hop hf => ⟨fun hph hsend => ?_, fun hrun => ?_⟩, fun part queue record s => ?_⟩
  · intro k1
    refine ⟨fun r hr hop => ?_, fun hop => ⟨fun hdown he => ?_, fun hup => ?_⟩⟩
    · exact execKeyExchangePort_ready h hr hop
    · have hexec : exec (.clearPort p) s = _ := execClearPort_ready h hop
      rw [if_pos hdown, State.finish_of_no_access (s := s.modPort c.keyPort _) he, result_of_no_access (s := s)] at hexec
      exact hexec
    · have hexec : exec (.clearPort p) s = _ := execClearPort_ready h hop
      rw [if_neg hup] at hexec
      exact hexec
  · intro begun
    have hexec : exec (.bounceSend p) s = _ := execBounceSend_ready ⟨hk, hop, hph, hf, hc⟩ hsend
    obtain ⟨hring, hidx⟩ := State.packet_keys hk
    have hroom : exec (.bounceSendRoom p) begun = _ := execBounceSendRoom_running (s := begun) (k := { k with phase := .running, work := [0] })
      (State.packet_setPacket hk hring hidx) hop rfl hf
    exact ⟨hexec, hroom.trans hexec.symm⟩
  · intro off q n a codes s1 clear
    have hexec : exec (.bounceSendRoom p) s = _ := execBounceSendRoom_running hk hop hrun hf
    rw [sendFuel_eq, State.sendRecords_step hk hc hrun] at hexec
    have hclear : (q.room && q.waiting.isEmpty) = true ↔ clear := by rw [Bool.and_eq_true, List.isEmpty_iff]
    refine ⟨fun hend => ?_, fun hmore hno => ?_, fun hmore hclr hcodes => ?_, fun hmore hclr hcodes => ?_⟩
    · rw [if_pos hend] at hexec
      exact hexec
    · rw [if_neg (Nat.not_le.mpr hmore), if_neg (fun hn => hno (hclear.mp hn))] at hexec
      exact hexec
    · rw [if_neg (Nat.not_le.mpr hmore), if_pos (hclear.mpr hclr), if_neg (fun hn => hcodes (List.isEmpty_iff.mp hn))] at hexec
      exact hexec
    · rw [if_neg (Nat.not_le.mpr hmore), if_pos (hclear.mpr hclr), if_pos (List.isEmpty_iff.mpr hcodes)] at hexec
      exact hexec
  · intro b h bytes f asked reason taken
    refine ⟨fun hno => if_pos ?_, fun ha hne => ?_, fun ha h0 => ⟨fun hkind => ?_, fun hkind => ?_⟩⟩
    · by_contra hn
      simp only [not_or, Bool.not_eq_false, Bool.not_eq_true] at hn
      exact hno hn
    all_goals
      obtain ⟨hpart, hbound, hstopped, hasked, hf⟩ := ha
      have hexec : exec (.bounceRecord part queue record) s = _ := execBounceRecord_asked hpart hbound hstopped hasked hf
    · rw [if_neg hne] at hexec
      exact hexec
    · obtain ⟨data, hdata⟩ := bounceRefusal_opens h0
      rw [if_pos h0, State.bounceAccept_data hkind hdata] at hexec
      refine ⟨data, hdata, _, hexec, ?_⟩
      by_cases hreach : s.reachable (f 8 8) (f 0x10 4) = true
      · rw [if_pos hreach, if_pos hreach]
        exact ⟨State.store_only _ _ rfl, fun hs => (State.store_bytes (s := taken) hs _).1⟩
      · rw [if_neg hreach, if_neg hreach]
    · rw [if_pos h0, State.bounceAccept_tail hkind] at hexec
      exact hexec

end Sys2Proof.Machine
end

section
/-! PROOF. The host bridge: BAR2 and aperture accesses, read timeouts, unmasked vectors, and the PCIe endpoint (R320 to R324, R431, R457). -/

namespace Sys2Proof.Machine

open Safety (OnlyData OnlyWork)

section

variable {s : State} {fn : Nat}

/-! BAR2. -/

theorem execBar2Access_reached {off size : Nat} {write : Option Word} (hup : s.pathUp (.bar0 fn) = true) (hpart : s.isPart fn = true) (hoff : off < 0x800000) :
    execBar2Access fn off size write s = if s.board.group.length ≤ off / 0x40000 ∨ s.lowQ (off / 0x10000 % 4) ≠ fn then
      .next (if write.isSome then s else s.emit (.readData (.reg fn) (List.replicate size 0)))
      else .next (s.bar2 fn (off / 0x40000) (off / 0x10000 % 4) (off % 0x10000) size write) := by
  unfold execBar2Access
  dsimp only
  rw [if_neg (by rw [hup, hpart, decide_eq_false (Nat.not_le.mpr hoff)]; exact Bool.false_ne_true)]
  cases write with
  | none => rfl
  | some v => rfl

theorem State.bar2_here {g q off size : Nat} (h : s.board.group[g]?.getD 0 = s.endpoint ∨ size ≠ 8 ∨ off % 8 ≠ 0) (write : Option Word) :
    s.bar2 fn g q off size write = write.elim ((s.regRead (.reg fn) q off size).1.emit (.readData (.reg fn) (s.regRead (.reg fn) q off size).2))
      (s.regWrite (.reg fn) q off size) := by
  unfold State.bar2
  dsimp only
  rw [if_pos h]
  cases write with
  | none => rfl
  | some v => rfl

theorem State.bar2_there {g q off : Nat} (hdst : s.board.group[g]?.getD 0 ≠ s.endpoint) (ho : off % 8 = 0) (write : Option Word) :
    s.bar2 fn g q off 8 write = s.bridgeSend fn g (s.board.group[g]?.getD 0) M_REG (globalAddr (s.board.group[g]?.getD 0) (0x0F0000000000 + q * 65536 + off))
      (if write.isSome then 8 else 0) (write.elim [] fun v => toLe 8 v.toNat) := by
  unfold State.bar2
  dsimp only
  rw [if_neg (by rintro (h | h | h); exacts [hdst h, h rfl, h ho])]
  cases write with
  | none => rfl
  | some v => rfl

/-! The aperture. -/

/-- The length of an aperture access. -/
def apertureLen : ApertureOp → Nat
  | .write d => d.length
  | .read n => n

/-- The most that an aperture access may carry. -/
def apertureMost : ApertureOp → Nat
  | .write _ => 512
  | .read _ => 4096

theorem aperture_fits {off : Nat} (hup : s.pathUp (.bar0 fn) = true) (hpart : s.isPart fn = true) (hoff : off < 2 ^ 36) (fits : Bool)
    (t u : Host.Outcome State Fault Refusal) :
    (if (!(s.pathUp (.bar0 fn) && s.isPart fn && fits) || decide (64 * gib ≤ off)) = true then t else u) = if fits = false then t else u := by
  have hgib : decide (64 * gib ≤ off) = false := decide_eq_false (by unfold gib; omega)
  rw [hup, hpart, hgib]
  cases fits with
  | true => rfl
  | false => rfl

/-- An aperture access that the endpoint takes, of at most 64 GiB of offset. -/
theorem execApertureAccess_reached {off : Nat} (op : ApertureOp) (hup : s.pathUp (.bar0 fn) = true) (hpart : s.isPart fn = true) (hoff : off < 2 ^ 36) :
    let ga := s.configItem fn 0xD0000 + off
    let dst := ga / 2 ^ 49
    let g := s.board.group.idxOf dst
    execApertureAccess fn off op s =
      if apertureMost op < apertureLen op then .next s
      else if dst ∉ s.board.group then .next (s.refuseAperture fn 0xFFFF op)
      else if s.servesThere fn dst (ga % 2 ^ 49) = false then .next (s.refuseAperture fn g op)
      else if dst = s.endpoint then .next (s.apertureHere fn g (ga % 2 ^ 49) op)
      else .next (s.apertureThere fn g dst ga op) := by
  intro ga dst g
  have hin : ∀ x, (!s.board.group.contains x) = true ↔ x ∉ s.board.group := fun x => by
    rw [Bool.not_eq_true', ← Bool.not_eq_true, List.contains_iff_mem]
  have hserves : ∀ b : Bool, (!b) = true ↔ b = false := by decide
  cases op with
  | write d =>
    refine (aperture_fits hup hpart hoff _ _ _).trans ?_
    simp only [decide_eq_false_iff_not, not_le, hin, hserves] <;> rfl
  | read n =>
    refine (aperture_fits hup hpart hoff _ _ _).trans ?_
    simp only [decide_eq_false_iff_not, not_le, hin, hserves] <;> rfl

/-- An aperture access to the bridge's own memory. -/
theorem State.apertureHere_eq (g a : Nat) (op : ApertureOp) : s.apertureHere fn g a op =
    if ¬(s.inMemory fn a (apertureLen op) = true ∧ s.hostMayReach fn a (apertureLen op) = true) then s.refuseAperture fn g op
    else if ¬(s.reachable a (apertureLen op) = true ∧ s.quarterOff fn = false) then (match op with | .write _ => s | .read _ => s.emit (.completerAbort fn))
    else match op with
      | .write d => s.store ⟨a, d, false⟩
      | .read n => (if s.faults.isEmpty then s else (codewordsIn a n).foldl (fun s cw => s.readCw cw 0 0xFFFF false) s).hostData fn (s.read a n) (s.poisonMapOf a n) := by
  have hmine : ∀ b c : Bool, (!(b && c)) = true ↔ ¬(b = true ∧ c = true) := by decide
  have hup : ∀ b c : Bool, (!b || c) = true ↔ ¬(b = true ∧ c = false) := by decide
  unfold State.apertureHere
  cases op with
  | write d => simp only [hmine, hup] <;> rfl
  | read n => simp only [hmine, hup] <;> rfl

theorem State.servesThere_here (a : Nat) : s.servesThere fn s.endpoint a = true ↔ s.ownerOf a = some fn := by
  unfold State.servesThere
  rw [if_pos rfl, beq_iff_eq]

/-! Read timeouts and the MSI-X table. -/

theorem execBridgeReadTimeout_sent {id : Nat} {q : BridgeReq} (h : s.bridgeReqs.find? (fun r => r.msgId == id && !r.aperture && !r.isWrite) = some q) :
    execBridgeReadTimeout id s = if s.mclk < q.time + 500000 then .next s
      else .next ({ s with bridgeReqs := s.bridgeReqs.filter fun r => r != q }.readTimedOut q.fn q.member q.bytes) := by
  unfold execBridgeReadTimeout
  rw [h] <;> rfl

theorem execBridgeReadTimeout_held {id : Nat} {h : BridgeHeld} (hsent : s.bridgeReqs.find? (fun r => r.msgId == id && !r.aperture && !r.isWrite) = none)
    (hheld : s.bridgeHeld.find? (fun h => h.id == id && h.msg.mtype == M_REG && h.msg.data.isEmpty) = some h) :
    execBridgeReadTimeout id s = if s.mclk < h.time + 500000 then .next s
      else .next ({ s with bridgeHeld := s.bridgeHeld.filter fun x => x != h }.readTimedOut h.fn h.member 8) := by
  unfold execBridgeReadTimeout
  rw [hsent]
  dsimp only
  rw [hheld] <;> rfl

theorem State.setMsix_idle {vector : Nat} {e : Word × BitVec 32 × Bool} (h : (fn, vector) ∉ s.msixPending) :
    s.setMsix fn vector e = { s with msixTable := Tbl.set (0, 0, true) s.msixTable (fn * 64 + vector) e } := by
  refine if_neg ?_
  rw [Bool.and_eq_true]
  rintro ⟨-, hin⟩
  exact h (List.contains_iff_mem.mp hin)

theorem State.setMsix_pending {vector : Nat} {a : Word} {d : BitVec 32} (h : (fn, vector) ∈ s.msixPending) :
    s.setMsix fn vector (a, d, false) = { s with
      msixTable := Tbl.set (0, 0, true) s.msixTable (fn * 64 + vector) (a, d, false),
      msixPending := s.msixPending.filter (· ≠ (fn, vector)), out := s.out ++ [.msix fn vector a d] } :=
  if_pos (by rw [Bool.and_eq_true]; exact ⟨rfl, List.contains_iff_mem.mpr h⟩)

theorem execMsixUnmask_eq (vector : Nat) : execMsixUnmask fn vector s =
    if s.pathUp (.bar0 fn) = true ∧ s.isPart fn = true ∧ vector < 64 then .next (s.setMsix fn vector ((s.msixEntry fn vector).1, (s.msixEntry fn vector).2.1, false))
    else .next s := by
  unfold execMsixUnmask
  simp only [Bool.and_eq_true, decide_eq_true_eq, and_assoc]

end

/-- Settles O59: BAR2 and the aperture, the time limit of a BAR2 read, an unmasked vector, and the reset and link of the endpoint. -/
theorem bridgeAccesses : Obligations.BridgeAccesses := by
  refine ⟨fun fn off size write s => ?_, fun fn off op s hup hpart hoff => ?_, fun id s => ?_, fun fn vector s => ?_, fun s => ?_⟩
  · intro g q o dst go msg
    have hmsg : ∀ (addr : Nat) (data : List Byte), s.bridgeSend fn g dst M_REG addr (if write.isSome then 8 else 0) data = msg addr data := fun _ _ => rfl
    refine ⟨fun hno => if_pos ?_, fun hup hpart hoff => ?_⟩
    · rcases hno with h | h | h
      · rw [h]
        rfl
      · rw [h, Bool.and_false]
        rfl
      · rw [decide_eq_true h, Bool.or_true]
    · have hexec : exec (.bar2Access fn off size write) s = _ := execBar2Access_reached hup hpart hoff
      refine ⟨fun hno => ?_, fun hg hq => ⟨fun hhere => ?_, fun hdst hsize ho => ?_⟩⟩
      · rw [if_pos hno] at hexec
        exact hexec
      all_goals rw [if_neg (by rintro (h | h); exacts [Nat.not_lt.mpr h hg, h hq])] at hexec
      · rw [State.bar2_here hhere] at hexec
        cases write with
        | none => exact hexec
        | some v => exact hexec
      · subst hsize
        rw [State.bar2_there hdst ho, hmsg] at hexec
        cases write with
        | none => exact hexec
        | some v => exact hexec
  · intro ga a dst g len refused most
    have hexec : exec (.apertureAccess fn off op) s = _ := execApertureAccess_reached op hup hpart hoff
    have hlen : apertureLen op = len := by
      cases op with
      | write d => rfl
      | read n => rfl
    have hmost : apertureMost op = most := by
      cases op with
      | write d => rfl
      | read n => rfl
    have hrefused : ∀ member, exec (.apertureAccess fn off op) s = .next (s.refuseAperture fn member op) → refused member := by
      intro member h
      cases op with
      | write d => exact h
      | read n => exact h
    rw [hlen, hmost] at hexec
    refine ⟨fun hlong => ?_, fun hfit hout => ?_, fun hfit hin => ⟨fun hhere => ?_, fun hserves => ?_, fun hserves hthere => ?_, fun hown hhere => ?_⟩⟩
    · rw [if_pos hlong] at hexec
      exact hexec
    · rw [if_neg (Nat.not_lt.mpr hfit), if_pos hout] at hexec
      exact hrefused _ hexec
    all_goals rw [if_neg (Nat.not_lt.mpr hfit), if_neg (not_not.mpr hin)] at hexec
    · rw [hhere]
      exact State.servesThere_here a
    · rw [if_pos hserves] at hexec
      exact hrefused _ hexec
    · rw [if_neg (ne_false_of_eq_true hserves), if_neg hthere] at hexec
      cases op with
      | write d => exact hexec
      | read n => exact hexec
    · have hserves : s.servesThere fn dst a = true := by
        rw [hhere]
        exact (State.servesThere_here a).mpr hown
      rw [if_neg (ne_false_of_eq_true hserves), if_pos hhere, State.apertureHere_eq, hlen] at hexec
      intro mine up
      refine ⟨fun hno => ?_, fun hmine hdown => ?_, fun hmine hup => ?_⟩
      · rw [if_pos hno] at hexec
        exact hrefused _ hexec
      · rw [if_neg (not_not.mpr hmine), if_pos hdown] at hexec
        cases op with
        | write d => exact hexec
        | read n => exact hexec
      · rw [if_neg (not_not.mpr hmine), if_neg (not_not.mpr hup)] at hexec
        refine ⟨_, hexec, ?_⟩
        cases op with
        | write d => exact ⟨State.store_only _ _ rfl, fun hf => (State.store_bytes hf _).1⟩
        | read n =>
          intro hf
          dsimp only
          rw [if_pos (by rw [hf]; rfl)]
          rfl
  · intro ends sent held
    refine ⟨fun q hq => ?_, fun h hsent hheld => ?_, fun hsent hheld => ?_⟩
    · have hexec : exec (.bridgeReadTimeout id) s = _ := execBridgeReadTimeout_sent hq
      refine ⟨fun hearly => ?_, fun hlate => ?_⟩
      · rw [if_pos hearly] at hexec
        exact hexec
      · rw [if_neg (Nat.not_lt.mpr hlate)] at hexec
        exact hexec
    · have hexec : exec (.bridgeReadTimeout id) s = _ := execBridgeReadTimeout_held hsent hheld
      refine ⟨fun hearly => ?_, fun hlate => ?_⟩
      · rw [if_pos hearly] at hexec
        exact hexec
      · rw [if_neg (Nat.not_lt.mpr hlate)] at hexec
        exact hexec
    · show execBridgeReadTimeout id s = _
      unfold execBridgeReadTimeout
      split
      next q hq => exact absurd (hsent.symm.trans hq) (by simp)
      next =>
        split
        next h hh => exact absurd (hheld.symm.trans hh) (by simp)
        next => rfl
  · intro e u reached
    have hexec : exec (.msixUnmask fn vector) s = _ := execMsixUnmask_eq vector
    refine ⟨fun hno => ?_, fun hr hout => ?_, fun hr hin => ?_⟩
    · rw [if_neg hno] at hexec
      exact hexec
    · rw [if_pos hr, State.setMsix_idle hout] at hexec
      exact hexec
    · rw [if_pos hr, State.setMsix_pending hin] at hexec
      exact hexec
  · refine ⟨fun h => if_pos h, fun h => if_neg ?_, fun speed width => ?_⟩
    · rintro ⟨hmain, hx⟩
      rcases h with h | h
      · exact ne_false_of_eq_true hmain h
      · exact ne_false_of_eq_true h hx
    · intro trains
      have hclock : s.clocksLost.contains 40 = false ↔ 40 ∉ s.clocksLost := by rw [← Bool.not_eq_true, List.contains_iff_mem]
      have hexec : exec (.pcieLinkUp speed width) s = if trains then .next { s with pcieSpeed := speed, pcieWidth := width } else .next s := by
        show execPcieLinkUp speed width s = _
        unfold execPcieLinkUp
        simp only [hclock] <;> rfl
      exact ⟨fun h => hexec.trans (if_pos h), fun h => hexec.trans (if_neg h)⟩

end Sys2Proof.Machine
end

section
/-! PROOF. The routes of the on-die fabric as walks from router to router (R290, R299). -/

namespace Sys2Proof.Machine

/-! Routers by their half, row and column (R287). -/

theorem routerAt_parts (n : Nat) : routerAt (routerHalf n) (routerRow n) (routerCol n) = n := by
  unfold routerAt routerHalf routerRow routerCol
  omega

section

variable {h r c : Nat}

theorem routerHalf_routerAt (hr : r < 16) (hc : c < 4) : routerHalf (routerAt h r c) = h := by
  unfold routerHalf routerAt
  omega

theorem routerRow_routerAt (hr : r < 16) (hc : c < 4) : routerRow (routerAt h r c) = r := by
  unfold routerRow routerAt
  omega

theorem routerCol_routerAt (hc : c < 4) : routerCol (routerAt h r c) = c := by
  unfold routerCol routerAt
  omega

end

theorem routerRow_lt (n : Nat) : routerRow n < 16 := by
  unfold routerRow
  omega

theorem routerCol_lt (n : Nat) : routerCol n < 4 := by
  unfold routerCol
  omega

theorem routerHalf_lt {n : Nat} (hn : n < 128) : routerHalf n < 2 := by
  unfold routerHalf
  omega

/-! Walks. -/

/-- A walk of a message from one router to another: each link is the one by which the message leaves the router that it stands at. -/
def State.Walks (s : State) (vc : Nat) (src dst : Attach) : Nat → List FabricLink → Nat → Prop
  | n, [], m => n = m
  | n, l :: ls, m => s.nextLink vc src dst n = some l ∧ l.isPort = true ∧ s.Walks vc src dst l.router ls m

section

variable {s : State} {vc : Nat} {src dst : Attach}

theorem State.Walks.append {ls ls' : List FabricLink} {m k : Nat} : ∀ {n : Nat},
    s.Walks vc src dst n ls m → s.Walks vc src dst m ls' k → s.Walks vc src dst n (ls ++ ls') k := by
  induction ls with
  | nil =>
    intro n hn hm
    cases hn
    exact hm
  | cons l ls ih =>
    intro n hn hm
    obtain ⟨hl, hport, hrest⟩ := hn
    exact ⟨hl, hport, ih hrest hm⟩

theorem State.linksFrom_of_walks {ls : List FabricLink} {m fuel : Nat} : ∀ {n : Nat}, s.Walks vc src dst n ls m →
    s.linksFrom vc src dst (ls.length + fuel) n = (s.linksFrom vc src dst fuel m).map (ls ++ ·) := by
  induction ls with
  | nil =>
    intro n hn
    cases hn
    simp
  | cons l ls ih =>
    intro n hn
    obtain ⟨hl, hport, hrest⟩ := hn
    have hstep : s.linksFrom vc src dst (ls.length + fuel + 1) n = (s.linksFrom vc src dst (ls.length + fuel) l.router).map (l :: ·) := by
      cases l with
      | mesh r p => simp [State.linksFrom, hl]
      | unit r p => simp [FabricLink.isPort] at hport
      | crossing p w => simp [State.linksFrom, hl]
    rw [List.length_cons, Nat.add_right_comm, hstep, ih hrest]
    simp [Function.comp_def]

/-- A walk to the destination's router, and out to the unit there, is the way of a message. -/
theorem State.linksFrom_of_walks_unit {ls : List FabricLink} {n m p fuel : Nat} (hw : s.Walks vc src dst n ls m)
    (hu : s.nextLink vc src dst m = some (.unit m p)) (hlen : ls.length < fuel) : s.linksFrom vc src dst fuel n = some (ls ++ [.unit m p]) := by
  obtain ⟨more, rfl⟩ : ∃ more, fuel = ls.length + (more + 1) := ⟨fuel - ls.length - 1, by omega⟩
  rw [State.linksFrom_of_walks hw]
  simp [State.linksFrom, hu]

/-- A walk of `k` links through the routers `at_ 0` to `at_ k`. -/
theorem State.walks_range {at_ : Nat → Nat} {link : Nat → FabricLink} {k : Nat} (hnext : ∀ i < k, s.nextLink vc src dst (at_ i) = some (link i))
    (hport : ∀ i, (link i).isPort = true) (hrouter : ∀ i < k, (link i).router = at_ (i + 1)) :
    s.Walks vc src dst (at_ 0) ((List.range k).map link) (at_ k) := by
  induction k with
  | zero => rfl
  | succ k ih =>
    rw [List.range_succ, List.map_append]
    refine (ih (fun i hi => hnext i (by omega)) fun i hi => hrouter i (by omega)).append ⟨hnext k (by omega), hport k, ?_⟩
    exact hrouter k (by omega)

/-! Along a column and along a row. -/

theorem routerRow_up {n i : Nat} (h : routerRow n + i < 16) : routerRow (n + 4 * i) = routerRow n + i := by
  unfold routerRow at *
  omega

theorem routerRow_down {n i : Nat} (h : i ≤ routerRow n) : routerRow (n - 4 * i) = routerRow n - i := by
  unfold routerRow at *
  omega

theorem routerCol_right {n i : Nat} (h : routerCol n + i < 4) : routerCol (n + i) = routerCol n + i := by
  unfold routerCol at *
  omega

theorem routerCol_left {n i : Nat} (h : i ≤ routerCol n) : routerCol (n - i) = routerCol n - i := by
  unfold routerCol at *
  omega

/-- Where a message goes towards a row from every other row of a column, it walks along that column to the row. -/
theorem State.walks_alongColumn {n row : Nat} (hrow : row < 16)
    (hnext : ∀ q < 16, q ≠ row → s.nextLink vc src dst (routerAt (routerHalf n) q (routerCol n)) =
      some (vertical (routerAt (routerHalf n) q (routerCol n)) row)) :
    s.Walks vc src dst n (Claims.alongColumn n row) (routerAt (routerHalf n) row (routerCol n)) := by
  have hn := routerRow_lt n
  have hstep : ∀ m q, q < 16 → q ≠ row → m = routerAt (routerHalf n) q (routerCol n) → s.nextLink vc src dst m = some (vertical m row) :=
    fun m q hq hne hm => hm ▸ hnext q hq hne
  unfold Claims.alongColumn
  rcases Nat.le_total (routerRow n) row with hle | hle
  · rw [Nat.sub_eq_zero_of_le hle, List.range_zero, List.map_nil, List.append_nil]
    have hw : s.Walks vc src dst (n + 4 * 0) ((List.range (row - routerRow n)).map fun i => .mesh (n + 4 * (i + 1)) 2) (n + 4 * (row - routerRow n)) := by
      refine State.walks_range (at_ := fun i => n + 4 * i) (fun i hi => ?_) (fun i => rfl) fun i hi => rfl
      rw [hstep (n + 4 * i) (routerRow n + i) (by omega) (by omega) (by unfold routerAt routerHalf routerRow routerCol; omega), vertical,
        routerRow_up (by omega), if_pos (by omega)]
      rfl
    have hend : n + 4 * (row - routerRow n) = routerAt (routerHalf n) row (routerCol n) := by
      unfold routerAt routerHalf routerRow routerCol at *
      omega
    exact hend ▸ hw
  · rw [Nat.sub_eq_zero_of_le hle, List.range_zero, List.map_nil, List.nil_append]
    have hw : s.Walks vc src dst (n - 4 * 0) ((List.range (routerRow n - row)).map fun i => .mesh (n - 4 * (i + 1)) 3) (n - 4 * (routerRow n - row)) := by
      refine State.walks_range (at_ := fun i => n - 4 * i) (fun i hi => ?_) (fun i => rfl) fun i hi => rfl
      rw [hstep (n - 4 * i) (routerRow n - i) (by omega) (by omega) (by unfold routerAt routerHalf routerRow routerCol at *; omega), vertical,
        routerRow_down (by omega), if_neg (by omega), Nat.sub_sub]
      rfl
    have hend : n - 4 * (routerRow n - row) = routerAt (routerHalf n) row (routerCol n) := by
      unfold routerAt routerHalf routerRow routerCol at *
      omega
    exact hend ▸ hw

/-- Where a message goes towards a column from every other column of a row, it walks along that row to the column. -/
theorem State.walks_alongRow {n col : Nat} (hcol : col < 4)
    (hnext : ∀ q < 4, q ≠ col → s.nextLink vc src dst (routerAt (routerHalf n) (routerRow n) q) =
      some (horizontal (routerAt (routerHalf n) (routerRow n) q) col)) :
    s.Walks vc src dst n (Claims.alongRow n col) (routerAt (routerHalf n) (routerRow n) col) := by
  have hn := routerCol_lt n
  have hstep : ∀ m q, q < 4 → q ≠ col → m = routerAt (routerHalf n) (routerRow n) q → s.nextLink vc src dst m = some (horizontal m col) :=
    fun m q hq hne hm => hm ▸ hnext q hq hne
  unfold Claims.alongRow
  rcases Nat.le_total (routerCol n) col with hle | hle
  · rw [Nat.sub_eq_zero_of_le hle, List.range_zero, List.map_nil, List.append_nil]
    have hw : s.Walks vc src dst (n + 0) ((List.range (col - routerCol n)).map fun i => .mesh (n + (i + 1)) 4) (n + (col - routerCol n)) := by
      refine State.walks_range (at_ := fun i => n + i) (fun i hi => ?_) (fun i => rfl) fun i hi => rfl
      rw [hstep (n + i) (routerCol n + i) (by omega) (by omega) (by unfold routerAt routerHalf routerRow routerCol; omega), horizontal,
        routerCol_right (by omega), if_pos (by omega)]
      rfl
    have hend : n + (col - routerCol n) = routerAt (routerHalf n) (routerRow n) col := by
      unfold routerAt routerHalf routerRow routerCol at *
      omega
    exact hend ▸ hw
  · rw [Nat.sub_eq_zero_of_le hle, List.range_zero, List.map_nil, List.nil_append]
    have hw : s.Walks vc src dst (n - 0) ((List.range (routerCol n - col)).map fun i => .mesh (n - (i + 1)) 5) (n - (routerCol n - col)) := by
      refine State.walks_range (at_ := fun i => n - i) (fun i hi => ?_) (fun i => rfl) fun i hi => rfl
      rw [hstep (n - i) (routerCol n - i) (by omega) (by omega) (by unfold routerAt routerHalf routerRow routerCol at *; omega), horizontal,
        routerCol_left (by omega), if_neg (by omega), Nat.sub_sub]
    have hend : n - (routerCol n - col) = routerAt (routerHalf n) (routerRow n) col := by
      unfold routerAt routerHalf routerRow routerCol at *
      omega
    exact hend ▸ hw

theorem alongColumn_length {n row : Nat} (hrow : row < 16) : (Claims.alongColumn n row).length ≤ 15 := by
  have hn := routerRow_lt n
  simp only [Claims.alongColumn, List.length_append, List.length_map, List.length_range]
  omega

theorem alongRow_length {n col : Nat} (hcol : col < 4) : (Claims.alongRow n col).length ≤ 3 := by
  have hn := routerCol_lt n
  simp only [Claims.alongRow, List.length_append, List.length_map, List.length_range]
  omega

/-! Crossing ports and the next link (R290, R299). -/

theorem crossingPort_first {row k : Nat} (h : 4 * row + k % 4 ∉ s.crossingsRetired) : s.crossingPort row k = some (4 * row + k % 4) := by
  simp [State.crossingPort, List.range_succ, h]

theorem crossingPort_second {row k : Nat} (h : 4 * row + k % 4 ∈ s.crossingsRetired) (h1 : 4 * row + (k + 1) % 4 ∉ s.crossingsRetired) :
    s.crossingPort row k = some (4 * row + (k + 1) % 4) := by
  simp [State.crossingPort, List.range_succ, h, h1]

/-- On other channels than VC1 a message goes along its column first. -/
theorem nextLink_column_first {n : Nat} (hvc : vc ≠ 1) (hrow : routerRow n ≠ routerRow dst.router) :
    s.nextLink vc src dst n = some (vertical n (routerRow dst.router)) := by
  simp [State.nextLink, hvc, hrow]

/-- In the destination's half and column a message goes along the column. -/
theorem nextLink_column_last {n : Nat} (hhalf : routerHalf n = routerHalf dst.router) (hcol : routerCol n = routerCol dst.router)
    (hrow : routerRow n ≠ routerRow dst.router) : s.nextLink vc src dst n = some (vertical n (routerRow dst.router)) := by
  simp [State.nextLink, hhalf, hcol, hrow]

theorem nextLink_to_seam {n : Nat} (hfree : vc = 1 ∨ routerRow n = routerRow dst.router) (hhalf : routerHalf n ≠ routerHalf dst.router)
    (hcol : routerCol n ≠ 0) : s.nextLink vc src dst n = some (horizontal n 0) := by
  rw [State.nextLink, if_neg (by omega), if_pos hhalf, if_pos hcol]

theorem nextLink_crossing {n : Nat} (hfree : vc = 1 ∨ routerRow n = routerRow dst.router) (hhalf : routerHalf n ≠ routerHalf dst.router)
    (hcol : routerCol n = 0) (hall : s.crossingsRetired = []) : s.nextLink vc src dst n =
      some (.crossing (4 * routerRow n + (routerCol src.router + routerCol dst.router) % 4) (routerHalf dst.router == 1)) := by
  rw [State.nextLink, if_neg (by omega), if_pos hhalf, if_neg (by simp [hcol]), crossingPort_first (by simp [hall])]
  rfl

theorem nextLink_row {n : Nat} (hfree : vc = 1 ∨ routerRow n = routerRow dst.router) (hhalf : routerHalf n = routerHalf dst.router)
    (hcol : routerCol n ≠ routerCol dst.router) : s.nextLink vc src dst n = some (horizontal n (routerCol dst.router)) := by
  rw [State.nextLink, if_neg (by omega), if_neg (by simp [hhalf]), if_pos hcol]

theorem nextLink_unit {n : Nat} (hn : n = dst.router) : s.nextLink vc src dst n = some (.unit dst.router dst.port) := by
  subst hn
  simp [State.nextLink]

/-! The way across a row, and the whole route. -/

theorem crossing_router {row k half : Nat} (hhalf : half < 2) : (FabricLink.crossing (4 * row + k % 4) (half == 1)).router = routerAt half row 0 := by
  have hp : (4 * row + k % 4) / 4 = row := by omega
  rcases Nat.lt_succ_iff_lt_or_eq.mp hhalf with h0 | rfl
  · obtain rfl : half = 0 := by omega
    simp [FabricLink.router, hp]
  · simp [FabricLink.router, hp]

/-- In a row in which it may turn, a message walks to its column, through the row's crossing port where it has to change halves. -/
theorem State.walks_across {n : Nat} (hdst : dst.router < 128) (hall : s.crossingsRetired = [])
    (hfree : vc = 1 ∨ routerRow n = routerRow dst.router) :
    s.Walks vc src dst n (Claims.across n (routerHalf dst.router) (routerCol dst.router)
        (4 * routerRow n + (routerCol src.router + routerCol dst.router) % 4))
      (routerAt (routerHalf dst.router) (routerRow n) (routerCol dst.router)) := by
  have hrow := routerRow_lt n
  have hcol := routerCol_lt dst.router
  have hto : ∀ m, routerHalf m = routerHalf dst.router → routerRow m = routerRow n →
      s.Walks vc src dst m (Claims.alongRow m (routerCol dst.router)) (routerAt (routerHalf m) (routerRow m) (routerCol dst.router)) := by
    intro m hhalf hm
    refine State.walks_alongRow hcol fun q hq hne => nextLink_row ?_ ?_ ?_
    · rwa [routerRow_routerAt (routerRow_lt m) hq, hm]
    · rwa [routerHalf_routerAt (routerRow_lt m) hq]
    · rwa [routerCol_routerAt hq]
  unfold Claims.across
  by_cases hhalf : routerHalf n = routerHalf dst.router
  · rw [if_pos hhalf, ← hhalf]
    exact hto n hhalf rfl
  · rw [if_neg hhalf]
    have hseam : s.Walks vc src dst n (Claims.alongRow n 0) (routerAt (routerHalf n) (routerRow n) 0) := by
      refine State.walks_alongRow (by omega) fun q hq hne => nextLink_to_seam ?_ ?_ ?_
      · rwa [routerRow_routerAt hrow hq]
      · rwa [routerHalf_routerAt hrow hq]
      · rwa [routerCol_routerAt hq]
    have hcross : s.nextLink vc src dst (routerAt (routerHalf n) (routerRow n) 0) =
        some (.crossing (4 * routerRow n + (routerCol src.router + routerCol dst.router) % 4) (routerHalf dst.router == 1)) := by
      have h := nextLink_crossing (s := s) (vc := vc) (src := src) (dst := dst) (n := routerAt (routerHalf n) (routerRow n) 0)
      rw [routerRow_routerAt hrow (by omega), routerHalf_routerAt hrow (by omega), routerCol_routerAt (by omega)] at h
      exact h hfree hhalf rfl hall
    have hfar := hto (routerAt (routerHalf dst.router) (routerRow n) 0) (routerHalf_routerAt hrow (by omega)) (routerRow_routerAt hrow (by omega))
    rw [routerRow_routerAt hrow (by omega), routerHalf_routerAt hrow (by omega)] at hfar
    refine hseam.append ⟨hcross, rfl, ?_⟩
    rw [crossing_router (routerHalf_lt hdst)]
    exact hfar

theorem across_length {n half col port : Nat} (hcol : col < 4) : (Claims.across n half col port).length ≤ 7 := by
  unfold Claims.across
  split
  · exact (alongRow_length hcol).trans (by omega)
  · have h0 := alongRow_length (n := n) (col := 0) (by omega)
    have h1 := alongRow_length (n := routerAt half (routerRow n) 0) hcol
    rw [List.length_append, List.length_cons]
    omega

/-- The links of R290 between the source's router and the destination's. -/
def wayOf (vc : Nat) (src dst : Attach) : List FabricLink :=
  let h := routerHalf dst.router
  let r := routerRow dst.router
  let c := routerCol dst.router
  let cross := fun (row : Nat) => 4 * row + (routerCol src.router + c) % 4
  if vc = 1 then Claims.across src.router h c (cross (routerRow src.router)) ++ Claims.alongColumn (routerAt h (routerRow src.router) c) r
  else Claims.alongColumn src.router r ++ Claims.across (routerAt (routerHalf src.router) r (routerCol src.router)) h c (cross r)

theorem wayOf_length : (wayOf vc src dst).length < 23 := by
  have hr := routerRow_lt dst.router
  have hc := routerCol_lt dst.router
  unfold wayOf
  dsimp only
  split
  · rw [List.length_append]
    have h1 := across_length (n := src.router) (half := routerHalf dst.router)
      (port := 4 * routerRow src.router + (routerCol src.router + routerCol dst.router) % 4) hc
    have h2 := alongColumn_length (n := routerAt (routerHalf dst.router) (routerRow src.router) (routerCol dst.router)) hr
    omega
  · rw [List.length_append]
    have h1 := across_length (n := routerAt (routerHalf src.router) (routerRow dst.router) (routerCol src.router)) (half := routerHalf dst.router)
      (port := 4 * routerRow dst.router + (routerCol src.router + routerCol dst.router) % 4) hc
    have h2 := alongColumn_length (n := src.router) hr
    omega

theorem State.walks_wayOf (hdst : dst.router < 128) (hall : s.crossingsRetired = []) :
    s.Walks vc src dst src.router (wayOf vc src dst) dst.router := by
  have hr := routerRow_lt dst.router
  have hc := routerCol_lt dst.router
  have hsr := routerRow_lt src.router
  have hsc := routerCol_lt src.router
  unfold wayOf
  dsimp only
  split
  next hvc =>
    refine (State.walks_across hdst hall (.inl hvc)).append ?_
    have hw := State.walks_alongColumn (s := s) (vc := vc) (src := src) (dst := dst)
      (n := routerAt (routerHalf dst.router) (routerRow src.router) (routerCol dst.router)) hr
    rw [routerHalf_routerAt hsr hc, routerCol_routerAt hc, routerAt_parts] at hw
    refine hw fun q hq hne => nextLink_column_last ?_ ?_ ?_
    · rw [routerHalf_routerAt hq hc]
    · rw [routerCol_routerAt hc]
    · rwa [routerRow_routerAt hq hc]
  next hvc =>
    have hcolumn : s.Walks vc src dst src.router (Claims.alongColumn src.router (routerRow dst.router))
        (routerAt (routerHalf src.router) (routerRow dst.router) (routerCol src.router)) := by
      refine State.walks_alongColumn hr fun q hq hne => nextLink_column_first hvc ?_
      rwa [routerRow_routerAt hq hsc]
    have hacross := State.walks_across (s := s) (vc := vc) (src := src) (dst := dst)
      (n := routerAt (routerHalf src.router) (routerRow dst.router) (routerCol src.router)) hdst hall
    rw [routerRow_routerAt hr hsc, routerAt_parts] at hacross
    exact hcolumn.append (hacross (.inr rfl))

theorem State.route_eq_path (hdst : dst.router < 128) (hall : s.crossingsRetired = []) :
    s.route vc src dst = some (Claims.path vc src dst) := by
  have hunit := nextLink_unit (s := s) (vc := vc) (src := src) (dst := dst) rfl
  have hlinks := State.linksFrom_of_walks_unit (State.walks_wayOf hdst hall) hunit wayOf_length
  rw [State.route, hlinks]
  rfl

end

end Sys2Proof.Machine
end

section
/-! PROOF. Flits on the links of the on-die fabric, failed links, and the seam (R298, R299, R303). -/

namespace Sys2Proof.Machine

/-! The state of a link. -/

section

variable {s : State}

theorem State.link_link (l : FabricLink) : (s.link l).link = l := by
  unfold State.link
  cases hf : s.fabric.find? fun x => x.link == l with
  | none => rfl
  | some x => simpa using List.find?_some hf

theorem State.link_setLink_self (y : FabLink) : (s.setLink y).link y.link = y := by
  have hnone : (s.fabric.filter fun z => z.link != y.link).find? (fun z => z.link == y.link) = none := by
    simp
  simp [State.link, State.setLink, List.find?_append, hnone]

theorem State.link_setLink_other (y : FabLink) {m : FabricLink} (h : m ≠ y.link) : (s.setLink y).link m = s.link m := by
  have hy : (y.link == m) = false := by simpa using Ne.symm h
  have hfilter : (s.fabric.filter fun z => z.link != y.link).find? (fun z => z.link == m) = s.fabric.find? fun z => z.link == m := by
    rw [List.find?_filter]
    congr 1
    funext z
    by_cases hz : z.link = m
    · simp [hz, h]
    · simp [hz]
  simp [State.link, State.setLink, List.find?_append, hfilter, hy]

end

/-- Only the state of one link of the fabric changed, and what was put out. -/
def PutsLink (s : State) (l : FabricLink) (t : State) (y : FabLink) : Prop :=
  t = { s with fabric := t.fabric, out := t.out } ∧ t.link l = y ∧ ∀ m, m ≠ l → t.link m = s.link m

section

variable {s : State} {l : FabricLink} {y : FabLink}

theorem putsLink_setLink (hy : y.link = l) : PutsLink s l (s.setLink y) y := by
  subst hy
  exact ⟨rfl, State.link_setLink_self y, fun m hm => State.link_setLink_other y hm⟩

theorem putsLink_emit {t : State} {o : Out} (h : PutsLink s l t y) : PutsLink s l (t.emit o) y := by
  obtain ⟨ht, hl, hother⟩ := h
  refine ⟨?_, hl, hother⟩
  rw [ht]
  rfl

end

/-! A flit that arrives. -/

/-- What a link's sender is after a flit has arrived: the flit is one that it keeps for a replay, or it has sent it now (R298). -/
def SendsOn (x : FabLink) (f : FabricFlit) (y : FabLink) : Prop :=
  let again := x.sent.find? fun g => g.seq == f.seq
  y.next = x.next + (if again.isSome then 0 else 1) ∧ (again.isSome = true → y.sent = x.sent)
    ∧ (again = none → y.sent.getLast? = some { f with seq := x.next, crcOk := true } ∧ y.sent.length ≤ 32)

/-- A flit can come: its sender keeps it for a replay, or holds a credit for it and has room to keep it (R292, R298). -/
def Comes (x : FabLink) (f : FabricFlit) : Prop :=
  (x.sent.find? fun g => g.seq == f.seq).isSome = true ∨ x.credit f.vc = true ∧ x.next < x.expect + 32

section

variable {x : FabLink} {f : FabricFlit}

theorem sendsOn_send (h : (x.sent.find? fun g => g.seq == f.seq) = none) : SendsOn x f (x.send f) := by
  have hlast : ∀ (l : List FabricFlit) (g : FabricFlit), ((l ++ [g]).drop (l.length + 1 - 32)).getLast? = some g := by
    intro l g
    rw [List.getLast?_drop, if_neg (by simp), List.getLast?_concat]
  refine ⟨by simp [h, FabLink.send], by simp [h], fun _ => ⟨hlast _ _, ?_⟩⟩
  simp only [FabLink.send, List.length_drop, List.length_append, List.length_cons, List.length_nil]
  omega

/-- What arrives in a flit's place: the flit itself or the one kept for a replay, with a sender that differs in nothing but what sending changes. -/
theorem arriving_of_comes (h : Comes x f) : ∃ y, x.arriving f = some ((x.sent.find? fun g => g.seq == f.seq).getD f, y) ∧ SendsOn x f y
    ∧ y = { x with next := y.next, sent := y.sent, taken := y.taken } := by
  cases hf : x.sent.find? fun g => g.seq == f.seq with
  | some g => exact ⟨x, by simp [FabLink.arriving, hf], ⟨by simp [hf], fun _ => rfl, by simp [hf]⟩, rfl⟩
  | none =>
    have hready : x.ready f.vc = true := by
      rcases h with h | ⟨hc, hn⟩
      · simp [hf] at h
      · simp [FabLink.ready, hc, hn]
    exact ⟨x.send f, by simp [FabLink.arriving, hf, hready], sendsOn_send hf, rfl⟩

theorem arriving_of_not_comes (h : ¬Comes x f) : x.arriving f = none := by
  unfold Comes at h
  cases hf : x.sent.find? fun g => g.seq == f.seq with
  | some g => simp [hf] at h
  | none =>
    have hready : x.ready f.vc = false := by
      simp only [hf, Option.isSome_none, Bool.false_eq_true, false_or, not_and, Nat.not_lt] at h
      by_cases hc : x.credit f.vc = true
      · simp [FabLink.ready, h hc]
      · simp [FabLink.ready, hc]
    simp [FabLink.arriving, hf, hready]

end

section

variable {s : State} {l : FabricLink} {f : FabricFlit}

/-- The flit that a link takes for `f`: the one that its sender keeps for a replay, or `f` itself. -/
def comingFlit (x : FabLink) (f : FabricFlit) : FabricFlit := (x.sent.find? fun g => g.seq == f.seq).getD f

/-- What a link expects after a good flit in sequence: the next one, with its retries forgotten. -/
def FabLink.advanced (y : FabLink) : FabLink := { y with expect := y.expect + 1, awaiting := false, inRow := 0 }

/-- A failed flit: the link awaits the replay, and the retry is counted. -/
def FabLink.failedOnce (y : FabLink) (mclk mhz : Nat) : FabLink := { y.countRetry mclk mhz with awaiting := true, inRow := y.inRow + 1 }

theorem fabricFlitReceive_idle (h : f.seq ≠ (s.link l).expect ∨ ¬Comes (s.link l) f) : exec (.fabricFlitReceive l f) s = .next s := by
  change execFabricFlitReceive l f s = .next s
  unfold execFabricFlitReceive
  dsimp only
  split
  · rfl
  next hseq =>
    have hx : f.seq = (s.link l).expect := by
      simp only [Bool.or_eq_true, bne_iff_ne, ne_eq, not_or, Decidable.not_not] at hseq
      exact hseq.2
    rw [arriving_of_not_comes (h.resolve_left fun hne => hne hx)] <;> rfl

section

variable {y : FabLink} (hup : s.linkUp l = true) (hnot : (s.link l).failed = false) (hseq : f.seq = (s.link l).expect)
  (hy : (s.link l).arriving f = some (comingFlit (s.link l) f, y))

include hup hnot hseq hy

theorem fabricFlitReceive_bad (hcrc : f.crcOk = false) : exec (.fabricFlitReceive l f) s =
    .next ((s.setLink (y.failedOnce s.mclk (s.nclkMhz (routerHalf l.router)))).emit (.fabricReplay l (s.link l).expect)) := by
  change execFabricFlitReceive l f s = _
  unfold execFabricFlitReceive
  dsimp only
  rw [if_neg (by simp [hup, hnot, hseq]), hy]
  dsimp only
  rw [if_pos (by simp [hcrc])]
  rfl

theorem fabricFlitReceive_lost (hcrc : f.crcOk = true) (hfails : s.messageFails (comingFlit (s.link l) f).msg = true) :
    exec (.fabricFlitReceive l f) s =
      let g := comingFlit (s.link l) f
      let u := s.setLink (y.advanced.giveBack g.vc)
      .next (if l = .mesh g.msg.src.router g.msg.src.port ∧ g.index = 0 then u.loseMessage g.msg else u) := by
  change execFabricFlitReceive l f s = _
  unfold execFabricFlitReceive
  dsimp only
  rw [if_neg (by simp [hup, hnot, hseq]), hy]
  dsimp only
  rw [if_neg (by simp [hcrc]), if_pos hfails]
  rfl

theorem fabricFlitReceive_taken (hcrc : f.crcOk = true) (hfails : s.messageFails (comingFlit (s.link l) f).msg = false) :
    exec (.fabricFlitReceive l f) s = .next (s.setLink (y.advanced.take (s.dualClock l) (comingFlit (s.link l) f))) := by
  change execFabricFlitReceive l f s = _
  unfold execFabricFlitReceive
  dsimp only
  rw [if_neg (by simp [hup, hnot, hseq]), hy]
  dsimp only
  rw [if_neg (by simp [hcrc]), if_neg (by simp [hfails])]
  rfl

end

end

/-! What each of them leaves of the link. -/

section

variable {x y z : FabLink} {f : FabricFlit}

theorem SendsOn.congr (h : SendsOn x f y) (hnext : z.next = y.next) (hsent : z.sent = y.sent) : SendsOn x f z := by
  unfold SendsOn at *
  rw [hnext, hsent]
  exact h

theorem take_dual (y : FabLink) (g : FabricFlit) : y.take true g = { y with queued := y.queued ++ [⟨g, 0⟩] } := rfl

/-- Behind no dual-clock queue a flit joins the buffer; a unit's credit goes back at once. -/
theorem take_direct (y : FabLink) (g : FabricFlit) : ∃ taken, y.take false g = { y with held := y.held ++ [g], taken := taken } := by
  unfold FabLink.take
  rw [if_neg (by simp)]
  dsimp only
  split
  · exact ⟨y.taken, rfl⟩
  · exact ⟨_, rfl⟩

theorem countRetry_inWindow (y : FabLink) (mclk mhz : Nat) : ∃ n at_, y.countRetry mclk mhz = { y with inWindow := n, windowAt := at_ }
    ∧ (n = y.inWindow + 1 ∨ n = 1 ∧ at_ = mclk) := by
  unfold FabLink.countRetry
  split
  · exact ⟨1, mclk, rfl, .inr ⟨rfl, rfl⟩⟩
  · exact ⟨_, _, rfl, .inl rfl⟩

end

/-! Links past their limits (R299). -/

section

variable {s : State} {l : FabricLink}

theorem meshLinkFailed_within (h : (s.link l).inRow ≤ 8 ∧ (s.link l).inWindow ≤ 128 ∨ ∃ n p, p < 2 ∧ (l = .mesh n p ∨ l = .unit n p)) :
    exec (.meshLinkFailed l) s = .next s := by
  have hpast : (s.link l).pastLimit = false := by
    unfold FabLink.pastLimit
    rw [State.link_link]
    rcases h with ⟨hrow, hwindow⟩ | ⟨n, p, hp, rfl | rfl⟩
    · have hlimit : ¬(9 ≤ (s.link l).inRow ∨ 128 < (s.link l).inWindow) := by omega
      simp [hlimit]
    · have hport : ¬2 ≤ p := by omega
      simp [hport]
    · have hport : ¬2 ≤ p := by omega
      simp [hport]
  change execMeshLinkFailed l s = .next s
  unfold execMeshLinkFailed
  dsimp only
  rw [if_pos (by simp [hpast])]

section

variable (hup : s.linkUp l = true) (hnot : (s.link l).failed = false) (hpast : 9 ≤ (s.link l).inRow ∨ 128 < (s.link l).inWindow)

include hup hnot hpast

theorem meshLinkFailed_mesh {r p : Nat} (hp : 2 ≤ p) (hl : l = .mesh r p ∨ l = .unit r p) : exec (.meshLinkFailed l) s =
    .next ((s.setLink { s.link l with failed := true }).settleRoutes.logQuarter (routerQuarter r) (mkEvent 0x41 r p)) := by
  have hlimit : (s.link l).pastLimit = true := by
    unfold FabLink.pastLimit
    rw [State.link_link]
    rcases hl with rfl | rfl <;> simp [hp, hpast]
  change execMeshLinkFailed l s = _
  unfold execMeshLinkFailed
  dsimp only
  rw [if_neg (by simp [hup, hnot, hlimit])]
  rcases hl with rfl | rfl <;> rfl

theorem meshLinkFailed_crossing {p : Nat} {w : Bool} (hl : l = .crossing p w) : exec (.meshLinkFailed l) s =
    let u := s.setLink { s.link l with failed := true }
    .next (((({ u with crossingsRetired := setIns u.crossingsRetired p } : State).turnBack p true).turnBack p false).settleRoutes.logAll
      (mkEvent 0x42 p (crossingBackup p))) := by
  have hlimit : (s.link l).pastLimit = true := by
    unfold FabLink.pastLimit
    rw [State.link_link]
    subst hl
    simp [hpast]
  change execMeshLinkFailed l s = _
  unfold execMeshLinkFailed
  dsimp only
  rw [if_neg (by simp [hup, hnot, hlimit])]
  subst hl
  rfl

end

end

/-! Messages that are lost (R299, R303). -/

section

variable {s : State} {m : FabricMsg}

theorem loseMessage_response (h : m.kind.response = true) : s.loseMessage m = s := by
  rw [State.loseMessage, if_pos h]

theorem loseMessage_unowned (h : m.kind.response = false) (howner : m.owner.bind s.packet = none) :
    s.loseMessage m = s.emit (.fabricFailed m.id) := by
  rw [State.loseMessage, if_neg (by simp [h])]
  dsimp only
  split
  · rfl
  next r hr =>
    have hnone : (s.emit (.fabricFailed m.id)).packet r = none := by
      rw [hr] at howner
      exact howner
    rw [hnone] <;> rfl

end

/-! The messages on the fabric, each once. -/

/-- The messages of some flits, in the order of their first, after those that are listed already. -/
def addMessages (ms : List FabricMsg) (fs : List FabricFlit) : List FabricMsg :=
  fs.foldl (fun ms f => if ms.contains f.msg then ms else ms ++ [f.msg]) ms

theorem fabricMessages_eq (s : State) : s.fabricMessages = addMessages [] (s.fabric.flatMap FabLink.flits) := rfl

theorem addMessages_spec (fs : List FabricFlit) : ∀ ms : List FabricMsg, ms.Nodup →
    (addMessages ms fs).Nodup ∧ ∀ m, m ∈ addMessages ms fs ↔ m ∈ ms ∨ ∃ f ∈ fs, f.msg = m := by
  induction fs with
  | nil => exact fun ms hms => ⟨hms, by simp [addMessages]⟩
  | cons f fs ih =>
    intro ms hms
    by_cases hin : f.msg ∈ ms
    · have hstep : addMessages ms (f :: fs) = addMessages ms fs := by simp [addMessages, hin]
      obtain ⟨hnodup, hmem⟩ := ih ms hms
      refine ⟨hstep ▸ hnodup, fun m => ?_⟩
      rw [hstep, hmem]
      grind
    · have hstep : addMessages ms (f :: fs) = addMessages (ms ++ [f.msg]) fs := by simp [addMessages, hin]
      obtain ⟨hnodup, hmem⟩ := ih (ms ++ [f.msg]) (by simpa [List.nodup_append] using ⟨hms, fun a ha h => hin (h ▸ ha)⟩)
      refine ⟨hstep ▸ hnodup, fun m => ?_⟩
      rw [hstep, hmem]
      grind

theorem fabricMessages_nodup (s : State) : s.fabricMessages.Nodup := (addMessages_spec _ [] List.nodup_nil).1

theorem mem_fabricMessages {s : State} {m : FabricMsg} : m ∈ s.fabricMessages ↔ ∃ x ∈ s.fabric, ∃ f ∈ x.flits, f.msg = m := by
  rw [fabricMessages_eq, (addMessages_spec _ [] List.nodup_nil).2]
  simp only [List.not_mem_nil, false_or, List.mem_flatMap]
  exact ⟨fun ⟨f, ⟨x, hx, hf⟩, hm⟩ => ⟨x, hx, f, hf, hm⟩, fun ⟨x, hx, f, hf, hm⟩ => ⟨f, ⟨x, hx, hf⟩, hm⟩⟩

/-! The seam. -/

/-- The crossing links start anew: empty queues, full credits, and nothing sent. -/
def StartsAnew (t : State) : Prop := ∀ x ∈ t.fabric, ∀ p w, x.link = .crossing p w →
  x.queued = [] ∧ x.back = [] ∧ x.taken = [0, 0, 0, 0] ∧ x.sent = [] ∧ x.next = 0 ∧ x.expect = 0

section

variable {s : State} {h : Nat}

theorem clearCrossings_startsAnew (s : State) : StartsAnew s.clearCrossings := by
  intro x hx p w hl
  obtain ⟨y, hy, rfl⟩ := List.mem_map.mp hx
  cases hyl : y.link with
  | mesh n q => simp [hyl] at hl
  | unit n q => simp [hyl] at hl
  | crossing q v => simp [FabLink.restart, FabLink.start]

/-- The messages that end when a half goes, at a half that is left: those towards it from the half that is left, and those from it that had not
come whole. -/
def State.goneWith (s : State) (half : Nat) : List FabricMsg :=
  s.fabricMessages.filter fun m =>
    routerHalf m.dst.router == half || (routerHalf m.src.router == half && !s.wholeIn (1 - half) m)

/-- The state without a half, before the messages that were lost complete. -/
def State.withoutHalf (s : State) (half : Nat) : State :=
  let s1 := (s.dropMessages (s.goneWith half).contains).clearCrossings
  { s1 with halvesDown := setIns s1.halvesDown half, fabric := s1.fabric.filter fun x => routerHalf x.link.router == 1 - half }

/-- The messages that the half that is left has sent towards the other. -/
def State.lostWith (s : State) (half : Nat) : List FabricMsg := (s.goneWith half).filter fun m => routerHalf m.src.router == 1 - half

theorem dropHalf_eq (s : State) (half : Nat) : s.dropHalf half = (s.lostWith half).foldl State.loseMessage (s.withoutHalf half) := rfl

theorem withoutHalf_startsAnew (s : State) (half : Nat) : StartsAnew (s.withoutHalf half) :=
  fun x hx => clearCrossings_startsAnew (s.dropMessages (s.goneWith half).contains) x (List.mem_of_mem_filter hx)

theorem withoutHalf_half {x : FabLink} (hx : x ∈ (s.withoutHalf h).fabric) : routerHalf x.link.router = 1 - h := by
  simpa using (List.mem_filter.mp hx).2

theorem lostWith_nodup (s : State) (half : Nat) : (s.lostWith half).Nodup := ((fabricMessages_nodup s).filter _).filter _

theorem mem_lostWith {m : FabricMsg} (hh : h < 2) : m ∈ s.lostWith h ↔
    (∃ x ∈ s.fabric, ∃ f ∈ x.flits, f.msg = m) ∧ routerHalf m.dst.router = h ∧ routerHalf m.src.router = 1 - h := by
  have hother : routerHalf m.src.router = 1 - h → routerHalf m.src.router ≠ h := by omega
  simp only [State.lostWith, State.goneWith, List.mem_filter, mem_fabricMessages, Bool.or_eq_true, Bool.and_eq_true, beq_iff_eq]
  constructor
  · rintro ⟨⟨hon, hdst | ⟨hsrc, -⟩⟩, hup⟩
    · exact ⟨hon, hdst, hup⟩
    · exact absurd hsrc (hother hup)
  · rintro ⟨hon, hdst, hup⟩
    exact ⟨⟨hon, .inl hdst⟩, hup⟩

theorem seamPeerDown_drops (hh : h < 2) (hmain : s.mainUp = true) (hdown : h ∉ s.halvesDown) : exec (.seamPeerDown h) s = .next (s.dropHalf h) := by
  change execSeamPeerDown h s = _
  rw [execSeamPeerDown, if_pos ⟨hh, by simpa using hdown, hmain⟩]

theorem seamPeerDown_already (hdown : h ∈ s.halvesDown) : exec (.seamPeerDown h) s = .next s := by
  change execSeamPeerDown h s = _
  rw [execSeamPeerDown, if_neg (by simp [hdown])]

theorem seamPeerUp_already (hdown : h ∉ s.halvesDown) : exec (.seamPeerUp h) s = .next s := by
  change execSeamPeerUp h s = _
  rw [execSeamPeerUp, if_neg (by simp [hdown])]

theorem seamPeerUp_returns (hh : h < 2) (hmain : s.mainUp = true) (hdown : h ∈ s.halvesDown) (hclk : 2 + h ∉ s.clocksLost)
    (hoff : (([2 * h, 2 * h + 1] : List Nat).all fun q => (s.part (s.lowQ q)).pstate == .standby) = false) :
    exec (.seamPeerUp h) s = .next ({ s with halvesDown := setDel s.halvesDown h } : State).clearCrossings := by
  change execSeamPeerUp h s = _
  unfold execSeamPeerUp
  dsimp only
  rw [if_pos ⟨hh, by simpa using hdown, by simpa using hclk, hoff, hmain⟩]

end

/-! FABRIC_FLIT_RECEIVE and MESH_LINK_FAILED, as what they put in their link. -/

section

variable {s : State} {l : FabricLink} {f : FabricFlit} (hup : s.linkUp l = true) (hnot : (s.link l).failed = false)

include hup hnot

section

variable (hseq : f.seq = (s.link l).expect) (hcomes : Comes (s.link l) f)

include hseq hcomes

/-- A good flit in sequence joins the dual-clock queue, or the buffer where there is none. -/
theorem fabricFlit_accepted (hcrc : f.crcOk = true) (hfails : s.messageFails (comingFlit (s.link l) f).msg = false) :
    ∃ t y, exec (.fabricFlitReceive l f) s = .next t ∧ PutsLink s l t y ∧ SendsOn (s.link l) f y
      ∧ y.expect = (s.link l).expect + 1 ∧ y.awaiting = false ∧ y.inRow = 0 ∧ t.out = s.out
      ∧ (if s.sendClock l ≠ s.recvClock l then y.queued = (s.link l).queued ++ [⟨comingFlit (s.link l) f, 0⟩] ∧ y.held = (s.link l).held
          else y.held = (s.link l).held ++ [comingFlit (s.link l) f] ∧ y.queued = (s.link l).queued) := by
  obtain ⟨y, harr, hsends, hy⟩ := arriving_of_comes hcomes
  have hlink : y.link = l := by rw [hy]; exact State.link_link l
  have hexpect : y.expect = (s.link l).expect := by rw [hy]
  have hqueued : y.queued = (s.link l).queued := by rw [hy]
  have hheld : y.held = (s.link l).held := by rw [hy]
  have hrun := fabricFlitReceive_taken hup hnot hseq harr hcrc hfails
  by_cases hclk : s.sendClock l = s.recvClock l
  · have hdual : s.dualClock l = false := by simp [State.dualClock, hclk]
    obtain ⟨taken, htake⟩ := take_direct y.advanced (comingFlit (s.link l) f)
    rw [hdual, htake] at hrun
    refine ⟨_, _, hrun, putsLink_setLink hlink, hsends.congr rfl rfl, congrArg (· + 1) hexpect, rfl, rfl, rfl, ?_⟩
    rw [if_neg (by simpa using hclk)]
    exact ⟨congrArg (· ++ _) hheld, hqueued⟩
  · have hdual : s.dualClock l = true := by simp [State.dualClock, hclk]
    rw [hdual, take_dual] at hrun
    refine ⟨_, _, hrun, putsLink_setLink hlink, hsends.congr rfl rfl, congrArg (· + 1) hexpect, rfl, rfl, rfl, ?_⟩
    rw [if_pos hclk]
    exact ⟨congrArg (· ++ _) hqueued, hheld⟩

/-- A good flit of a message that cannot arrive goes no further; with its first one from its source the message is lost. -/
theorem fabricFlit_of_lost (hcrc : f.crcOk = true) (hfails : s.messageFails (comingFlit (s.link l) f).msg = true) :
    ∃ u y, PutsLink s l u y ∧ SendsOn (s.link l) f y ∧ u.out = s.out
      ∧ y.expect = (s.link l).expect + 1 ∧ y.awaiting = false ∧ y.inRow = 0 ∧ y.held = (s.link l).held ∧ y.queued = (s.link l).queued
      ∧ (l = .mesh (comingFlit (s.link l) f).msg.src.router (comingFlit (s.link l) f).msg.src.port ∧ (comingFlit (s.link l) f).index = 0 →
          exec (.fabricFlitReceive l f) s = .next (u.loseMessage (comingFlit (s.link l) f).msg))
      ∧ (¬(l = .mesh (comingFlit (s.link l) f).msg.src.router (comingFlit (s.link l) f).msg.src.port ∧ (comingFlit (s.link l) f).index = 0) →
          exec (.fabricFlitReceive l f) s = .next u) := by
  obtain ⟨y, harr, hsends, hy⟩ := arriving_of_comes hcomes
  have hlink : y.link = l := by rw [hy]; exact State.link_link l
  have hexpect : y.expect = (s.link l).expect := by rw [hy]
  have hqueued : y.queued = (s.link l).queued := by rw [hy]
  have hheld : y.held = (s.link l).held := by rw [hy]
  have hrun := fabricFlitReceive_lost hup hnot hseq harr hcrc hfails
  dsimp only at hrun
  refine ⟨_, _, putsLink_setLink (y := y.advanced.giveBack (comingFlit (s.link l) f).vc) hlink, hsends.congr rfl rfl, rfl, congrArg (· + 1) hexpect, rfl, rfl, hheld, hqueued,
    fun hsource => ?_, fun hsource => ?_⟩
  · rw [hrun, if_pos hsource]
  · rw [hrun, if_neg hsource]

/-- A flit whose CRC fails is not taken, and the replay from it is asked for. -/
theorem fabricFlit_failed (hcrc : f.crcOk = false) : ∃ t y, exec (.fabricFlitReceive l f) s = .next t ∧ PutsLink s l t y ∧ SendsOn (s.link l) f y
    ∧ y.queued = (s.link l).queued ∧ y.held = (s.link l).held ∧ y.expect = (s.link l).expect ∧ y.awaiting = true ∧ y.inRow = (s.link l).inRow + 1
    ∧ (y.inWindow = (s.link l).inWindow + 1 ∨ y.inWindow = 1 ∧ y.windowAt = s.mclk) ∧ t.out = s.out ++ [.fabricReplay l (s.link l).expect] := by
  obtain ⟨y, harr, hsends, hy⟩ := arriving_of_comes hcomes
  have hlink : y.link = l := by rw [hy]; exact State.link_link l
  have hexpect : y.expect = (s.link l).expect := by rw [hy]
  have hqueued : y.queued = (s.link l).queued := by rw [hy]
  have hheld : y.held = (s.link l).held := by rw [hy]
  have hinRow : y.inRow = (s.link l).inRow := by rw [hy]
  have hinWindow : y.inWindow = (s.link l).inWindow := by rw [hy]
  have hrun := fabricFlitReceive_bad hup hnot hseq harr hcrc
  obtain ⟨n, at_, hcount, hn⟩ := countRetry_inWindow y s.mclk (s.nclkMhz (routerHalf l.router))
  rw [FabLink.failedOnce, hcount] at hrun
  rw [hinWindow] at hn
  exact ⟨_, _, hrun, putsLink_emit (putsLink_setLink hlink), hsends.congr rfl rfl, hqueued, hheld, hexpect, rfl, congrArg (· + 1) hinRow, hn, rfl⟩

end

/-- A link past its limits fails; a mesh link's event goes to its quarter, and a crossing port is retired. -/
theorem meshLink_fails (hpast : 9 ≤ (s.link l).inRow ∨ 128 < (s.link l).inWindow) :
    ∃ u, PutsLink s l u { s.link l with failed := true } ∧ u.out = s.out
      ∧ (∀ r p, 2 ≤ p → l = .mesh r p ∨ l = .unit r p →
          exec (.meshLinkFailed l) s = .next (u.settleRoutes.logQuarter (2 * (r / 64) + r % 64 / 32) (mkEvent 0x41 r p)))
      ∧ (∀ p w, l = .crossing p w → exec (.meshLinkFailed l) s = .next
          (((({ u with crossingsRetired := setIns s.crossingsRetired p } : State).turnBack p true).turnBack p false).settleRoutes.logAll
            (mkEvent 0x42 p (p / 4 * 4 + (p + 1) % 4)))) := by
  refine ⟨s.setLink { s.link l with failed := true }, putsLink_setLink (State.link_link l), rfl, fun r p hp hl => ?_, fun p w hl => ?_⟩
  · have hquarter : routerQuarter r = 2 * (r / 64) + r % 64 / 32 := by
      unfold routerQuarter routerHalf routerRow
      omega
    rw [meshLinkFailed_mesh hup hnot hpast hp hl, hquarter]
  · exact meshLinkFailed_crossing hup hnot hpast hl

end

/-- Settles O45: routes are walks from router to router; a flit's arrival puts one new state in its link; and the seam's two events keep of the fabric
what their filters keep. -/
theorem fabricLinks : Obligations.FabricLinks := by
  unfold Obligations.FabricLinks
  intro s
  refine ⟨fun vc src dst _ hdst hall => State.route_eq_path hdst hall, fun row k => ⟨crossingPort_first, crossingPort_second⟩, fun l f hup hnot => ?_,
    fun m => ⟨loseMessage_response, loseMessage_unowned⟩, fun h hh hmain => ?_⟩
  · intro x put again comes g source sends
    exact ⟨fun hseq hcrc hcomes hfails => fabricFlit_accepted hup hnot hseq hcomes hcrc hfails,
      fun hseq hcrc hcomes hfails => fabricFlit_of_lost hup hnot hseq hcomes hcrc hfails,
      fun hseq hcrc hcomes => fabricFlit_failed hup hnot hseq hcomes hcrc, fabricFlitReceive_idle, meshLinkFailed_within, meshLink_fails hup hnot⟩
  · intro off anew
    refine ⟨fun hdown => ?_, fun hdown hclk hoff => ?_, seamPeerDown_already, seamPeerUp_already⟩
    · exact ⟨s.withoutHalf h, s.lostWith h, seamPeerDown_drops hh hmain hdown, rfl, withoutHalf_startsAnew s h, lostWith_nodup s h,
        fun x hx => withoutHalf_half hx, fun m => mem_lostWith hh⟩
    · exact ⟨_, seamPeerUp_returns hh hmain hdown hclk hoff, rfl, notMem_setDel, clearCrossings_startsAnew _⟩

end Sys2Proof.Machine
end
